-- ==== Sys2Proof/Word.lean ====
section
/-!
DEFINITION. Word.lean: the words of the part. A byte is the unit of every layout (12_formats_and_layouts.md) and of
the DRAM; counts and object numbers are naturals with their bounds stated where they are kept.
-/
namespace Sys2Proof

/-- One byte. -/
abbrev Byte := BitVec 8

/-- Sparse bytes of a row or of a store: (offset or address, byte), the offsets not listed reading as 0. -/
abbrev Cells := List Host.Cell

/-- Addition that stops at a greatest value (the manual's saturating counts). -/
def satAdd (top a b : Nat) : Nat := min top (a + b)

/-- Division rounded up (the manual's `ceil`). -/
def ceilDiv (a b : Nat) : Nat := (a + (b - 1)) / b

/-- An instant or an interval of the reference timebase in microseconds, as an exact fraction `num / den`. -/
structure Instant where
  num : Nat
  den : Nat
  deriving DecidableEq, Repr

/-- A whole number of microseconds. -/
def Instant.ofMicros (n : Nat) : Instant := ⟨n, 1⟩

/-- The sum of two instants. -/
def Instant.add (a b : Instant) : Instant := ⟨a.num * b.den + b.num * a.den, a.den * b.den⟩

/-- The time from `a` to `b`, 0 when `b` is not later. -/
def Instant.since (b a : Instant) : Instant := ⟨b.num * a.den - a.num * b.den, a.den * b.den⟩

end Sys2Proof
end

