-- ==== Sys2Proof/Syntax.lean ====
section
/-!
DEFINITION. Syntax.lean: the commands the part takes, one constructor per row of spec/opcode_table.json, with the
operands the row needs: packet fields as 12_formats_and_layouts.md lays them out, and what a sensor or a head element
gives at an event.
-/
namespace Sys2Proof

/-- The cartridge type code (R123). -/
inductive TypeCode where
  | dataA | dataB | cleaning | unknown
  deriving DecidableEq, Repr

/-- What the thread path sensor shows (R128). -/
inductive Leader where
  | home | between | takeUp
  deriving DecidableEq, Repr

/-- The mechanism sensors as they stand (00_scope.md 1.2). The type code and tab are meaningful while seated. -/
structure Sensors where
  seated : Bool
  leader : Leader
  typeCode : TypeCode
  tab : Bool
  deriving DecidableEq, Repr

/-- One servo channel's reading of a burst whose word check passed (R145): the position word and the lateral error. -/
structure ServoReading where
  word : Nat
  lateral : Int
  deriving DecidableEq, Repr

/-- One servo burst (R145): when it arrived, and each channel's reading (`none`: failed check or no signal). -/
structure Burst where
  time : Instant
  ch0 : Option ServoReading
  ch1 : Option ServoReading
  deriving DecidableEq, Repr

/-- The outcome of reading a row back or reading it (R48, R84). -/
inductive RowOutcome where
  | headerBad | clean | corrected (k : Nat) | uncorrectable
  deriving DecidableEq, Repr

/-- A row as a read channel gives it (R84, R85): the header's fields (12.2), its C1 outcome, its payload bytes. -/
structure RowRead where
  dataset : BitVec 32
  row : BitVec 16
  wrap : BitVec 8
  attempt : BitVec 8
  check : BitVec 32
  outcome : RowOutcome
  payload : Cells
  deriving DecidableEq, Repr

/-- What the read channels show at a pitch (R84); a row set carries one row per channel with a signal. -/
inductive PitchContent where
  | rowSet (rows : Vector (Option RowRead) 16)
  | separator
  | endPattern
  | blank
  deriving DecidableEq, Repr

/-- The commands of the block: one constructor per row of spec/opcode_table.json. A queued or quick command carries
its tag and its parameter bytes (body offset 4 onward); a table its tag, table check and field bytes (offset 6 onward). -/
inductive Instr where
  | powerOnReset (sensors : Sensors)
  | nreset (sensors : Sensors)
  | linkCheckFailure (packet : List Byte)
  | load (tag : Byte) (params : List Byte)
  | unld (tag : Byte) (params : List Byte)
  | rwnd (tag : Byte) (params : List Byte)
  | loct (tag : Byte) (params : List Byte)
  | spac (tag : Byte) (params : List Byte)
  | writeRecords (tag : Byte) (params : List Byte)
  | writeFilemarks (tag : Byte) (params : List Byte)
  | readRecords (tag : Byte) (params : List Byte)
  | sync (tag : Byte) (params : List Byte)
  | eras (tag : Byte) (params : List Byte)
  | definePartitions (tag : Byte) (params : List Byte)
  | queryStatus (tag : Byte) (params : List Byte)
  | readPosition (tag : Byte) (params : List Byte)
  | ackEvents (tag : Byte) (params : List Byte)
  | abort (tag : Byte) (params : List Byte)
  | resetDevice (tag : Byte) (params : List Byte) (sensors : Sensors)
  | spdt (tag : Byte) (check : BitVec 16) (fields : List Byte)
  | ppol (tag : Byte) (check : BitVec 16) (fields : List Byte)
  | cpol (tag : Byte) (check : BitVec 16) (fields : List Byte)
  | rpol (tag : Byte) (check : BitVec 16) (fields : List Byte)
  | hrec (tag : Byte) (check : BitVec 16) (fields : List Byte)
  | evmk (tag : Byte) (check : BitVec 16) (fields : List Byte)
  | wdat (flags : Byte) (data : List Byte)
  | rcrd (count : BitVec 16)
  | commandBeginsExecution
  | seatedSensorOn (typeCode : TypeCode) (tab : Bool)
  | seatedSensorOff
  | leaderOnTakeUpReel
  | leaderHome
  | threadTimerExpiry
  | tensioningComplete (place : Nat)
  | tensionTimerExpiry
  | tensionLeavesBand
  | tensionReturnsToBand
  | tensionFaultTimerExpiry
  | recoveryWindComplete
  | recoveryWindTimerExpiry
  | metreTravelled (mm : Nat)
  | runLengthReached
  | endMarkerSensed
  | settleTimerExpiry
  | headStepComplete
  | streamingReached
  | shuttleApproach
  | reelsAtRest (place : Nat)
  | servoBurst (burst : Burst)
  | burstMissing
  | lateralFrame (ch0 ch1 : Option Int)
  | timebaseLocked (burst : Burst)
  | timebaseLost
  | readPitch (content : PitchContent)
  | verifyResult (outcomes : Vector RowOutcome 16)
  | datasetDone
  | eodMarkWritten
  | sealTimerExpiry
  | stagingPlaceTaken
  | entryLimitSeal
  | openFillingSlot
  | openLoadingSlot
  | readAheadResume
  | expanderTakesSlot
  | expandEntry
  | rdatSend
  | windowExpiry
  | confirmReached
  | channelWindowClose (channel : Fin 16) (failed : Bool)
  | unknownCommand (tag : Byte) (name : List Byte) (params : List Byte)
  | tblNameInvalid (tag : Byte) (name : List Byte) (check : BitVec 16) (fields : List Byte)
  deriving DecidableEq, Repr

end Sys2Proof
end

