-- ==== Sys2Proof/Decode.lean ====
section
/-!
DEFINITION. Decode.lean: the command a word spells by the bits of spec/opcode_table.json. No row of the table gives bits, so
no word spells a command.
-/
namespace Sys2Proof

/-- The command that `nbits` bits `w` spell: none, since no row of the table gives bits. -/
def decodeTableWord (_nbits _w : Nat) : Option Instr := none

end Sys2Proof
end

