-- ==== Sys2Proof/Config.lean ====
section
/-!
DEFINITION. Config.lean: what silicon fixes (geometry and layout constants) and the free values, which the manual
leaves open: constants with no body, so that no proof can see what they are.
-/
namespace Sys2Proof.Config

/-- Slots of the dataset buffer (R1). -/
def slotCount : Nat := 512
/-- Bytes of one slot (R1). -/
def slotBytes : Nat := 2097152
/-- Bytes of one row (R1). -/
def rowBytes : Nat := 8192
/-- Offset one past the highest byte of the dataset index, and of the trailer's first byte (R1). -/
def indexTop : Nat := 1966016
/-- Most index entries of one dataset (R2). -/
def maxEntries : Nat := 4096
/-- Bytes of one record (00_scope.md 4.4), of segment staging (R21) and of the assembly store (R34). -/
def maxRecord : Nat := 1048576
/-- Staging places, and the bound of credits plus places (R1, R17). -/
def stagingPlaces : Nat := 256
/-- Record bytes of one WDAT or RDAT packet (10.1). -/
def packetBytes : Nat := 4096
/-- Bytes the compression history holds (R21, R34). -/
def historyBytes : Nat := 2048
/-- The pitches a span may need: 16 nominal sets, 4 rewrite sets and the separator (R45). -/
def spanPitches : Nat := 21
/-- Pitches of the header zone at the start of wrap 0 (00_scope.md 4.5). -/
def headerZone : Nat := 64
/-- Pitch lengths of a turnaround zone (R131). -/
def turnaround : Nat := 400
/-- Pitch lengths from a run-up point to its target (R131). -/
def runUpPitches : Nat := 128
/-- Greatest distance ahead that is streamed and not shuttled (R135). -/
def shuttleAhead : Nat := 2000
/-- Milliseconds of the part's timers (R123, R67). -/
def settleMs : Nat := 50
def threadMs : Nat := 6000
def tensionMs : Nat := 2000
def tensionFaultMs : Nat := 250
def windMs : Nat := 180000
def windowMs : Nat := 200
/-- The fixed speed of a cleaning run, mm/s (R141). -/
def cleaningSpeed : Nat := 2000
/-- Counters that saturate (R44, R82, R171) and 32-bit counters (R123, R156). -/
def max16 : Nat := 65535
def max32 : Nat := 4294967295

/-- FREE VALUE: the count of filemarks before an append for which no table of the part holds one (R5). -/
opaque freeFilemarks : Nat → Nat
/-- FREE VALUE: a dataset number past 2^32 - 1, for which R5 gives no rule. -/
opaque freeDatasetNumber : Nat → Nat
/-- FREE VALUE: the bytes C2 regenerates for a missing data row (0..239) that the part did not write itself, from the good rows of the
dataset (R90, R192, log 13). -/
opaque freeC2Row : List (Nat × Cells) → Nat → Cells
/-- FREE VALUE: the payload of a FILLER row, for which R46 gives no bytes, by the free-value counter and the channel (log 56). -/
opaque freeFiller : Nat → Nat → Cells
/-- FREE VALUE: the parity row (240..255) that C2 computes from the 240 data rows (R46, R192). -/
opaque freeParityRow : Cells → Nat → Cells

end Sys2Proof.Config
end

