-- ==== Sys2Proof/Machine/State.lean ====
section
/-!
DEFINITION. State.lean: everything the spec gives the part, block by block (00_scope.md 2.1), as plain data, and the
state right after power-on reset of an empty drive. Each record cites the rule that names its fields.
-/
namespace Sys2Proof.Machine

/-- The DRAM's slots: bytes by address (slot × 2,097,152 + offset), addresses rising, no byte 0 listed (R1, log 6). -/
abbrev Memory := List Host.Cell

/-- A place on tape: wrap and pitch (R44). -/
structure Loc where
  wrap : Nat
  pitch : Nat
  deriving DecidableEq, Repr

/-- Cartridge geometry (00_scope.md 4.5). -/
inductive Generation where
  | a | b
  deriving DecidableEq, Repr

/-- The events of R184, in the order of their numbers 0 to 26. -/
inductive Event where
  | writeError | mediumError | dataCheck | servoLost | speedDeviation | speedChanged | backhitch | datasetRestart
  | earlyWarning | volumeFull | bufferNearFull | bufferNearEmpty | compressibilityChanged | channelMarginal
  | channelDead | cleaningAdvised | cleaningRequired | cleaningDone | cleaningExpired | cartridgeSeated | loadFault
  | threadFault | tensionFault | headerFault | tableCheck | protocolError | linkError
  deriving DecidableEq, Repr

/-- Status and refusal codes in the order of their numbers (12.1). -/
inductive Code where
  | good | filemark | eod | bop | lengthMismatch | dataCheck | mediumError | notReady | aborted | deferredError
  | protocolError | writeProtected | appendViolation | volumeFault | volumeFull | writeError | notAtBop
  | parameterInvalid | threadFault | tensionFault | unknownCommand | tagInvalid | tagInUse | tableCheck | tableInvalid
  | busy | locked
  deriving DecidableEq, Repr

/-- Cause of a deferred write error, in the order of its codes (R55, 12.1). -/
inductive DeferredCause where
  | writeError | volumeOverflow | tensionFault
  deriving DecidableEq, Repr

/-- The results of a DONE for a queued command (12.1): each field 0 where no rule gives it. -/
structure Results where
  count : Nat := 0
  object : Nat := 0
  actualLength : Nat := 0
  failedDataset : Nat := 0
  outcome : Nat := 0
  flags : Nat := 0
  deferred : Nat := 0
  deriving DecidableEq, Repr

/-- The answer a RESP packet carries (10.1); `extra` is what follows the 20 result bytes (QSTA and RPOS). -/
inductive Answer where
  | deferred | queueFull | refused (code : Code) | done (code : Code) (results : Results) (extra : List Byte)
  deriving DecidableEq, Repr

/-- The outbound packets (10.1). -/
inductive Packet where
  | wcrd (credits : Nat)
  | rdat (final : Bool) (data : List Byte)
  | resp (tag : Byte) (name : List Byte) (answer : Answer)
  | note (event : Nat) (count : Nat)
  deriving DecidableEq, Repr

/-- The Stream Port Unit (R171); `out` holds the packets handed over, oldest first (R172, log 4). -/
structure Spu where
  credits : Nat
  readCredits : Nat
  linkErrors : Nat
  out : List Packet
  deriving DecidableEq, Repr

/-- SPAC kinds in the order of their codes (12.1). -/
inductive SpaceKind where
  | records | filemarks | eod
  deriving DecidableEq, Repr

/-- A queued command with its parameters (R177). -/
inductive Command where
  | load | unld | rwnd
  | loct (partition object : Nat)
  | spac (kind : SpaceKind) (count : Int)
  | wrec (count : Nat)
  | wfmk (count : Nat)
  | rrec (count limit : Nat)
  | sync | eras
  | dpar (count : Nat) (sizes : List Nat)
  deriving DecidableEq, Repr

/-- One command of the queue (R175): its tag, itself, and whether it has begun execution. -/
structure Queued where
  tag : Byte
  command : Command
  begun : Bool
  deriving DecidableEq, Repr

/-- What the executing command is doing (R177): the point its own rules have reached. -/
inductive Progress where
  | none
  | flushing        -- the flush of R14; the command's own work follows
  | flushInPlace    -- the flush of R15
  | sequence        -- a LOAD or UNLD sequence of the RTC is under way
  | shuttle (code : Code)   -- waits for a shuttle to its place (RWND; LOCT and SPAC at a known EOD)
  | scan            -- a trailer scan is under way
  | settleD         -- the load of dataset D for a truncating write (R16)
  | writing         -- WRITE_RECORDS takes records
  | filemarks       -- WRITE_FILEMARKS places entries
  | erasing         -- ERAS waits for its EOD mark
  | reading         -- READ_RECORDS delivers records
  | header          -- DPAR waits for its header span
  deriving DecidableEq, Repr

/-- The deferred write error record (R55). -/
structure Deferred where
  cause : DeferredCause
  partition : Nat
  first : Nat
  objects : Nat
  deriving DecidableEq, Repr

/-- The recovery policy (R179). -/
structure RecoveryPolicy where
  margin : Nat
  restartLimit : Nat
  missLimit : Nat
  retries : Nat
  offTrack : Nat
  deriving DecidableEq, Repr

/-- The Command Unit: queue (R175), the executing command's progress and counts (R32, R102), deferred write error
record (R55), recovery policy (R179). -/
structure Cu where
  queue : List Queued
  progress : Progress
  count : Nat     -- records or filemarks placed, records delivered (R32, R102)
  finals : Nat    -- final packets taken by the Record Compressor for the executing WRITE_RECORDS (R32)
  deferred : Option Deferred
  policy : RecoveryPolicy
  deriving DecidableEq, Repr

/-- A record begun and not closed (R21). -/
structure RecordIn where
  object : Nat
  taken : Nat
  acc : BitVec 32
  earlier : Bool    -- a segment of it was closed in an earlier dataset
  final : Bool      -- its final packet was taken
  deriving DecidableEq, Repr

/-- The segment in progress (R21): where it starts in the payload, the host bytes its placed tokens cover, the stored
bytes placed, its form, whether its entry carries the reset flag. -/
structure Segment where
  start : Nat
  bytes : List Byte
  stored : Nat
  compressed : Bool
  reset : Bool
  deriving DecidableEq, Repr

/-- The Record Compressor (R21). Segment staging is `segment`'s bytes, `run` and `lookahead` together. -/
structure Rc where
  history : List Byte      -- oldest first
  sinceReset : Nat
  lookahead : List Byte
  run : List Byte          -- the pending literal run
  record : Option RecordIn
  segment : Option Segment
  resetOwed : Bool
  h : Nat
  s : Nat
  deriving DecidableEq, Repr

/-- The assembly of the Record Expander (R34). -/
structure Assembly where
  object : Nat
  data : List Byte
  segments : Nat
  stored : Nat
  fault : Bool
  acc : BitVec 32
  deriving DecidableEq, Repr

/-- A record whose assembly has ended and whose packets are being sent (R40). -/
structure Sending where
  object : Nat
  rest : List Byte
  actual : Nat
  limit : Nat
  stored : Nat
  begun : Bool
  fault : Bool
  deriving DecidableEq, Repr

/-- The Record Expander (R34). -/
structure Rx where
  history : List Byte
  sinceReset : Nat
  entry : Nat
  offset : Nat
  object : Nat
  assembly : Option Assembly
  sending : Option Sending
  h : Nat
  s : Nat
  deriving DecidableEq, Repr

/-- Buffer direction (R13). -/
inductive BufferDirection where
  | neutral | write | read
  deriving DecidableEq, Repr

/-- The states of an occupied slot (R3); a slot not occupied is FREE. -/
inductive SlotState where
  | filling | sealed | writing | loading | ready | expanding | failed
  deriving DecidableEq, Repr

/-- The record of an occupied slot (R2), with the objects counted into it (R18) and the filemarks stored in it (R5). -/
structure Slot where
  state : SlotState
  dataset : Nat
  partition : Nat
  first : Option Nat
  filemarksBefore : Option Nat
  entries : Option Nat
  payload : Option Nat
  attempt : Option Nat
  passes : Option Nat
  outcome : Option Nat
  objects : Nat
  filemarks : Nat
  deriving DecidableEq, Repr

/-- One occupied staging place (R1): the packet's final mark and record bytes. -/
structure Place where
  final : Bool
  data : List Byte
  deriving DecidableEq, Repr

/-- A running timer: milliseconds run, and the period it was started with. -/
structure Timer where
  elapsed : Nat
  period : Nat
  deriving DecidableEq, Repr

/-- The Dataset Buffer Manager (R1 to R20). `slots` are the occupied slots in ring order from `drain` (R4, log 7). -/
structure Dbm where
  slots : List Slot
  drain : Nat
  direction : BufferDirection
  staging : List Place
  sealTimer : Option Timer
  recovered : Nat
  dram : Memory
  deriving DecidableEq, Repr

/-- A channel's tally: rows scored and rows failed (R157). -/
structure Tally where
  rows : Nat
  failed : Nat
  deriving DecidableEq, Repr

/-- An entry of the rewrite queue (R49). -/
structure Rewrite where
  row : Nat
  count : Nat
  last : Nat
  deriving DecidableEq, Repr

/-- What a separator closes (R51, R52). -/
inductive CloseKind where
  | done | restart
  deriving DecidableEq, Repr

/-- Why an EOD mark is written (R57, R54, R60). -/
inductive MarkKind where
  | flush | hardError | volumeFull
  deriving DecidableEq, Repr

/-- The work that waits for a target pitch (R62). -/
inductive WfWork where
  | span | separator (kind : CloseKind) | mark (kind : MarkKind)
  deriving DecidableEq, Repr

/-- What the Write Formatter is doing; its activity (R44) is read from this and `header`. -/
inductive WfStage where
  | idle
  | runUp (target : Loc) (work : WfWork) (repositioning : Bool)
  | span
  | closing (kind : CloseKind) (laid : Option Loc)   -- where the separator was laid, once it is
  | marking (kind : MarkKind) (place : Loc) (laid : Nat)
  | backhitching (counted : Bool)
  | backhitched
  deriving DecidableEq, Repr

/-- What a header span is written for (R58, R121, R122). -/
inductive HeaderFor where
  | unseal | dpar | seal | reopen
  deriving DecidableEq, Repr

/-- A header span in progress: what for, the attempt (R58). -/
structure HeaderJob where
  purpose : HeaderFor
  attempt : Nat
  deriving DecidableEq, Repr

/-- The row set last begun and not yet verified (R48): the row on each channel (`none`: FILLER), and the place it was
begun at. -/
structure InFlight where
  rows : Vector (Option Nat) 16
  place : Loc
  deriving DecidableEq, Repr

/-- The Write Formatter (R44). -/
structure Wf where
  stage : WfStage
  header : Option HeaderJob
  writePoint : Option (Nat × Loc)    -- partition (15 for the header) and place
  appendPoint : Option Loc
  spanStart : Option Loc
  nextSet : Nat                      -- plan: next nominal set, 0..16
  rewriteSets : Nat                  -- plan: rewrite sets written, 0..4
  planned : Bool                     -- a plan stands
  rowCounts : Vector Nat 256
  queue : List Rewrite
  inFlight : Option InFlight
  tallies : Vector Tally 16
  eodPending : Bool
  misses : Nat
  backhitches : Nat
  restarts : Nat
  earlyWarned : List Nat             -- the partitions whose early-warning flag is set
  volumeFull : Option Nat
  deriving DecidableEq, Repr

/-- Why the Reader is ENDED (R82). -/
inductive EndReason where
  | endOfData | failed | fault
  deriving DecidableEq, Repr

/-- Reader activity (R82); ENDED carries its reason. -/
inductive RdrActivity where
  | idle | seeking | capturing | repositioning | paused | ended (reason : EndReason) | header
  deriving DecidableEq, Repr

/-- A row record of the row map (R82): its supplier is a pass and a copy. -/
inductive RowState where
  | absent | good (pass copy : Nat) | erased (pass copy : Nat)
  deriving DecidableEq, Repr

/-- The Reader (R82). `copies` are the span starts found, in tape order (R87): a copy is listed when its span start is. -/
structure Rdr where
  activity : RdrActivity
  expected : Option (Nat × Nat)      -- dataset number, partition (15 for the header)
  rows : Vector RowState 256
  copies : List Loc
  copy : Option Nat
  opened : Option Loc                -- where the current copy opened (R89)
  copyOpen : Bool                    -- rows of the current copy are being placed
  pass : Option Nat
  blankRun : Nat
  blankStart : Option Loc
  unseen : Option Loc
  resume : Option Loc
  tallies : Vector Tally 16
  readAhead : Bool
  headerErrors : Nat
  wanted : Bool                      -- a LOADING slot is asked for (R83)
  target : Option Loc                -- the run-up target not yet reached (R83, R92)
  alone : Bool                       -- the load of D alone (R97)
  trailerFailed : Bool               -- the last evaluation failed at the trailer (R90)
  deriving DecidableEq, Repr

/-- Fill zone (R75). -/
inductive Zone where
  | low | mid | high
  deriving DecidableEq, Repr

/-- Compressibility class (R43). -/
inductive Compressibility where
  | incompressible | moderate | high
  deriving DecidableEq, Repr

/-- The speed table (R79): entries are (mm/s, MB/s), slowest first. -/
structure SpeedTable where
  entries : List (Nat × Nat)
  high : Nat
  low : Nat
  confirm : Nat
  sealTimeout : Nat
  tolerance : Nat
  deriving DecidableEq, Repr

/-- The figures of the last window (R67). -/
structure LastWindow where
  r : Nat
  q : Nat
  nreq : Nat
  candidate : Option Nat
  fill : Nat
  deriving DecidableEq, Repr

/-- The Speed Matcher (R67). -/
structure Sm where
  window : Option Nat                -- running: milliseconds into the window
  rate : Nat                         -- Rh
  ratio : Nat                        -- Q
  pending : Option Nat
  confirmCount : Nat
  scheduled : Option Nat
  index : Nat
  zone : Zone
  compressibility : Compressibility
  last : LastWindow
  table : SpeedTable
  deriving DecidableEq, Repr

/-- Volume state (R103), in the order the rule lists it. -/
inductive VolumeState where
  | none | formatted | blank | headerFault
  deriving DecidableEq, Repr

/-- Header state (R103). -/
inductive HeaderState where
  | sealed | opened
  deriving DecidableEq, Repr

/-- Write policy of a partition, in the order of its codes (R106). -/
inductive WritePolicy where
  | writable | appendOnly | readOnly
  deriving DecidableEq, Repr

/-- A record of the partition policy (R106). -/
structure PartitionPolicy where
  write : WritePolicy
  compress : Bool
  deriving DecidableEq, Repr

/-- A record of the EOD table whose EOD is known (R108). -/
structure EodKnown where
  object : Nat
  last : Option Nat
  mark : Loc
  onTape : Bool
  deriving DecidableEq, Repr

/-- Directory state of a partition (R110). -/
inductive DirectoryState where
  | valid | building | invalid
  deriving DecidableEq, Repr

/-- A directory entry (R110). -/
structure DirectoryEntry where
  region : Nat
  dataset : Nat
  first : Nat
  filemarks : Nat
  deriving DecidableEq, Repr

/-- A partition's directory (R110). -/
structure PartitionDirectory where
  state : DirectoryState
  through : Option Nat
  entries : List DirectoryEntry
  deriving DecidableEq, Repr

/-- The kinds of index entry (R30), in the order of their codes (12.2). -/
inductive EntryKind where
  | whole | start | middle | end_ | filemark
  deriving DecidableEq, Repr

/-- A dataset's descriptor proven by a trailer scan (R113); `kinds` is its index when proven. -/
structure Descriptor where
  dataset : Nat
  first : Nat
  continues : Bool
  entries : Nat
  filemarks : Nat
  start : Loc
  kinds : Option (List EntryKind)
  before : Loc                       -- where a repeat pass over it begins (R114)
  deriving DecidableEq, Repr

/-- A dataset passed with its descriptor unproven (R113). -/
structure Unproven where
  dataset : Nat
  start : Loc
  before : Loc
  deriving DecidableEq, Repr

/-- The open descriptor capture of a copy (R113): the rows of 231..239 captured, and the span start. -/
structure Capture where
  opened : Loc
  start : Option Loc
  rows : List (Nat × Cells)
  deriving DecidableEq, Repr

/-- What a trailer scan is for (R114 to R118). -/
inductive ScanFor where
  | locate (object : Nat)            -- LOCT
  | resolve                          -- the resolution of R107
  | truncate                         -- dataset D of R118
  | read                             -- the locate before a READ_RECORDS (R104)
  | place (object : Nat)             -- SPAC: places P and counts the filemarks before it
  | spaceRecords (lo hi : Nat)       -- SPAC RECORDS between two objects
  | spaceFilemark (k fm : Nat)       -- SPAC FILEMARKS: the k-th filemark of the partition, fm lie before P
  | spaceEnd                         -- SPAC EOD
  deriving DecidableEq, Repr

/-- A trailer scan in progress (R113, R114). -/
structure Scan where
  purpose : ScanFor
  fromStart : Bool                   -- begun at the partition's first data pitch
  startDataset : Nat
  startObject : Nat
  seek : Loc
  reached : Bool
  pass : Nat
  expected : Nat
  closedUnproven : Bool              -- a copy of `expected` closed unproven; another may follow
  capture : Option Capture
  firstStart : Option Loc            -- span start of the first copy of `expected` met
  before : Loc                       -- where a repeat pass over `expected` begins
  proven : List Descriptor
  unproven : List Unproven
  highest : Option Nat               -- highest dataset whose copy closed
  blankRun : Nat
  blankStart : Option Loc
  unseen : Option Loc
  lastSep : Loc                      -- the pitch after the last separator classified, or the seek pitch
  deriving DecidableEq, Repr

/-- Dataset D of a truncating write or an ERAS (R118): its number, span start, first object, continues flag and the
filemarks before it, and the object the partition is cut at. -/
structure Cut where
  dataset : Nat
  start : Loc
  first : Nat
  continues : Bool
  filemarks : Nat
  cutAt : Nat
  deriving DecidableEq, Repr

/-- The Position Unit (R103). Tables of the volume are empty lists while they are absent. -/
structure Pu where
  volume : VolumeState
  generation : Option Generation
  header : Option HeaderState
  partitions : List (Nat × Nat)      -- first wrap, last wrap
  policy : List PartitionPolicy
  eod : List (Option EodKnown)
  directory : List PartitionDirectory
  partition : Nat
  object : Nat
  anchor : Option (Nat × Loc)
  scan : Option Scan
  cut : Option Cut                   -- D while it is being settled (R16, R118)
  eodFilemarks : List (Option Nat)   -- filemarks before each partition's EOD, where the PU holds it (R5)
  lastRead : Option (Nat × Nat × Nat × Nat)  -- partition, dataset, end object, filemarks at its end (R95)
  cameFrom : Nat                     -- the partition current before the LOCT in hand (R115, R117)
  deriving DecidableEq, Repr

/-- Cartridge state (R123). -/
inductive Cartridge where
  | empty | seated | threadedUnknown | threading | tensioning | headerRead | ready | unloading | cleaning | ejected
  | faulted
  deriving DecidableEq, Repr

/-- Phase of UNLOADING or CLEANING (R123). -/
inductive Phase where
  | rewind | headerWrite | unthread | run
  deriving DecidableEq, Repr

/-- Motion state (R123). -/
inductive Motion where
  | stopped | settling | accelerating | streaming | decelerating | shuttling
  deriving DecidableEq, Repr

/-- Direction of travel (R123). -/
inductive Travel where
  | forward | reverse
  deriving DecidableEq, Repr

/-- What a shuttle goal is for (R132). -/
inductive ShuttleFor where
  | rwnd | locate | unloadRewind | unloadReturn | backhitch | cleanRewind
  deriving DecidableEq, Repr

/-- The motion goal (R132). `placed`: the shuttle it called for has reached its approach. `trip` is a header trip: a
shuttle wherever the tape stands, then the run-up (R128, R135). A shuttle goal goes to the run-up
point of its target; the run-up point of wrap 0 pitch 0 is the start of wrap 0 (R131). -/
inductive Goal where
  | none
  | runUp (target : Loc) (placed : Bool)
  | trip (target : Loc)
  | streamOn
  | wrapTurn (wrap : Nat)
  | stop
  | shuttle (target : Loc) (purpose : ShuttleFor) (placed : Bool)
  | clean
  deriving DecidableEq, Repr

/-- What TENSIONING leads to (R126). -/
inductive TensionFor where
  | headerRead | clean | rewind
  deriving DecidableEq, Repr

/-- The threader's work while its timer runs (R125, R129, R130). -/
inductive Threader where
  | idle | threading | withdrawing | returning
  deriving DecidableEq, Repr

/-- The Reel and Threader Controller (R123). -/
structure Rtc where
  cartridge : Cartridge
  phase : Option Phase
  typeCode : Option TypeCode
  writeProtect : Option Bool
  attempts : Nat
  motion : Motion
  travel : Option Travel
  speedIndex : Nat
  speed : Nat
  headWrap : Option Nat
  place : Option Nat                 -- tape position, in the position words' scale (R145)
  goal : Goal
  settleTimer : Option Timer
  threadTimer : Option Timer
  tensionTimer : Option Timer
  faultTimer : Option Timer
  windTimer : Option Timer
  remainder : Nat
  loadMetres : Nat
  runMetres : Nat
  armed : Bool                       -- tension monitor (R138)
  stepTo : Option Nat                -- a head step under way
  threader : Threader
  tensionFor : TensionFor
  cleanLength : Nat                  -- held for the run (R141)
  moved : Bool                       -- the tape has moved since the UNLD's rewind (R129)
  deriving DecidableEq, Repr

/-- Timebase state (R144). -/
inductive Timebase where
  | off | acquiring | locked | lost
  deriving DecidableEq, Repr

/-- Write clock (R152). -/
inductive Clock where
  | servo | reference
  deriving DecidableEq, Repr

/-- Tape kind (R147). -/
inductive TapeKind where
  | data | none
  deriving DecidableEq, Repr

/-- A burst's place (R145): a pitch of the head wrap, or a turnaround position. -/
inductive TapePlace where
  | pitch (p : Nat) | turn (word : Nat)
  deriving DecidableEq, Repr

/-- The Servo Unit (R144). -/
structure Sv where
  timebase : Timebase
  runCount : Nat
  missCount : Nat
  speed : Nat
  lastBurst : Option Instant
  lastPlace : Option TapePlace
  lastValid : Bool                   -- the last burst was a valid burst (R148)
  history : List Instant             -- oldest first
  measured : Option Nat
  deviating : Bool
  lateral : Option Int
  inhibit : Bool
  clock : Clock
  kind : TapeKind
  deriving DecidableEq, Repr

/-- Channel state (R156). -/
inductive ChannelState where
  | good | marginal | dead
  deriving DecidableEq, Repr

/-- A channel record (R156). -/
structure Channel where
  state : ChannelState
  n : Nat
  f : Nat
  deadRun : Nat
  lastF : Option Nat
  deriving DecidableEq, Repr

/-- Head state (R161). -/
inductive HeadState where
  | clean | advised | required
  deriving DecidableEq, Repr

/-- The cleaning policy (R163). -/
structure CleaningPolicy where
  tripUp : Nat
  tripDown : Nat
  dead : Nat
  adviseCount : Nat
  requiredCount : Nat
  metreLimit : Nat
  cap : Nat
  length : Nat
  deriving DecidableEq, Repr

/-- The Head Monitor (R156) and its CLEAN_REQ line (R162). A floor of NONE is `clean`. -/
structure Hm where
  channels : Vector Channel 16
  head : HeadState
  floor : HeadState
  metres : Nat
  total : Nat
  cleanings : Nat
  loads : Nat
  armed : Bool
  policy : CleaningPolicy
  cleanReq : Bool
  deriving DecidableEq, Repr

/-- A latch of the Event Unit (R184). -/
structure Latch where
  set : Bool
  count : Nat
  deriving DecidableEq, Repr

/-- The Event Unit (R184) and its ATTN line (R188). -/
structure Eu where
  latches : Vector Latch 32
  mask : BitVec 32
  attn : Bool
  deriving DecidableEq, Repr

/-- A row as the write channels lay it down (R46, 12.2). `row` is `none` for FILLER. -/
structure RowWritten where
  dataset : Nat
  row : Option Nat
  wrap : Nat
  attempt : Nat
  check : BitVec 32
  payload : Cells
  deriving DecidableEq, Repr

/-- What the write channels lay down at a pitch (R46, R51, R57). `cutOff` follows the item at its pitch whose writing
stopped before its end (R63, R64, R65). -/
inductive TapeWrite where
  | rowSet (place : Loc) (rows : List RowWritten)
  | separator (place : Loc)
  | endPattern (place : Loc)
  | cutOff (place : Loc)
  deriving DecidableEq, Repr

/-- THE STATE of the part. `tape` is the trace of what was laid down (log 5), `free` the counter of free values
(log 12), `pending` the commands that wait, first in, first out. -/
structure State where
  spu : Spu
  cu : Cu
  rc : Rc
  rx : Rx
  dbm : Dbm
  wf : Wf
  rdr : Rdr
  sm : Sm
  pu : Pu
  rtc : Rtc
  sv : Sv
  hm : Hm
  eu : Eu
  sensors : Sensors
  tape : List TapeWrite
  free : Nat
  pending : List Instr
  deriving DecidableEq, Repr

/-- Why the part would stop with a fault. It never does: every command of the manual has an effect in every state, so
no constructor stands here and nobody raises one. -/
inductive Fault where
  deriving DecidableEq, Repr

/-- Why a command would be refused by the model. -/
inductive Refusal where
  /-- Raised by Machine/Dispatch.lean for a command whose meaning is not written; safe. No arm raises it now. -/
  | notModelled (mnemonic : String)
  deriving DecidableEq, Repr

/-! ### Reset values -/

/-- R171. -/
def Spu.reset : Spu := { credits := 0, readCredits := 0, linkErrors := 0, out := [] }

/-- R179: the built-in defaults. -/
def RecoveryPolicy.default : RecoveryPolicy :=
  { margin := 6, restartLimit := 2, missLimit := 3, retries := 4, offTrack := 15 }

/-- R175, R55, R179. -/
def Cu.reset : Cu :=
  { queue := [], progress := .none, count := 0, finals := 0, deferred := none, policy := .default }

/-- R21. -/
def Rc.reset : Rc :=
  { history := [], sinceReset := 0, lookahead := [], run := [], record := none, segment := none, resetOwed := true,
    h := 0, s := 0 }

/-- R34. -/
def Rx.reset : Rx :=
  { history := [], sinceReset := 0, entry := 0, offset := 0, object := 0, assembly := none, sending := none, h := 0,
    s := 0 }

/-- R20; the DRAM's contents are left as they are (R1). -/
def Dbm.reset (dram : Memory) : Dbm :=
  { slots := [], drain := 0, direction := .neutral, staging := [], sealTimer := none, recovered := 0, dram := dram }

/-- The tallies at zero. -/
def Tally.zeros : Vector Tally 16 := Vector.replicate 16 { rows := 0, failed := 0 }

/-- R44. -/
def Wf.reset : Wf :=
  { stage := .idle, header := none, writePoint := none, appendPoint := none, spanStart := none, nextSet := 0,
    rewriteSets := 0, planned := false, rowCounts := Vector.replicate 256 0, queue := [], inFlight := none,
    tallies := Tally.zeros, eodPending := false, misses := 0, backhitches := 0, restarts := 0, earlyWarned := [],
    volumeFull := none }

/-- R82. -/
def Rdr.reset : Rdr :=
  { activity := .idle, expected := none, rows := Vector.replicate 256 .absent, copies := [], copy := none,
    opened := none, copyOpen := false, pass := none, blankRun := 0, blankStart := none, unseen := none, resume := none,
    tallies := Tally.zeros, readAhead := false, headerErrors := 0, wanted := false, target := none, alone := false,
    trailerFailed := false }

/-- R79: the built-in default. -/
def SpeedTable.default : SpeedTable :=
  { entries := [(2000, 80), (2800, 120), (3600, 160), (4400, 200), (5200, 240), (6000, 280)], high := 384, low := 32,
    confirm := 2, sealTimeout := 2000, tolerance := 5 }

/-- R67. -/
def Sm.reset : Sm :=
  { window := none, rate := 0, ratio := 256, pending := none, confirmCount := 0, scheduled := none, index := 0,
    zone := .low, compressibility := .incompressible, last := { r := 0, q := 0, nreq := 0, candidate := none, fill := 0 },
    table := .default }

/-- R106: the built-in default. -/
def PartitionPolicy.defaults : List PartitionPolicy := List.replicate 4 { write := .writable, compress := true }

/-- R103. -/
def Pu.reset : Pu :=
  { volume := .none, generation := none, header := none, partitions := [], policy := PartitionPolicy.defaults, eod := [],
    directory := [], partition := 0, object := 0, anchor := none, scan := none, cut := none, eodFilemarks := [],
    lastRead := none, cameFrom := 0 }

/-- R123, after power-on reset, with no cartridge. -/
def Rtc.reset : Rtc :=
  { cartridge := .empty, phase := none, typeCode := none, writeProtect := none, attempts := 0, motion := .stopped,
    travel := none, speedIndex := 0, speed := 2000, headWrap := none, place := none, goal := .none, settleTimer := none,
    threadTimer := none, tensionTimer := none, faultTimer := none, windTimer := none, remainder := 0, loadMetres := 0,
    runMetres := 0, armed := false, stepTo := none, threader := .idle, tensionFor := .headerRead, cleanLength := 0,
    moved := false }

/-- R144. -/
def Sv.reset : Sv :=
  { timebase := .off, runCount := 0, missCount := 0, speed := 2000, lastBurst := none, lastPlace := none,
    lastValid := false, history := [], measured := none, deviating := false, lateral := none, inhibit := false,
    clock := .reference, kind := .none }

/-- A channel GOOD with an empty window (R156). -/
def Channel.fresh : Channel := { state := .good, n := 0, f := 0, deadRun := 0, lastF := none }

/-- R163: the built-in default. -/
def CleaningPolicy.default : CleaningPolicy :=
  { tripUp := 8, tripDown := 2, dead := 128, adviseCount := 1, requiredCount := 4, metreLimit := 100000, cap := 1,
    length := 60 }

/-- R156, after power-on reset. -/
def Hm.reset : Hm :=
  { channels := Vector.replicate 16 .fresh, head := .clean, floor := .clean, metres := 0, total := 0, cleanings := 0,
    loads := 0, armed := true, policy := .default, cleanReq := false }

/-- R184. -/
def Eu.reset : Eu :=
  { latches := Vector.replicate 32 { set := false, count := 0 }, mask := 0xFFFFFFFF, attn := false }

/-- The sensors of an empty drive (log 11). -/
def Sensors.emptyDrive : Sensors := { seated := false, leader := .home, typeCode := .dataA, tab := false }

/-- The part right after power-on reset, the drive empty (log 11): every field at the value its rule states. -/
def State.reset : State :=
  { spu := .reset, cu := .reset, rc := .reset, rx := .reset, dbm := .reset [], wf := .reset, rdr := .reset, sm := .reset,
    pu := .reset, rtc := .reset, sv := .reset, hm := .reset, eu := .reset, sensors := Sensors.emptyDrive, tape := [],
    free := 0, pending := [] }

end Sys2Proof.Machine
end

