-- ==== Sys2Proof/Machine/Ops.lean ====
section
/-!
DEFINITION. Ops.lean: the named operations the meanings are made of: bytes and the DRAM, one block's update, events
and their NOTEs (R185, R188), packets to the Stream Port (R172), completion of queued commands (R175), slots and the
ring (R4), places on tape.
-/
namespace Sys2Proof.Machine

/-! ### Bytes (12_formats_and_layouts.md: least significant byte first) -/

/-- The number a little-endian byte string spells. -/
def leNat : List Byte → Nat
  | [] => 0
  | b :: bs => b.toNat + 256 * leNat bs

/-- `w` bytes of a number, least significant first. -/
def leBytes : Nat → Nat → List Byte
  | 0, _ => []
  | w + 1, n => BitVec.ofNat 8 n :: leBytes w (n / 256)

/-- Four ASCII letters (12_formats_and_layouts.md). -/
def ascii (a b c d : Char) : List Byte := [a, b, c, d].map (fun x => BitVec.ofNat 8 x.toNat)

/-! ### The DRAM (R1, log 6) -/

/-- What an address that is not listed reads as. -/
def unlistedByte : Byte := 0

/-- One byte. -/
def Memory.read : Memory → Nat → Byte
  | [], _ => unlistedByte
  | (k, v) :: m, a => if k = a then v else Memory.read m a

/-- The memory with one byte written, in canonical form. -/
def Memory.write : Memory → Nat → Byte → Memory
  | [], a, b => if b = unlistedByte then [] else [(a, b)]
  | (k, v) :: m, a, b =>
    if a < k then (if b = unlistedByte then (k, v) :: m else (a, b) :: (k, v) :: m)
    else if a = k then (if b = unlistedByte then m else (a, b) :: m)
    else (k, v) :: Memory.write m a b

/-- Bytes written upward from an address. -/
def Memory.writeBytes : Memory → Nat → List Byte → Memory
  | m, _, [] => m
  | m, a, b :: bs => Memory.writeBytes (Memory.write m a b) (a + 1) bs

/-- `n` bytes read upward from an address. -/
def Memory.readBytes (m : Memory) (a : Nat) : Nat → List Byte
  | 0 => []
  | n + 1 => Memory.read m a :: Memory.readBytes m (a + 1) n

/-- Zero bytes written to the addresses `lo` up to `hi - 1`. -/
def Memory.clear (m : Memory) (lo hi : Nat) : Memory := m.filter (fun c => decide (c.1 < lo) || decide (hi ≤ c.1))

/-- The nonzero bytes of the addresses `lo` up to `lo + n - 1`, by their offset from `lo`. -/
def Memory.cells (m : Memory) (lo n : Nat) : Cells :=
  (m.filter (fun c => decide (lo ≤ c.1) && decide (c.1 < lo + n))).map (fun c => (c.1 - lo, c.2))

/-- `n` bytes at `base` replaced by cells given by offset; cells outside them are left out. -/
def Memory.place (m : Memory) (base n : Nat) (cs : Cells) : Memory :=
  (cs.filter (fun c => decide (c.1 < n))).foldl (fun m c => Memory.write m (base + c.1) c.2) (Memory.clear m base (base + n))

/-- Canonical form: addresses strictly rising, no byte listed that an unlisted address reads as. -/
def Memory.wf : Memory → Bool
  | [] => true
  | [(_, v)] => decide (v ≠ unlistedByte)
  | (k, v) :: (k', v') :: m => decide (v ≠ unlistedByte) && decide (k < k') && Memory.wf ((k', v') :: m)

/-! ### One block's update -/

def State.onSpu (s : State) (f : Spu → Spu) : State := { s with spu := f s.spu }
def State.onCu (s : State) (f : Cu → Cu) : State := { s with cu := f s.cu }
def State.onRc (s : State) (f : Rc → Rc) : State := { s with rc := f s.rc }
def State.onRx (s : State) (f : Rx → Rx) : State := { s with rx := f s.rx }
def State.onDbm (s : State) (f : Dbm → Dbm) : State := { s with dbm := f s.dbm }
def State.onWf (s : State) (f : Wf → Wf) : State := { s with wf := f s.wf }
def State.onRdr (s : State) (f : Rdr → Rdr) : State := { s with rdr := f s.rdr }
def State.onSm (s : State) (f : Sm → Sm) : State := { s with sm := f s.sm }
def State.onPu (s : State) (f : Pu → Pu) : State := { s with pu := f s.pu }
def State.onRtc (s : State) (f : Rtc → Rtc) : State := { s with rtc := f s.rtc }
def State.onSv (s : State) (f : Sv → Sv) : State := { s with sv := f s.sv }
def State.onHm (s : State) (f : Hm → Hm) : State := { s with hm := f s.hm }
def State.onEu (s : State) (f : Eu → Eu) : State := { s with eu := f s.eu }
def State.onSensors (s : State) (f : Sensors → Sensors) : State := { s with sensors := f s.sensors }
def State.onTape (s : State) (f : List TapeWrite → List TapeWrite) : State := { s with tape := f s.tape }
def State.setFree (s : State) (n : Nat) : State := { s with free := n }
def State.setPending (s : State) (q : List Instr) : State := { s with pending := q }

/-- The state with `f` done to it when `b` holds. -/
def State.when (s : State) (b : Bool) (f : State → State) : State := if b then f s else s

/-! ### Packets and events -/

/-- A packet handed to the Stream Port Unit (R172). -/
def State.send (s : State) (p : Packet) : State := s.onSpu (fun x => { x with out := x.out ++ [p] })

/-- The number of an event (R184). -/
def Event.num : Event → Fin 32
  | .writeError => 0 | .mediumError => 1 | .dataCheck => 2 | .servoLost => 3 | .speedDeviation => 4
  | .speedChanged => 5 | .backhitch => 6 | .datasetRestart => 7 | .earlyWarning => 8 | .volumeFull => 9
  | .bufferNearFull => 10 | .bufferNearEmpty => 11 | .compressibilityChanged => 12 | .channelMarginal => 13
  | .channelDead => 14 | .cleaningAdvised => 15 | .cleaningRequired => 16 | .cleaningDone => 17
  | .cleaningExpired => 18 | .cartridgeSeated => 19 | .loadFault => 20 | .threadFault => 21 | .tensionFault => 22
  | .headerFault => 23 | .tableCheck => 24 | .protocolError => 25 | .linkError => 26

/-- The mask bit of a latch. -/
def Eu.reported (e : Eu) (i : Fin 32) : Bool := e.mask.getLsbD i.val

/-- The level ATTN must have: a latch is set with its mask bit set (R188). -/
def Eu.attnLevel (e : Eu) : Bool := (List.finRange 32).any (fun i => e.latches[i].set && e.reported i)

/-- ATTN judged again (R188). -/
def Eu.judge (e : Eu) : Eu := { e with attn := e.attnLevel }

/-- An occurrence taken at a latch (R185). -/
def Eu.occur (e : Eu) (i : Fin 32) : Eu :=
  let l := e.latches[i]
  if l.set then { e with latches := e.latches.set i { l with count := satAdd 255 l.count 1 } }
  else ({ e with latches := e.latches.set i { set := true, count := 1 } } : Eu).judge

/-- An occurrence of an event: the latch, and its NOTE when it goes from clear to set with its mask bit set (R185). -/
def State.raise (s : State) (ev : Event) : State :=
  let i := ev.num
  let note := !s.eu.latches[i].set && s.eu.reported i
  (s.onEu (·.occur i)).when note (·.send (.note i.val 1))

/-! ### The command queue -/

/-- The name a queued command is answered by (12.1). -/
def Command.name : Command → List Byte
  | .load => ascii 'L' 'O' 'A' 'D'
  | .unld => ascii 'U' 'N' 'L' 'D'
  | .rwnd => ascii 'R' 'W' 'N' 'D'
  | .loct _ _ => ascii 'L' 'O' 'C' 'T'
  | .spac _ _ => ascii 'S' 'P' 'A' 'C'
  | .wrec _ => ascii 'W' 'R' 'E' 'C'
  | .wfmk _ => ascii 'W' 'F' 'M' 'K'
  | .rrec _ _ => ascii 'R' 'R' 'E' 'C'
  | .sync => ascii 'S' 'Y' 'N' 'C'
  | .eras => ascii 'E' 'R' 'A' 'S'
  | .dpar _ _ => ascii 'D' 'P' 'A' 'R'

/-- The executing command: the head of the queue once it has begun (R175). -/
def State.executing (s : State) : Option Command :=
  match s.cu.queue with
  | q :: _ => if q.begun then some q.command else none
  | [] => none

/-- A WRITE_RECORDS is executing (R17, R180). -/
def State.writingRecords (s : State) : Bool :=
  match s.executing with
  | some (.wrec _) => true
  | _ => false

/-- The early-warning flag a write command completes with, whatever its status: bit 0 while the current partition's flag is
set (R32, R59, log 40). -/
def State.withEarlyFlag (s : State) (q : Queued) (res : Results) : Results :=
  match q.begun, q.command with
  | true, .wrec _ => { res with flags := if s.wf.earlyWarned.contains s.pu.partition then 1 else 0 }
  | true, .wfmk _ => { res with flags := if s.wf.earlyWarned.contains s.pu.partition then 1 else 0 }
  | _, _ => res

/-- The completion of the command at the head: its DONE, the queue without it, credits lapsed when it was a
WRITE_RECORDS (R17, R175). -/
def State.complete (s : State) (code : Code) (res : Results := {}) : State :=
  match s.cu.queue with
  | [] => s
  | q :: rest =>
    let s := s.send (.resp q.tag q.command.name (.done code (s.withEarlyFlag q res) []))
    let s := s.onCu (fun c => { c with queue := rest, progress := .none, count := 0, finals := 0 })
    match q.command with
    | .wrec _ => s.onSpu (fun x => { x with credits := 0 })
    | _ => s

/-- The deferred cause and partition as the result byte carries them (12.1). -/
def Deferred.byte (d : Deferred) : Nat :=
  (match d.cause with | .writeError => 0 | .volumeOverflow => 1 | .tensionFault => 2) + 16 * d.partition

/-- A set deferred write error record reported by the command at the head; the report clears the record and sets the
logical position (R56). -/
def State.reportDeferred (s : State) : State :=
  match s.cu.deferred with
  | none => s
  | some d =>
    let s := s.complete .deferredError { count := d.objects, object := d.first, deferred := d.byte }
    let s := s.onCu (fun c => { c with deferred := none })
    s.onPu (fun p => { p with partition := d.partition, object := d.first, anchor := none })

/-! ### Places on tape -/

/-- Wraps of a generation (00_scope.md 4.5). -/
def Generation.wraps : Generation → Nat | .a => 160 | .b => 208
/-- Pitches per wrap (00_scope.md 4.5). -/
def Generation.pitches : Generation → Nat | .a => 40000 | .b => 48000
/-- Pitches of a directory region (R110). -/
def Generation.region (g : Generation) : Nat := g.pitches / 8
/-- The early-warning zone in pitches (00_scope.md 4.5). -/
def Generation.earlyWarning : Generation → Nat | .a => 40000 | .b => 48000

/-- The generation of the cartridge type (R124). -/
def generationOf : TypeCode → Generation | .dataB => .b | _ => .a

/-- The generation of the cartridge in the drive. -/
def State.generation (s : State) : Generation := generationOf (s.rtc.typeCode.getD .dataA)

/-- Pitches per wrap of the cartridge in the drive. -/
def State.pitches (s : State) : Nat := s.generation.pitches

/-- The first data pitch of a partition by its first wrap (R105). -/
def firstDataPitch (firstWrap : Nat) : Loc := ⟨firstWrap, if firstWrap = 0 then Config.headerZone else 0⟩

/-- The wraps of a partition of the partition table; the whole of wrap 0 for the header's writing. -/
def State.partitionWraps (s : State) (p : Nat) : Nat × Nat := s.pu.partitions.getD p (0, 0)

/-- The last wrap of the current partition. -/
def State.lastWrap (s : State) : Nat := (s.partitionWraps s.pu.partition).2

/-- The pitch after a pitch of a partition: the next of the wrap, pitch 0 of the partition's next wrap, or the partition's end, taken
as the end of its last wrap (R45). -/
def State.afterIn (s : State) (p : Nat) (l : Loc) : Loc :=
  if l.pitch + 1 < s.pitches then ⟨l.wrap, l.pitch + 1⟩
  else if l.wrap < (s.partitionWraps p).2 then ⟨l.wrap + 1, 0⟩
  else ⟨l.wrap, s.pitches⟩

/-- The pitch after a pitch of the current partition (R45). -/
def State.after (s : State) (l : Loc) : Loc := s.afterIn s.pu.partition l

/-- Pitches from a place to the end of its wrap, its own included (R45). -/
def State.remaining (s : State) (l : Loc) : Nat := s.pitches - l.pitch

/-- A place comes before another in the order the serpentine passes them. -/
def Loc.before (a b : Loc) : Bool := decide (a.wrap < b.wrap) || (a.wrap == b.wrap && decide (a.pitch < b.pitch))

/-- The place in the position words' scale of a pitch of a wrap (R145). -/
def wordOf (pitches : Nat) (l : Loc) : Nat :=
  if l.wrap % 2 = 0 then Config.turnaround + l.pitch else Config.turnaround + (pitches - 1 - l.pitch)

/-- The place a position word names on a wrap (R145). -/
def placeOf (pitches wrap word : Nat) : TapePlace :=
  if word < Config.turnaround || Config.turnaround + pitches ≤ word then .turn word
  else if wrap % 2 = 0 then .pitch (word - Config.turnaround)
  else .pitch (pitches - 1 - (word - Config.turnaround))

/-- The turnaround zone at the far end of a wrap, in the direction it travels (R131, R136). -/
def atFarEnd (pitches wrap word : Nat) : Bool :=
  if wrap % 2 = 0 then decide (Config.turnaround + pitches ≤ word) else decide (word < Config.turnaround)

/-! ### Slots and the ring (R4) -/

/-- The number of the slot at a position of the occupied run. -/
def Dbm.number (d : Dbm) (i : Nat) : Nat := (d.drain + i) % Config.slotCount

/-- The take pointer (R4). -/
def Dbm.take (d : Dbm) : Nat := d.number d.slots.length

/-- FREE slots (R18). -/
def Dbm.free (d : Dbm) : Nat := Config.slotCount - d.slots.length

/-- The DRAM address of the slot at a position of the occupied run (R1, log 6). -/
def Dbm.base (d : Dbm) (i : Nat) : Nat := Config.slotBytes * d.number i

/-- How many occupied slots are in a state (R18). -/
def Dbm.countIn (d : Dbm) (st : SlotState) : Nat := (d.slots.filter (fun x => x.state == st)).length

/-- The position in the run of the first slot in a state. -/
def Dbm.find (d : Dbm) (st : SlotState) : Option Nat := d.slots.findIdx? (fun x => x.state == st)

/-- The first slot in a state. -/
def Dbm.slotIn (d : Dbm) (st : SlotState) : Option Slot := d.slots.find? (fun x => x.state == st)

/-- The record of the slot at a position replaced. -/
def Dbm.setSlot (d : Dbm) (i : Nat) (f : Slot → Slot) : Dbm := { d with slots := d.slots.modify i f }

/-- A slot opened at the take pointer (R4). -/
def Dbm.opened (d : Dbm) (x : Slot) : Dbm := { d with slots := d.slots ++ [x] }

/-- The newest slot returned to FREE, the take pointer stepping back (R6, R11). -/
def Dbm.dropNewest (d : Dbm) : Dbm := { d with slots := d.slots.dropLast }

/-- The slot at the drain pointer freed in the normal course (R4). -/
def Dbm.freeOldest (d : Dbm) : Dbm :=
  match d.slots with
  | [] => d
  | _ :: rest => { d with slots := rest, drain := d.number 1 }

/-- A path discarded as a whole: every occupied slot FREE, the drain pointer set to the take pointer (R4). -/
def Dbm.discardAll (d : Dbm) : Dbm := { d with slots := [], drain := d.take }

/-- A slot of the write path. -/
def Slot.onWritePath (x : Slot) : Bool :=
  x.state == .filling || x.state == .sealed || x.state == .writing

/-- The DRAM of the slots changed. -/
def Dbm.onDram (d : Dbm) (f : Memory → Memory) : Dbm := { d with dram := f d.dram }

/-! ### Index entries and trailers in a slot (R1, 12.2) -/

/-- The kind a code names: 5 and above are taken as MIDDLE, as R191 has it for the Record Expander. The model's choice: so they are wherever an
index is read, in a trailer scan (R113, R114) and in the conversion of a truncating write (R16) too (log 71). -/
def EntryKind.ofCode (n : Nat) : EntryKind :=
  if n = 0 then .whole else if n = 1 then .start else if n = 3 then .end_ else if n = 4 then .filemark else .middle

/-- The code of a kind (12.2). -/
def EntryKind.code : EntryKind → Nat
  | .whole => 0 | .start => 1 | .middle => 2 | .end_ => 3 | .filemark => 4

/-- An entry that completes an object (R30). -/
def EntryKind.completes : EntryKind → Bool
  | .whole | .end_ | .filemark => true
  | _ => false

/-- An entry that continues an object begun earlier. -/
def EntryKind.continues : EntryKind → Bool
  | .middle | .end_ => true
  | _ => false

/-- An index entry as it stands in a slot (12.2). -/
structure IndexEntry where
  kind : EntryKind
  reset : Bool
  compressed : Bool
  host : Nat
  stored : Nat
  check : BitVec 32
  deriving DecidableEq, Repr

/-- The 16 bytes of an entry. -/
def IndexEntry.bytes (e : IndexEntry) : List Byte :=
  [BitVec.ofNat 8 e.kind.code, BitVec.ofNat 8 ((if e.reset then 1 else 0) + (if e.compressed then 2 else 0)), 0, 0]
    ++ leBytes 4 e.host ++ leBytes 4 e.stored ++ leBytes 4 e.check.toNat

/-- The offset in a slot of entry `k` (R1). -/
def entryOffset (k : Nat) : Nat := Config.indexTop - 16 * (k + 1)

/-- The entry `k` of the slot at an address. -/
def Memory.entry (m : Memory) (base k : Nat) : IndexEntry :=
  let a := base + entryOffset k
  let flags := m.read (a + 1)
  { kind := .ofCode (m.read a).toNat, reset := flags.getLsbD 0, compressed := flags.getLsbD 1,
    host := leNat (m.readBytes (a + 4) 4), stored := leNat (m.readBytes (a + 8) 4),
    check := BitVec.ofNat 32 (leNat (m.readBytes (a + 12) 4)) }

/-- The first `n` entries of the slot at an address, in order. -/
def Memory.entryList (m : Memory) (base n : Nat) : List IndexEntry := (List.range n).map (m.entry base)

/-- A trailer (12.2). -/
structure Trailer where
  partition : Nat
  continues : Bool
  entries : Nat
  dataset : Nat
  first : Nat
  payload : Nat
  filemarks : Nat
  deriving DecidableEq, Repr

/-- The 64 bytes of a trailer. -/
def Trailer.bytes (t : Trailer) : List Byte :=
  [BitVec.ofNat 8 t.partition, if t.continues then 1 else 0] ++ leBytes 2 t.entries ++ leBytes 4 t.dataset
    ++ leBytes 4 t.first ++ leBytes 4 t.payload ++ leBytes 4 t.filemarks ++ List.replicate 44 0

/-- The trailer of the dataset at an address. -/
def Memory.trailer (m : Memory) (base : Nat) : Trailer :=
  let a := base + Config.indexTop
  { partition := (m.read a).toNat, continues := (m.read (a + 1)).getLsbD 0, entries := leNat (m.readBytes (a + 2) 2),
    dataset := leNat (m.readBytes (a + 4) 4), first := leNat (m.readBytes (a + 8) 4),
    payload := leNat (m.readBytes (a + 12) 4), filemarks := leNat (m.readBytes (a + 16) 4) }

/-- The object each entry of an index belongs to, running from the trailer's first object number (R35, R113). -/
def objectsOf (first : Nat) : List EntryKind → List (Nat × EntryKind)
  | [] => []
  | k :: ks => (first, k) :: objectsOf (if k.completes then first + 1 else first) ks

/-! ### Free values (log 12) -/

/-- The counter of free values advanced; the value it stood at indexes the free value taken. -/
def State.nextFree (s : State) : State := s.setFree (s.free + 1)

end Sys2Proof.Machine
end

