-- ==== Sys2Proof/Machine/Flags.lean ====
section
/-!
DEFINITION. Flags.lean: the checks and conditions every family uses: link, table, header and record checks (R190,
R191), the cleaning run (R173), the permission table (R176), the head state (R161), the fill zone and class (R75, R43).
-/
namespace Sys2Proof.Machine

/-! ### Checks -/

/-- One bit step of the 16-bit CRC, most significant bit first, generator x^16 + x^12 + x^5 + 1 (R190). -/
def crc16Bit (r : BitVec 16) : BitVec 16 := if r.getLsbD 15 then (r <<< 1) ^^^ 0x1021#16 else r <<< 1

/-- One byte taken into the 16-bit CRC. -/
def crc16Byte (r : BitVec 16) (b : Byte) : BitVec 16 :=
  let r := r ^^^ (b.setWidth 16 <<< 8)
  crc16Bit (crc16Bit (crc16Bit (crc16Bit (crc16Bit (crc16Bit (crc16Bit (crc16Bit r)))))))

/-- The link check and the table check (R190): the register starts at FFFFh and is sent without inversion. -/
def crc16 (bs : List Byte) : BitVec 16 := bs.foldl crc16Byte 0xFFFF#16

/-- One bit step of the 32-bit CRC, least significant bit first, generator 04C11DB7h (R191). -/
def crc32Bit (r : BitVec 32) : BitVec 32 := if r.getLsbD 0 then (r >>> 1) ^^^ 0xEDB88320#32 else r >>> 1

/-- One byte taken into the 32-bit CRC. -/
def crc32Byte (r : BitVec 32) (b : Byte) : BitVec 32 :=
  let r := r ^^^ b.setWidth 32
  crc32Bit (crc32Bit (crc32Bit (crc32Bit (crc32Bit (crc32Bit (crc32Bit (crc32Bit r)))))))

/-- Bytes taken into an accumulator of the 32-bit CRC (R31). -/
def crc32Take (r : BitVec 32) (bs : List Byte) : BitVec 32 := bs.foldl crc32Byte r

/-- The accumulator's start: all ones (R31). -/
def crc32Start : BitVec 32 := 0xFFFFFFFF#32

/-- The record check and the row header check (R31, R191). -/
def crc32 (bs : List Byte) : BitVec 32 := ~~~(crc32Take crc32Start bs)

/-- The 12 header bytes the header check covers (12.2). -/
def headerBytes (dataset row wrap attempt : Nat) : List Byte :=
  leBytes 4 dataset ++ leBytes 2 row ++ leBytes 1 wrap ++ leBytes 1 attempt ++ [0, 0, 0, 0]

/-- The header check of a row (R191). -/
def headerCheck (dataset row wrap attempt : Nat) : BitVec 32 := crc32 (headerBytes dataset row wrap attempt)

/-- The row number that marks a FILLER row (12.2). -/
def fillerRow : Nat := 65535

/-- The channel of row 16k + j of nominal set k (R47). -/
def nominalChannel (row : Nat) : Nat := (row % 16 + row / 16) % 16

/-- A row's header is good when read on a channel of a wrap (R85); a row number past 255 that is not FILLER names no
row and is taken as bad (log 32). The model's choice: the check is reckoned with bytes 8 to 11 as 0, whatever was read there, since 12.2 names no
field in them (log 73). -/
def goodHeader (r : RowRead) (channel wrap : Nat) : Bool :=
  let row := r.row.toNat
  r.outcome != .headerBad
    && r.check == headerCheck r.dataset.toNat row r.wrap.toNat r.attempt.toNat
    && r.wrap.toNat == wrap
    && decide (1 ≤ r.attempt.toNat) && decide (r.attempt.toNat ≤ 3)
    && (row == fillerRow || (decide (row < 256) && (r.attempt.toNat != 1 || nominalChannel row == channel)))

/-- The row carries no data (R85). -/
def isFiller (r : RowRead) : Bool := r.row.toNat == fillerRow

/-- The outcome makes a row GOOD (R88). -/
def goodOutcome : RowOutcome → Bool
  | .clean | .corrected _ => true
  | _ => false

/-! ### Permission (R173, R176) -/

/-- A cleaning run is in progress (R173). -/
def Rtc.cleaningRun (r : Rtc) : Bool :=
  r.typeCode == some .cleaning
    && (r.cartridge == .threadedUnknown || r.cartridge == .threading || r.cartridge == .tensioning
      || r.cartridge == .cleaning)

/-- The cartridge state is one in which the head of the queue waits (R175 step 1). -/
def Rtc.unstable (r : Rtc) : Bool :=
  r.cartridge == .threading || r.cartridge == .tensioning || r.cartridge == .headerRead || r.cartridge == .unloading

/-- A cartridge of type UNKNOWN that is being recovered without a command (R128, R176). The model's choice: once its recovery has ended
FAULTED the table's FAULTED row holds and an UNLD is queued, though R176's text refuses it until EJECTED (log 30). -/
def Rtc.unknownRecovering (r : Rtc) : Bool :=
  r.typeCode == some .unknown
    && (r.cartridge == .threadedUnknown || r.cartridge == .tensioning || r.cartridge == .unloading)

/-- The permission table gives Q for a command (R176). -/
def Rtc.permits (r : Rtc) (c : Command) : Bool :=
  if r.cleaningRun || r.unknownRecovering then false
  else match r.cartridge, c with
    | .empty, _ => false
    | .seated, .load => true
    | .seated, .unld => true
    | .seated, _ => false
    | .threadedUnknown, .load => true
    | .threadedUnknown, .unld => true
    | .threadedUnknown, _ => false
    | .threading, _ => true
    | .tensioning, _ => true
    | .headerRead, _ => true
    | .ready, _ => true
    | .unloading, _ => true
    | .cleaning, _ => false
    | .ejected, .unld => true
    | .ejected, _ => false
    | .faulted, .unld => true
    | .faulted, _ => false

/-! ### Head state (R161) -/

/-- How many channels are in a state. -/
def Hm.countOf (h : Hm) (st : ChannelState) : Nat := (h.channels.toList.filter (fun c => c.state == st)).length

/-- The order CLEAN, ADVISED, REQUIRED. -/
def HeadState.rank : HeadState → Nat
  | .clean => 0 | .advised => 1 | .required => 2

/-- The greater of two head states. -/
def HeadState.max (a b : HeadState) : HeadState := if a.rank ≤ b.rank then b else a

/-- The derived state (R161). -/
def Hm.derived (h : Hm) : HeadState :=
  if 1 ≤ h.countOf .dead ∨ h.policy.requiredCount ≤ h.countOf .marginal then .required
  else if h.policy.adviseCount ≤ h.countOf .marginal ∨ h.policy.metreLimit ≤ h.metres then .advised
  else .clean

/-- The head state R161 gives: the greater of the derived state and the floor. -/
def Hm.judged (h : Hm) : HeadState := h.derived.max h.floor

/-! ### Speed matching conditions -/

/-- The fill zone of a fill (R75). -/
def SpeedTable.zoneOf (t : SpeedTable) (f : Nat) : Zone :=
  if t.high ≤ f then .high else if f ≤ t.low then .low else .mid

/-- The class of a smoothed ratio (R43). -/
def classOf (q : Nat) : Compressibility :=
  if q ≤ 287 then .incompressible else if q ≤ 639 then .moderate else .high

/-- The last index of a speed table. -/
def SpeedTable.top (t : SpeedTable) : Nat := t.entries.length - 1

/-- The speed in mm/s of an entry. -/
def SpeedTable.speedOf (t : SpeedTable) (i : Nat) : Nat := (t.entries.getD i (2000, 80)).1

/-! ### Servo conditions -/

/-- The timebase is judged (R147). -/
def State.judged (s : State) : Bool :=
  s.sv.kind == .data && (s.rtc.motion == .accelerating || s.rtc.motion == .streaming)

/-- The expected interval T = 24,000,000 / v microseconds (R144). -/
def Sv.interval (v : Sv) : Instant := ⟨24000000, v.speed⟩

/-- An interval lies within 0.875 T to 1.125 T (R146). -/
def Sv.inWindow (v : Sv) (d : Instant) : Bool :=
  decide (7 * 24000000 * d.den ≤ 8 * v.speed * d.num) && decide (8 * v.speed * d.num ≤ 9 * 24000000 * d.den)

/-- The pitch numbers are known: the Servo Unit is LOCKED (R84, R151). -/
def State.locked (s : State) : Bool := s.sv.timebase == .locked

end Sys2Proof.Machine
end

