-- ==== Sys2Proof/Machine/Operands.lean ====
section
/-!
DEFINITION. Operands.lean: every operand form of the packets (12.1): the parameters of the queued and quick commands
with the ranges of R174, the tables with their lengths, clamps and structural conditions (R79, R106, R164, R169, R179),
and the packet framing of R171 and R190.
-/
namespace Sys2Proof.Machine

/-- A value taken into a range. -/
def clamp (lo hi n : Nat) : Nat := if n < lo then lo else if hi < n then hi else n

/-- The bytes of a parameter list from an offset. -/
def field (bs : List Byte) (at_ w : Nat) : Nat := leNat ((bs.drop at_).take w)

/-- A 32-bit two's complement number. -/
def signed32 (n : Nat) : Int := if n < 2147483648 then n else (n : Int) - 4294967296

/-- The SPAC kind of a code (12.1). -/
def SpaceKind.ofCode : Nat → Option SpaceKind
  | 0 => some .records | 1 => some .filemarks | 2 => some .eod | _ => none

/-! ### Parameters of queued commands: `none` is PARAMETER_INVALID (R174 step 5, R190) -/

/-- A command without parameters. -/
def parseBare (c : Command) (ps : List Byte) : Option Command := if ps.length = 0 then some c else none

/-- LOCT: partition, object. -/
def parseLoct (ps : List Byte) : Option Command :=
  if ps.length = 5 then some (.loct (field ps 0 1) (field ps 1 4)) else none

/-- SPAC: kind, signed count within -65,535..65,535. -/
def parseSpac (ps : List Byte) : Option Command :=
  match SpaceKind.ofCode (field ps 0 1) with
  | none => none
  | some k =>
    let n := signed32 (field ps 1 4)
    if ps.length = 5 ∧ -65535 ≤ n ∧ n ≤ 65535 then some (.spac k n) else none

/-- WREC: count above 0. -/
def parseWrec (ps : List Byte) : Option Command :=
  if ps.length = 2 ∧ field ps 0 2 ≠ 0 then some (.wrec (field ps 0 2)) else none

/-- WFMK: count. -/
def parseWfmk (ps : List Byte) : Option Command :=
  if ps.length = 2 then some (.wfmk (field ps 0 2)) else none

/-- RREC: count above 0, limit 1..1,048,576. -/
def parseRrec (ps : List Byte) : Option Command :=
  if ps.length = 6 ∧ field ps 0 2 ≠ 0 ∧ 1 ≤ field ps 2 4 ∧ field ps 2 4 ≤ Config.maxRecord then
    some (.rrec (field ps 0 2) (field ps 2 4)) else none

/-- DPAR: count and four sizes. -/
def parseDpar (ps : List Byte) : Option Command :=
  if ps.length = 5 then some (.dpar (field ps 0 1) ((ps.drop 1).map BitVec.toNat)) else none

/-- ACKE: the event numbers named, none above 31, at most 32 (R178, R190). -/
def parseAck (ps : List Byte) : Option (List Nat) :=
  match ps with
  | [] => none
  | k :: es =>
    if es.length = k.toNat ∧ k.toNat ≤ 32 ∧ es.all (fun e => decide (e.toNat ≤ 31)) then some (es.map BitVec.toNat)
    else none

/-! ### Tables -/

/-- Lengths of the field bytes of the tables (12.1), with the counts they carry (R179 step 3). -/
def spdtLength (fs : List Byte) : Bool := decide (fs.length = 9 + 4 * field fs 0 1)
def ppolLength (fs : List Byte) : Bool := decide (fs.length = 1 + 2 * field fs 0 1)
def cpolLength (fs : List Byte) : Bool := decide (fs.length = 15)
def rpolLength (fs : List Byte) : Bool := decide (fs.length = 5)
def hrecLength (fs : List Byte) : Bool := decide (fs.length = 17)
def evmkLength (fs : List Byte) : Bool := decide (fs.length = 4)

/-- Entries strictly rising in speed and in user rate (R79 step 3). -/
def risingEntries : List (Nat × Nat) → Bool
  | (a, b) :: (c, d) :: rest => decide (a < c) && decide (b < d) && risingEntries ((c, d) :: rest)
  | _ => true

/-- The speed table a packet carries, clamped; `none` where its structure refuses it (R79). -/
def parseSpdt (fs : List Byte) : Option SpeedTable :=
  let n := field fs 0 1
  let entries := (List.range n).map (fun i =>
    (clamp 1000 6000 (field fs (1 + 4 * i) 2), clamp 20 600 (field fs (3 + 4 * i) 2)))
  let o := 1 + 4 * n
  let high := clamp 2 510 (field fs o 2)
  if 1 ≤ n ∧ n ≤ 8 ∧ risingEntries entries then
    some { entries := entries, high := high, low := clamp 0 (high - 2) (field fs (o + 2) 2),
           confirm := clamp 1 8 (field fs (o + 4) 1), sealTimeout := clamp 100 60000 (field fs (o + 5) 2),
           tolerance := clamp 1 10 (field fs (o + 7) 1) }
  else none

/-- The write policy of a code: above 2 is READ_ONLY (R106). -/
def WritePolicy.ofCode : Nat → WritePolicy
  | 0 => .writable | 1 => .appendOnly | _ => .readOnly

/-- The partition policy a packet carries; records beyond the count take their defaults (R106). -/
def parsePpol (fs : List Byte) : Option (List PartitionPolicy) :=
  let n := field fs 0 1
  if 1 ≤ n ∧ n ≤ 4 then
    some ((List.range 4).map (fun i =>
      if i < n then { write := .ofCode (field fs (1 + 2 * i) 1), compress := decide (field fs (2 + 2 * i) 1 ≠ 0) }
      else { write := .writable, compress := true }))
  else none

/-- The cleaning policy a packet carries, clamped, then checked (R164). -/
def parseCpol (fs : List Byte) : Option CleaningPolicy :=
  let p : CleaningPolicy :=
    { tripUp := clamp 1 256 (field fs 0 2), tripDown := clamp 0 255 (field fs 2 2), dead := clamp 1 256 (field fs 4 2),
      adviseCount := clamp 1 16 (field fs 6 1), requiredCount := clamp 1 16 (field fs 7 1),
      metreLimit := clamp 1000 1000000 (field fs 8 4), cap := clamp 0 7 (field fs 12 1),
      length := clamp 10 500 (field fs 13 2) }
  if p.tripDown < p.tripUp ∧ p.tripUp ≤ p.dead ∧ p.adviseCount ≤ p.requiredCount then some p else none

/-- The recovery policy a packet carries, clamped (R179). -/
def parseRpol (fs : List Byte) : RecoveryPolicy :=
  { margin := clamp 0 12 (field fs 0 1), restartLimit := clamp 0 3 (field fs 1 1), missLimit := clamp 1 5 (field fs 2 1),
    retries := clamp 0 8 (field fs 3 1), offTrack := clamp 5 40 (field fs 4 1) }

/-- A head record as a packet carries it (R168, R169). -/
structure HeadRecord where
  metres : Nat
  total : Nat
  cleanings : Nat
  loads : Nat
  floor : HeadState
  deriving DecidableEq, Repr

/-- The floor a code names (R169). -/
def floorOfCode : Nat → Option HeadState
  | 0 => some .clean | 1 => some .advised | 2 => some .required | _ => none

/-- The head record a packet carries; `none` where R169 step 2 refuses it. -/
def parseHrec (fs : List Byte) : Option HeadRecord :=
  match floorOfCode (field fs 16 1) with
  | none => none
  | some fl =>
    if field fs 0 4 ≤ field fs 4 4 then
      some { metres := field fs 0 4, total := field fs 4 4, cleanings := field fs 8 4, loads := field fs 12 4, floor := fl }
    else none

/-- The event mask a packet carries (R186). -/
def parseEvmk (fs : List Byte) : BitVec 32 := BitVec.ofNat 32 (field fs 0 4)

/-! ### Names and framing -/

/-- The names of the six tables. -/
def nameSpdt : List Byte := ascii 'S' 'P' 'D' 'T'
def namePpol : List Byte := ascii 'P' 'P' 'O' 'L'
def nameCpol : List Byte := ascii 'C' 'P' 'O' 'L'
def nameRpol : List Byte := ascii 'R' 'P' 'O' 'L'
def nameHrec : List Byte := ascii 'H' 'R' 'E' 'C'
def nameEvmk : List Byte := ascii 'E' 'V' 'M' 'K'
/-- The names of the five quick commands (12.1). -/
def nameQsta : List Byte := ascii 'Q' 'S' 'T' 'A'
def nameRpos : List Byte := ascii 'R' 'P' 'O' 'S'
def nameAcke : List Byte := ascii 'A' 'C' 'K' 'E'
def nameAbrt : List Byte := ascii 'A' 'B' 'R' 'T'
def nameRset : List Byte := ascii 'R' 'S' 'E' 'T'

/-- The table names (R179 step 3). -/
def tableNames : List (List Byte) := [nameSpdt, namePpol, nameCpol, nameRpol, nameHrec, nameEvmk]

/-- The sixteen command names (R174 step 1). -/
def commandNames : List (List Byte) :=
  [Command.name .load, Command.name .unld, Command.name .rwnd, Command.name (.loct 0 0), Command.name (.spac .eod 0),
   Command.name (.wrec 0), Command.name (.wfmk 0), Command.name (.rrec 0 0), Command.name .sync, Command.name .eras,
   Command.name (.dpar 0 []), nameQsta, nameRpos, nameAcke, nameAbrt, nameRset]

/-- The table check over the name and the field bytes agrees (R190). -/
def tableCheckGood (name : List Byte) (check : BitVec 16) (fs : List Byte) : Bool := crc16 (name ++ fs) == check

/-- A packet that passes R171: header and link check in place, one of the four inbound kinds, the length its framing
says, and the link check agreeing (12.1, R190). -/
def packetGood (bs : List Byte) : Bool :=
  let len := field bs 2 2
  let n := 4 + len
  decide (bs.length = n + 2) && decide (len ≤ 4104)
    && (field bs 0 1 == 1 || field bs 0 1 == 2 || field bs 0 1 == 3 || field bs 0 1 == 4)
    && (crc16 (bs.take n)).toNat == field bs n 2

end Sys2Proof.Machine
end

