-- ==== Sys2Proof/Machine/Speed.lean ====
section
/-!
DEFINITION. Speed.lean: the Servo Unit's reaction to motion reports (R147, R150), the Speed Matcher (R67 to R81) with
the buffer direction it follows (R68), and the Head Monitor (R156 to R170).
-/
namespace Sys2Proof.Machine

/-! ### The Servo Unit's reports (R150) -/

/-- Every transition out of LOCKED (R148, R150). -/
def Sv.leaveLocked (v : Sv) : Sv :=
  { v with history := [], measured := none, deviating := false, inhibit := false, clock := .reference }

/-- Entry to ACQUIRING with run count 0. -/
def Sv.acquire (v : Sv) : Sv :=
  let v := if v.timebase == .locked then v.leaveLocked else v
  { v with timebase := .acquiring, runCount := 0 }

/-- Entry to LOCKED (R147). -/
def Sv.lock (v : Sv) : Sv :=
  { v with timebase := .locked, missCount := 0, history := [], measured := none, deviating := false, clock := .servo,
           lastValid := true }

/-- Entry to OFF (R150). -/
def Sv.off (v : Sv) : Sv :=
  { v.leaveLocked with timebase := .off, missCount := 0, lastBurst := none, lastPlace := none, lastValid := false,
                       lateral := none }

/-- The start of a streaming acceleration, with its speed; nothing while the tape kind is NONE (R150). -/
def Sv.accelerate (v : Sv) (speed : Nat) : Sv :=
  if v.kind == .none then v
  else { v.acquire with speed := speed, lastBurst := none, lastValid := false }

/-- Streaming reached: LOCKED when the run count stands at 64 (R147). -/
def Sv.streaming (v : Sv) : Sv :=
  if v.timebase == .acquiring && v.runCount == 64 then v.lock else v

/-- A speed change while STREAMING (R150). -/
def Sv.speedChange (v : Sv) (speed : Nat) : Sv :=
  if v.kind == .none || v.timebase == .off then v else { v.acquire with speed := speed }

/-- The streaming speed set while not streaming (R150); a speed change leaves it while the tape kind is NONE. -/
def Sv.speedSet (v : Sv) (speed : Nat) : Sv := { v with speed := speed }

/-- DECELERATING or SHUTTLING: judging suspended (R150). -/
def Sv.suspend (v : Sv) : Sv := if v.timebase == .off then v else v.acquire

/-- The tape kind set; a change to NONE acts as a stop (R147). -/
def Sv.setKind (v : Sv) (k : TapeKind) : Sv :=
  if k == .none && v.kind == .data then { v.off with kind := .none } else { v with kind := k }

/-! ### Buffer direction and the windows (R13, R68) -/

/-- The Speed Matcher when the direction changes to WRITE or READ; `ready`: the cartridge is READY (R68). -/
def Sm.restart (m : Sm) (ready : Bool) : Sm :=
  { m with rate := 0, ratio := 256, zone := .low, pending := none, confirmCount := 0, scheduled := none,
           window := if ready then some 0 else none }

/-- The window timer stopped, the part-window discarded (R68). -/
def Sm.halt (m : Sm) : Sm := { m with window := none, pending := none, confirmCount := 0, scheduled := none }

/-- The buffer direction set, with what its change brings at the Speed Matcher and the window counts (R42, R68). -/
def State.setDirection (s : State) (d : BufferDirection) : State :=
  if s.dbm.direction == d then s
  else
    let s := s.onDbm (fun b => { b with direction := d })
    match d with
    | .neutral => s.onSm Sm.halt
    | _ =>
      let s := s.onSm (·.restart (s.rtc.cartridge == .ready))
      (s.onRc (fun r => { r with h := 0, s := 0 })).onRx (fun r => { r with h := 0, s := 0 })

/-! ### Applying a change (R76, R77) -/

/-- The scheduled index made the index in effect, with SPEED_CHANGED (R76, R77). -/
def State.applyScheduled (s : State) : State :=
  match s.sm.scheduled with
  | none => s
  | some i => (s.onSm (fun m => { m with index := i, scheduled := none })).raise .speedChanged

/-- The index in effect and its speed taken as the streaming speed (R134). -/
def State.takeSpeed (s : State) : State :=
  s.onRtc (fun r => { r with speedIndex := s.sm.index, speed := s.sm.table.speedOf s.sm.index })

/-- A dataset boundary reported to the Speed Matcher (R76): the speed changes without stopping (R134). The model's choice: the goal speed
change of R132 is carried out within the step and leaves the motion goal in hand as it was (log 60). -/
def State.boundary (s : State) : State :=
  match s.sm.scheduled with
  | none => s
  | some _ =>
    let s := s.applyScheduled.takeSpeed
    if s.rtc.motion == .streaming then s.onSv (·.speedChange s.rtc.speed)
    else if s.sv.kind == .none then s else s.onSv (·.speedSet s.rtc.speed)

/-! ### The window (R68 to R75) -/

/-- Stage 3: the ratio sample (R70). -/
def ratioSample (h s q : Nat) : Nat := if s = 0 then q else clamp 256 2048 (256 * h / s)

/-- Stage 6: the slowest entry that carries the required rate (R71). -/
def SpeedTable.candidate (t : SpeedTable) (nreq : Nat) : Nat :=
  (t.entries.findIdx? (fun e => decide (nreq ≤ e.2 * 1000))).getD t.top

/-- Stage 7: the fill correction (R72). -/
def SpeedTable.correct (t : SpeedTable) (d : BufferDirection) (c f : Nat) : Nat :=
  let up := min (c + 1) t.top
  let down := c - 1
  match d, t.zoneOf f with
  | .write, .high => up
  | .write, .low => down
  | .read, .high => down
  | .read, .low => up
  | _, _ => c

/-- The cap index of the cleaning policy, within the speed table in force (R73). -/
def State.capIndex (s : State) : Nat := min s.hm.policy.cap s.sm.table.top

/-- Stage 9: confirm (R74). -/
def Sm.confirm (m : Sm) (c : Nat) : Sm :=
  if c = m.index then { m with pending := none, confirmCount := 0, scheduled := none }
  else
    let m := if m.pending = some c then { m with confirmCount := m.confirmCount + 1 }
      else { m with pending := some c, confirmCount := 1 }
    if m.table.confirm ≤ m.confirmCount then { m with scheduled := some c, pending := none, confirmCount := 0 } else m

/-- Stage 10: the class (R43), then the fill zone (R75). -/
def State.classAndZone (s : State) (f : Nat) : State :=
  let k := classOf s.sm.ratio
  let s := if k = s.sm.compressibility then s
    else (s.onSm (fun m => { m with compressibility := k })).raise .compressibilityChanged
  let z := s.sm.table.zoneOf f
  if z = s.sm.zone then s
  else
    let s := s.onSm (fun m => { m with zone := z })
    match z with
    | .high => s.raise .bufferNearFull
    | .low => s.raise .bufferNearEmpty
    | .mid => s

/-- The fill F: the SEALED count while the direction is WRITE, the READY count while it is READ (R68). -/
def State.fill (s : State) : Nat :=
  match s.dbm.direction with
  | .write => s.dbm.countIn .sealed
  | .read => s.dbm.countIn .ready
  | .neutral => 0

/-- The window counts h and s of the block on the side of the direction (R42). -/
def State.windowCounts (s : State) : Nat × Nat :=
  match s.dbm.direction with
  | .write => (s.rc.h, s.rc.s)
  | .read => (s.rx.h, s.rx.s)
  | .neutral => (0, 0)

/-- The expiry of the window: stages 1 to 10 in order, the counts set to 0, the next window begun (R68 to R75). -/
def State.windowExpires (s : State) : State :=
  let (h, st) := s.windowCounts
  let f := s.fill
  let r := min (h / 200) 1200000
  let rate := (3 * s.sm.rate + r) / 4
  let q := ratioSample h st s.sm.ratio
  let ratio := (3 * s.sm.ratio + q) / 4
  let nreq := ceilDiv (rate * 256) ratio
  let c := s.sm.table.correct s.dbm.direction (s.sm.table.candidate nreq) f
  let c := if s.hm.head == .required then min c s.capIndex else c
  let s := s.onSm (fun m => ({ m with rate := rate, ratio := ratio, window := some 0,
                                      last := { r := r, q := q, nreq := nreq, candidate := some c, fill := f } } : Sm).confirm c)
  let s := s.classAndZone f
  (s.onRc (fun x => { x with h := 0, s := 0 })).onRx (fun x => { x with h := 0, s := 0 })

/-- A speed table installed (R80). -/
def State.installSpdt (s : State) (t : SpeedTable) : State :=
  let s := s.onSm (fun m => { m with table := t, index := 0, scheduled := none, pending := none, confirmCount := 0 })
  let s := s.takeSpeed
  s.onSv (·.speedSet s.rtc.speed)

/-! ### The Head Monitor -/

/-- What the Speed Matcher does at once when the head state becomes REQUIRED, or a policy load lowers the cap while it
is (R73). -/
def State.capSchedule (s : State) : State :=
  let cap := s.capIndex
  s.onSm (fun m =>
    let m := match m.scheduled with
      | some i => if cap < i then { m with scheduled := some cap } else m
      | none => if cap < m.index then { m with scheduled := some cap } else m
    match m.pending with
    | some i => if cap < i then { m with pending := none, confirmCount := 0 } else m
    | none => m)

/-- The head state recomputed (R161): on a change its event is latched, CLEAN_REQ driven (R162) and the Speed Matcher
told (R73). -/
def State.recomputeHead (s : State) : State :=
  let new := s.hm.judged
  if new = s.hm.head then s
  else
    let s := s.onHm (fun h => { h with head := new, cleanReq := new == .required })
    match new with
    | .clean => s
    | .advised => s.raise .cleaningAdvised
    | .required => (s.raise .cleaningRequired).capSchedule

/-- One row joins a channel's open window; the second part is the f of a window it closes (R158). -/
def Channel.join (c : Channel) (failed : Bool) : Channel × Option Nat :=
  let f := if failed then c.f + 1 else c.f
  if c.n + 1 = 256 then ({ c with n := 0, f := 0, lastF := some f }, some f)
  else ({ c with n := c.n + 1, f := f }, none)

/-- Rows of one outcome join a channel's windows, the closed windows' f collected oldest first. -/
def Channel.joinMany (failed : Bool) : Nat → Channel × List Nat → Channel × List Nat
  | 0, r => r
  | k + 1, (c, fs) =>
    let (c, f) := c.join failed
    Channel.joinMany failed k (c, fs ++ f.toList)

/-- A tally's rows for a channel: failed rows first, then passed rows (R158). -/
def Channel.take (c : Channel) (t : Tally) : Channel × List Nat :=
  Channel.joinMany false (t.rows - t.failed) (Channel.joinMany true (min t.failed t.rows) (c, []))

/-- The transition of a channel whose window closed with `f` failed rows, and the event it latches (R159, R160). -/
def Channel.judge (p : CleaningPolicy) (c : Channel) (f : Nat) : Channel × Option Event :=
  let run := if p.dead ≤ f then min 2 (c.deadRun + 1) else 0
  match c.state with
  | .dead => ({ c with deadRun := 2 }, none)
  | st =>
    if run = 2 then ({ c with deadRun := 2, state := .dead }, some .channelDead)
    else
      let c := { c with deadRun := run }
      if st = .good ∧ p.tripUp ≤ f then ({ c with state := .marginal }, some .channelMarginal)
      else if st = .marginal ∧ f ≤ p.tripDown then ({ c with state := .good }, none)
      else (c, none)

/-- A closed window applied to a channel, its event latched (R159, R160). -/
def State.closeWindow (s : State) (ch : Fin 16) (f : Nat) : State :=
  let (c, ev) := Channel.judge s.hm.policy s.hm.channels[ch] f
  let s := s.onHm (fun h => { h with channels := h.channels.set ch c })
  match ev with
  | none => s
  | some e => s.raise e

/-- One channel's part of a tally. -/
def State.takeChannel (ts : Vector Tally 16) (s : State) (ch : Fin 16) : State :=
  let (c, fs) := s.hm.channels[ch].take ts[ch]
  let s := s.onHm (fun h => { h with channels := h.channels.set ch c })
  fs.foldl (fun s f => s.closeWindow ch f) s

/-- A tally taken whole, channel by channel, then the head state recomputed once (R157). -/
def State.takeTally (s : State) (ts : Vector Tally 16) : State :=
  ((List.finRange 16).foldl (State.takeChannel ts) s).recomputeHead

/-- A whole metre of data tape (R167). -/
def State.countMetre (s : State) : State :=
  (s.onHm (fun h => { h with metres := satAdd Config.max32 h.metres 1, total := satAdd Config.max32 h.total 1 })).recomputeHead

/-- A LOAD that reached READY (R167). -/
def State.countLoad (s : State) : State := s.onHm (fun h => { h with loads := satAdd Config.max32 h.loads 1 })

/-- The beginning of a LOAD (R167). -/
def State.loadBegins (s : State) : State := s.onHm (fun h => { h with armed := false })

/-- Cleaning credit (R165). -/
def State.creditCleaning (s : State) : State :=
  let s := s.onHm (fun h => { h with channels := Vector.replicate 16 .fresh, metres := 0,
                                     cleanings := satAdd Config.max32 h.cleanings 1, floor := .clean })
  s.recomputeHead.raise .cleaningDone

/-- A cleaning policy installed (R164); a lowered cap acts at the Speed Matcher at once while REQUIRED (R73). -/
def State.installCpol (s : State) (p : CleaningPolicy) : State :=
  let old := s.hm.policy.cap
  let was := s.hm.head
  let s := (s.onHm (fun h => { h with policy := p })).recomputeHead
  s.when (was == .required && s.hm.head == .required && decide (p.cap < old)) State.capSchedule

/-- A head record installed (R169). -/
def State.installHrec (s : State) (r : HeadRecord) : State :=
  (s.onHm (fun h => { h with metres := r.metres, total := r.total, cleanings := r.cleanings, loads := r.loads,
                             floor := r.floor, armed := false })).recomputeHead

end Sys2Proof.Machine
end

