-- ==== Sys2Proof/Machine/Motion.lean ====
section
/-!
DEFINITION. Motion.lean: the reels, the head stepper and the motion goals of the Reel and Threader Controller
(R131 to R137), and the cartridge state with what follows from it (R147, R68).
-/
namespace Sys2Proof.Machine

/-- The run-up point of a target in the position words' scale (R131); negative before the turnaround zone's edge. -/
def runUpWord (pitches : Nat) (t : Loc) : Int :=
  if t.wrap % 2 = 0 then (Config.turnaround : Int) + t.pitch - Config.runUpPitches
  else (Config.turnaround : Int) + (pitches - 1 - t.pitch) + Config.runUpPitches

/-- The wrap the head stands at, or goes to while a head step is under way (R133). The model's choice: a move is judged by the wrap the
head goes to (log 55). -/
def Rtc.wrapAhead (r : Rtc) : Option Nat := r.stepTo.or r.headWrap

/-- A run-up to a target calls for a shuttle first (R135). -/
def State.needsShuttle (s : State) (t : Loc) : Bool :=
  match s.rtc.wrapAhead, s.rtc.place with
  | some w, some x =>
    let r := runUpWord s.pitches t
    let ahead : Int := if t.wrap % 2 = 0 then r - x else (x : Int) - r
    w != t.wrap || decide (ahead < 0) || decide ((Config.shuttleAhead : Int) < ahead)
  | _, _ => true

/-- The travel of a wrap (00_scope.md 4.5). -/
def travelOf (wrap : Nat) : Travel := if wrap % 2 = 0 then .forward else .reverse

/-- The RTC takes goals (R132). -/
def Rtc.takesGoals (r : Rtc) : Bool :=
  match r.cartridge, r.phase with
  | .headerRead, _ => true
  | .ready, _ => true
  | .unloading, some .rewind => true
  | .unloading, some .headerWrite => true
  | .cleaning, some .run => true
  | .cleaning, some .rewind => true
  | _, _ => false

/-- A deceleration begins (R134). -/
def State.decelerate (s : State) : State :=
  (s.onRtc (fun r => { r with motion := .decelerating })).onSv Sv.suspend

/-- A streaming acceleration begins: the schedule is applied and the speed taken (R77, R134); a Write Formatter that was
repositioning is running up (R62). -/
def State.accelerate (s : State) : State :=
  let s := s.applyScheduled.takeSpeed
  let s := s.onRtc (fun r => { r with motion := .accelerating, travel := r.headWrap.map travelOf, moved := true })
  let s := s.onSv (·.accelerate s.rtc.speed)
  s.onWf (fun w => match w.stage with
    | .runUp t k _ => { w with stage := .runUp t k false }
    | _ => w)

/-- An acceleration that waits for a head step stands STOPPED until the step completes (R133). -/
def State.tryAccelerate (s : State) : State :=
  if s.rtc.stepTo.isSome then s.onRtc (fun r => { r with motion := .stopped }) else s.accelerate

/-- A shuttle begins, with the head step its destination needs (R135). The model's choice: a step under way to another wrap goes there
instead (log 55). -/
def State.beginShuttle (s : State) (t : Loc) : State :=
  let forward := match s.rtc.place with
    | some x => decide ((x : Int) < runUpWord s.pitches t)
    | none => false
  let s := s.onRtc (fun r => { r with motion := .shuttling, travel := some (if forward then .forward else .reverse),
                                      stepTo := if r.wrapAhead = some t.wrap then r.stepTo else some t.wrap, moved := true })
  s.onSv Sv.suspend

/-- What the motion goal does with the tape at rest and the settle timer expired (R133 to R136, R141). The model's choice: a
cleaning run takes its fixed speed and leaves the speed index as it was (log 54). -/
def State.startMotion (s : State) : State :=
  match s.rtc.goal with
  | .runUp t placed => if !placed && s.needsShuttle t then s.beginShuttle t else s.tryAccelerate
  | .trip t => s.beginShuttle t
  | .shuttle t _ false => s.beginShuttle t
  | .wrapTurn _ => s.tryAccelerate
  | .clean =>
    s.onRtc (fun r => { r with motion := .accelerating, travel := some .forward, speed := Config.cleaningSpeed })
  | _ => s.onRtc (fun r => { r with motion := .stopped, goal := .none })

/-- A goal leaves a streaming tape streaming (R132, R135, R136). -/
def State.keepsStreaming (s : State) : Goal → Bool
  | .streamOn => true
  | .wrapTurn _ => true
  | .runUp t _ => !s.needsShuttle t
  | _ => false

/-- A motion goal asked for: it replaces the one in hand (R132). A stop asked for while SETTLING changes no motion: what
waited for the settle timer is withdrawn and the reels rest (R133, log 46). -/
def State.setGoal (s : State) (g : Goal) : State :=
  if !s.rtc.takesGoals then s
  else
    let s := s.onRtc (fun r => { r with goal := g })
    match s.rtc.motion with
    | .stopped => s.startMotion
    | .settling => if g = .stop then s.onRtc (fun r => { r with goal := .none }) else s
    | .decelerating => s
    | .shuttling => s.decelerate
    | .streaming =>
      if s.keepsStreaming g then
        match g with
        | .wrapTurn _ => s
        | _ => s.onRtc (fun r => { r with goal := .streamOn })
      else s.decelerate
    | .accelerating => if s.keepsStreaming g then s else s.decelerate

/-- A resume asked for, which begins from the tape stopped (R62): a tape that streams or accelerates first comes to rest. -/
def State.resumeGoal (s : State) (g : Goal) : State :=
  if s.rtc.takesGoals && (s.rtc.motion == .streaming || s.rtc.motion == .accelerating) then
    (s.onRtc (fun r => { r with goal := g })).decelerate
  else s.setGoal g

/-- A wrap turn asked for (R136); from a tape that does not stream it is a run-up to pitch 0 of the next wrap (log 19). -/
def State.askWrapTurn (s : State) (w : Nat) : State :=
  if s.rtc.motion == .streaming || s.rtc.motion == .accelerating then s.setGoal (.wrapTurn w)
  else s.setGoal (.runUp ⟨w, 0⟩ false)

/-- What a rest of the reels brings besides: a shuttle that has arrived, or the end of tape at a wrap (R135, R136). -/
inductive Arrival where
  | nothing
  | shuttle (why : ShuttleFor)
  | tapeEnd (wrap : Nat)
  deriving DecidableEq, Repr

/-- The reels come to rest (R133): SETTLING with the timer loaded; the head step of a wrap turn begins, and a turn beyond the last wrap of
the generation is not made (R136); what has arrived is given back. -/
def State.rest (s : State) (x : Nat) : State × Arrival :=
  let s := s.onRtc (fun r => { r with motion := .settling, travel := none, place := some x,
                                      settleTimer := some { elapsed := 0, period := Config.settleMs } })
  let s := s.onSv Sv.off
  match s.rtc.goal with
  | .wrapTurn w =>
    if w < s.generation.wraps then (s.onRtc (fun r => { r with stepTo := some w }), .nothing)
    else (s.onRtc (fun r => { r with goal := .none }), .tapeEnd (w - 1))
  | .shuttle _ p true => (s.onRtc (fun r => { r with goal := .none }), .shuttle p)
  | .stop => (s.onRtc (fun r => { r with goal := .none }), .nothing)
  | _ => (s, .nothing)

/-- A shuttle approaches its destination (R135). -/
def State.approach (s : State) : State :=
  (s.onRtc (fun r => { r with goal := match r.goal with
    | .runUp t _ => .runUp t true
    | .trip t => .runUp t true
    | .shuttle t p _ => .shuttle t p true
    | g => g })).decelerate

/-- The settle timer expires (R133). -/
def State.settled (s : State) : State :=
  (s.onRtc (fun r => { r with settleTimer := none, motion := .stopped })).startMotion

/-- A head step completes (R133). In TENSIONING the head wrap is set by TENSIONING_COMPLETE, not before (R123, R126). -/
def State.stepped (s : State) (w : Nat) : State :=
  if s.rtc.cartridge = .tensioning then s.onRtc (fun r => { r with stepTo := none })
  else
    let s := s.onRtc (fun r => { r with stepTo := none, headWrap := some w })
    if s.rtc.motion == .stopped then s.startMotion else s

/-- Acceleration completes (R134): a run-up, or a wrap turn with the head on the wrap it turned to, streams on (R136). -/
def State.streamingReached (s : State) : State :=
  let s := s.onRtc (fun r => { r with motion := .streaming, goal := match r.goal with
    | .runUp _ _ => .streamOn
    | .wrapTurn w => if r.headWrap = some w then .streamOn else .wrapTurn w
    | g => g })
  s.onSv Sv.streaming

/-- The tape is seen in the far turnaround zone with a wrap turn asked for: it decelerates to rest there (R136). -/
def State.turnIfDue (s : State) (word : Nat) : State :=
  match s.rtc.goal, s.rtc.headWrap with
  | .wrapTurn _, some w => if s.rtc.motion == .streaming && atFarEnd s.pitches w word then s.decelerate else s
  | _, _ => s

/-- The tape kind of a cartridge state (R147). -/
def Rtc.tapeKind (r : Rtc) : TapeKind :=
  if r.typeCode == some .dataA || r.typeCode == some .dataB then
    match r.cartridge, r.phase with
    | .headerRead, _ => .data
    | .ready, _ => .data
    | .unloading, some .rewind => .data
    | .unloading, some .headerWrite => .data
    | _, _ => .none
  else .none

/-- The cartridge state and phase set; the tape kind follows (R147), and the window timer stops when the cartridge
leaves READY (R68). -/
def State.setCartridge (s : State) (c : Cartridge) (ph : Option Phase) : State :=
  let was := s.rtc.cartridge
  let s := s.onRtc (fun r => { r with cartridge := c, phase := ph })
  let s := s.onSv (·.setKind s.rtc.tapeKind)
  s.when (was == .ready && c != .ready) (·.onSm Sm.halt)

/-- The volume is no longer held: its state NONE and its tables absent (R103). -/
def State.dropVolume (s : State) : State :=
  s.onPu (fun p => { p with volume := .none, generation := none, header := none, partitions := [], eod := [],
                            directory := [], anchor := none, scan := none, cut := none, eodFilemarks := [],
                            lastRead := none })

/-- The place of the tape made known by a burst (R123, R151). -/
def State.tapeAt (s : State) (word : Nat) : State := s.onRtc (fun r => { r with place := some word })

end Sys2Proof.Machine
end

