-- ==== Sys2Proof/Machine/Compress.lean ====
section
/-!
DEFINITION. Compress.lean: the write side of the dataset buffer: opening, sealing, cutting back and discarding slots
(R5 to R10, R16), write credits (R17), and the Record Compressor (R21 to R33).
-/
namespace Sys2Proof.Machine

/-! ### The FILLING slot -/

/-- The FILLING slot and its position: the newest slot of the run (R4). -/
def Dbm.filling (d : Dbm) : Option (Nat × Slot) :=
  match d.slots.getLast? with
  | some x => if x.state == .filling then some (d.slots.length - 1, x) else none
  | none => none

/-- The FILLING slot's record changed. -/
def State.onFilling (s : State) (f : Slot → Slot) : State :=
  match s.dbm.filling with
  | some (i, _) => s.onDbm (·.setSlot i f)
  | none => s

/-- A dataset number, within the 32 bits for which the manual gives rules (R5, log 15). -/
def datasetNumber (n : Nat) : Nat := if n ≤ Config.max32 then n else Config.freeDatasetNumber n

/-- The number a newly opened FILLING slot gets (R5). -/
def State.nextDataset (s : State) : Nat :=
  match s.dbm.slots.getLast? with
  | some x => datasetNumber (x.dataset + 1)
  | none =>
    match s.pu.eod.getD s.pu.partition none with
    | some e => (match e.last with | some n => datasetNumber (n + 1) | none => 0)
    | none => 0

/-- The Position Unit's count of filemarks before the end of the current partition, as a dataset done, a proven last dataset
or the header gave it; a free value where nothing has (R5, log 12). -/
def State.filemarksAtEnd (s : State) : Nat :=
  (s.pu.eodFilemarks.getD s.pu.partition none).getD (Config.freeFilemarks s.free)

/-- The filemarks before the first object of a newly opened FILLING slot (R5). -/
def State.filemarksBefore (s : State) : Nat :=
  match s.dbm.slots.getLast? with
  | some x => x.filemarksBefore.getD 0 + x.filemarks
  | none => s.filemarksAtEnd

/-- The Record Compressor's history emptied (R23). -/
def Rc.emptyHistory (r : Rc) : Rc := { r with history := [], sinceReset := 0, resetOwed := true }

/-- A FILLING slot opened at the take pointer, which is FREE (R5). -/
def State.openFilling (s : State) : State :=
  let x : Slot :=
    { state := .filling, dataset := s.nextDataset, partition := s.pu.partition, first := some s.pu.object,
      filemarksBefore := some s.filemarksBefore, entries := some 0, payload := some 0, attempt := some 1, passes := none,
      outcome := none, objects := 0, filemarks := 0 }
  let fm := s.filemarksAtEnd
  let known := (s.pu.eodFilemarks.getD s.pu.partition none).isSome || !s.dbm.slots.isEmpty
  let s := s.when (!known) (fun s =>
    (s.onPu (fun p => { p with eodFilemarks := p.eodFilemarks.set p.partition (some fm) })).nextFree)
  (s.onDbm (·.opened x)).onRc Rc.emptyHistory

/-- The FILLING slot, opened now if it can be (R5, R22); `none`: the request waits. -/
def State.ensureFilling (s : State) : Option State :=
  if s.dbm.direction != .write then none
  else if s.dbm.filling.isSome then some s
  else if 0 < s.dbm.free then some s.openFilling
  else none

/-- The seal timer started or restarted with the seal timeout in force (R7). -/
def State.startSealTimer (s : State) : State :=
  s.onDbm (fun d => { d with sealTimer := some { elapsed := 0, period := s.sm.table.sealTimeout } })

/-- The seal timer started if it does not run. -/
def State.ensureSealTimer (s : State) : State := if s.dbm.sealTimer.isSome then s else s.startSealTimer

/-- The room left for tokens of the open segment, its own entry reserved (R27). -/
def Slot.room (x : Slot) : Nat := Config.indexTop - 16 * (x.entries.getD 0 + 1) - x.payload.getD 0

/-- The trailer of a slot (R6). -/
def Slot.trailer (x : Slot) (continues : Bool) : Trailer :=
  { partition := x.partition, continues := continues, entries := x.entries.getD 0, dataset := x.dataset,
    first := x.first.getD 0, payload := x.payload.getD 0, filemarks := x.filemarksBefore.getD 0 }

/-- The FILLING slot sealed: its trailer written, the payload padded with zero bytes, the seal timer stopped; a slot
with no entry returns to FREE instead (R6). -/
def State.sealSlot (s : State) : State :=
  match s.dbm.filling with
  | none => s
  | some (i, x) =>
    if x.entries.getD 0 = 0 then s.onDbm (fun d => { d.dropNewest with sealTimer := none })
    else
      let base := s.dbm.base i
      let continues := (s.dbm.dram.entry base 0).kind.continues
      let dram := s.dbm.dram.writeBytes (base + Config.indexTop) (x.trailer continues).bytes
      let dram := dram.clear (base + x.payload.getD 0) (base + entryOffset (x.entries.getD 0 - 1))
      s.onDbm (fun d => { (d.setSlot i (fun y => { y with state := .sealed })) with dram := dram, sealTimer := none })

/-! ### Tokens and segments -/

/-- How many of the first `fuel` bytes of two streams agree. -/
def matchLength : Nat → List Byte → List Byte → Nat
  | 0, _, _ => 0
  | _, [], _ => 0
  | _, _, [] => 0
  | k + 1, a :: as, b :: bs => if a = b then 1 + matchLength k as bs else 0

/-- The best copy found so far, bettered from distance `d` down to 1; `stream` starts `d` bytes back. A nearer source wins
over a farther one of the same length (R24). -/
def nearerCopy (ahead : List Byte) : Nat → List Byte → Option (Nat × Nat) → Option (Nat × Nat)
  | 0, _, best => best
  | d + 1, stream, best =>
    let l := matchLength 18 ahead stream
    nearerCopy ahead d stream.tail (match best with
      | some (l', _) => if l' ≤ l then some (l, d + 1) else best
      | none => if 3 ≤ l then some (l, d + 1) else none)

/-- The longest copy at the front of the lookahead: the greatest length among 3..18, then the smallest distance; a
source may overlap what it copies (R24). -/
def longestCopy (history : List Byte) (sinceReset : Nat) (ahead : List Byte) : Option (Nat × Nat) :=
  let far := min (min Config.historyBytes sinceReset) history.length
  let front := ahead.take 18
  nearerCopy front far (history.drop (history.length - far) ++ front) none

/-- Bytes joined to a history of at most 2,048 bytes (R23, R36). -/
def joinHistory (history bs : List Byte) : List Byte :=
  let all := history ++ bs
  all.drop (all.length - Config.historyBytes)

/-- A literal run token (R26). -/
def literalToken (bs : List Byte) : List Byte := BitVec.ofNat 8 (bs.length - 1) :: bs

/-- A copy token (R26). -/
def copyToken (l d : Nat) : List Byte :=
  [BitVec.ofNat 8 (128 + 8 * (l - 3) + (d - 1) / 256), BitVec.ofNat 8 ((d - 1) % 256)]

/-- Bytes placed at the payload's end, covering host bytes of the segment (R27). -/
def State.placeBytes (s : State) (stored host : List Byte) : State :=
  match s.dbm.filling with
  | none => s
  | some (i, x) =>
    let at_ := s.dbm.base i + x.payload.getD 0
    let s := s.onDbm (fun d => (d.setSlot i (fun y => { y with payload := some (y.payload.getD 0 + stored.length) })).onDram
      (·.writeBytes at_ stored))
    s.onRc (fun r => { r with segment := r.segment.map (fun g =>
      { g with bytes := g.bytes ++ host, stored := g.stored + stored.length }) })

/-- One index entry placed below those in the slot (R30); an entry that completes an object counts it (R18, R104). -/
def State.putEntry (s : State) (e : IndexEntry) : State :=
  match s.dbm.filling with
  | none => s
  | some (i, x) =>
    let at_ := s.dbm.base i + entryOffset (x.entries.getD 0)
    let n := if e.kind.completes then 1 else 0
    let fm := if e.kind == .filemark then 1 else 0
    let s := s.onDbm (fun d => (d.setSlot i (fun y =>
      { y with entries := some (y.entries.getD 0 + 1), objects := y.objects + n, filemarks := y.filemarks + fm })).onDram
      (·.writeBytes at_ e.bytes))
    let s := s.onRc (fun r => { r with resetOwed := false })
    let s := s.ensureSealTimer
    if e.kind.completes then s.onPu (fun p => { p with object := p.object + 1, anchor := none }) else s

/-- The slot sealed at once when its entry count has reached 4,096 (R30). -/
def State.sealAtLimit (s : State) : State :=
  match s.dbm.filling with
  | some (_, x) => if Config.maxEntries ≤ x.entries.getD 0 then s.sealSlot else s
  | none => s

/-- The pending literal run placed when it fits; the second part says whether it did (R25, R27). -/
def State.flushRun (s : State) : State × Bool :=
  let run := s.rc.run
  match s.dbm.filling with
  | none => (s, false)
  | some (_, x) =>
    if run.isEmpty then (s, true)
    else if run.length + 1 ≤ x.room then
      ((s.placeBytes (literalToken run) run).onRc (fun r => { r with run := [] }), true)
    else (s, false)

/-- The part of the pending run that the room still takes (R28 step 2). -/
def State.placeRunPart (s : State) : State :=
  match s.dbm.filling with
  | none => s
  | some (_, x) =>
    let run := s.rc.run
    let n := if run.length + 1 ≤ x.room then run.length else if 2 ≤ x.room then min run.length (x.room - 1) else 0
    let s := if n = 0 then s else s.placeBytes (literalToken (run.take n)) (run.take n)
    s.onRc (fun r => { r with run := [], lookahead := run.drop n ++ r.lookahead })

/-- The segment in progress closed by a cut, with a START or MIDDLE entry, when a token of it was placed (R28 step 3). -/
def State.closeCut (s : State) : State :=
  match s.rc.segment, s.rc.record with
  | some g, some rec =>
    if g.bytes.isEmpty then s.onRc (fun r => { r with segment := none })
    else
      let e : IndexEntry := { kind := if rec.earlier then .middle else .start, reset := g.reset, compressed := g.compressed,
                              host := g.bytes.length, stored := g.stored, check := 0 }
      (s.putEntry e).onRc (fun r => { r with segment := none, s := r.s + g.stored, record := some { rec with earlier := true } })
  | _, _ => s.onRc (fun r => { r with segment := none })

/-- The segment in progress cut and the slot sealed (R28). -/
def State.cutSegment (s : State) : State := s.placeRunPart.closeCut.sealSlot

/-- The FILLING slot sealed for any cause other than a full slot: the segment in progress is cut first (R6, R28). -/
def State.sealForCause (s : State) : State :=
  if s.dbm.filling.isNone then s
  else if s.rc.segment.isSome then s.cutSegment else s.sealSlot

/-- The compression setting of the current partition (R29). -/
def State.compressOn (s : State) : Bool :=
  (s.pu.policy.getD s.pu.partition { write := .writable, compress := true }).compress

/-- The segment opened, when none is in progress (R21, R29). -/
def State.openSegment (s : State) : State :=
  if s.rc.segment.isSome then s
  else
    match s.dbm.filling with
    | none => s
    | some (_, x) =>
      s.onRc (fun r => { r with segment := some { start := x.payload.getD 0, bytes := [], stored := 0,
                                                  compressed := s.compressOn, reset := r.resetOwed } })

/-- Host bytes encoded: they leave the lookahead and join the history (R23). -/
def Rc.encoded (r : Rc) (n : Nat) : Rc :=
  { r with history := joinHistory r.history (r.lookahead.take n), sinceReset := r.sinceReset + n,
           lookahead := r.lookahead.drop n }

/-- One encoding decision at the front of the lookahead (R24, R25, R27, R29). -/
def State.encodeOne (s : State) : State :=
  let s := s.openSegment
  match s.rc.segment, s.dbm.filling with
  | some g, some (_, x) =>
    if g.compressed then
      match longestCopy s.rc.history s.rc.sinceReset s.rc.lookahead with
      | none =>
        let s := s.onRc (fun r => ({ r with run := r.run ++ r.lookahead.take 1 } : Rc).encoded 1)
        if s.rc.run.length < 128 then s
        else
          let (s, ok) := s.flushRun
          if ok then s else s.cutSegment
      | some (l, d) =>
        let (s, ok) := s.flushRun
        if !ok then s.cutSegment
        else
          match s.dbm.filling with
          | some (_, y) =>
            if 2 ≤ y.room then (s.placeBytes (copyToken l d) (s.rc.lookahead.take l)).onRc (·.encoded l)
            else s.cutSegment
          | none => s
    else if x.room = 0 then s.cutSegment
    else (s.placeBytes (s.rc.lookahead.take 1) (s.rc.lookahead.take 1)).onRc (·.encoded 1)
  | _, _ => s

/-- WRITE_RECORDS completes GOOD when its nth record's last entry has been placed; places beyond the count are emptied
with PROTOCOL_ERROR (R32). -/
def State.recordPlaced (s : State) : State :=
  let s := s.onCu (fun c => { c with count := c.count + 1 })
  match s.executing with
  | some (.wrec n) =>
    if n ≤ s.cu.count then
      let s := if s.dbm.staging.isEmpty then s
        else (s.onDbm (fun d => { d with staging := [] })).raise .protocolError
      s.complete .good { count := s.cu.count }
    else s
  | _ => s

/-- A WHOLE or END segment that did not shrink falls back to raw: its tokens are replaced by its host bytes (R29). -/
def State.rawFallback (s : State) : State :=
  match s.rc.segment, s.dbm.filling with
  | some g, some (i, _) =>
    if g.compressed ∧ g.bytes.length ≤ g.stored then
      let base := s.dbm.base i
      let s := s.onDbm (fun d => (d.setSlot i (fun y => { y with payload := some (g.start + g.bytes.length) })).onDram
        (·.writeBytes (base + g.start) g.bytes))
      s.onRc (fun r => { r with segment := some { g with compressed := false, stored := g.bytes.length } })
    else s
  | _, _ => s

/-- The record ends: its run flushed, its WHOLE or END entry placed with the record check (R29, R30, R31). -/
def State.closeRecord (s : State) : State :=
  let (s, ok) := s.flushRun
  if !ok then s.cutSegment
  else
    let s := s.rawFallback
    match s.rc.segment, s.rc.record with
    | some g, some rec =>
      let e : IndexEntry := { kind := if rec.earlier then .end_ else .whole, reset := g.reset, compressed := g.compressed,
                              host := g.bytes.length, stored := g.stored, check := ~~~rec.acc }
      let s := (s.putEntry e).onRc (fun r => { r with segment := none, record := none, s := r.s + g.stored })
      s.sealAtLimit.recordPlaced
    | _, _ => s.onRc (fun r => { r with record := none })

/-- One step of the Record Compressor's own work; `none` when it can go no further (R22, R27). -/
def State.rcStep (s : State) : Option State :=
  match s.rc.record with
  | none => none
  | some rec =>
    if s.rc.lookahead.isEmpty then
      if rec.final && s.rc.segment.isSome then some s.closeRecord else none
    else if 18 ≤ s.rc.lookahead.length || rec.final then s.ensureFilling.map State.encodeOne
    else none

/-- The Record Compressor runs on while it can. -/
def State.rcRun : Nat → State → State
  | 0, s => s
  | k + 1, s =>
    match s.rcStep with
    | none => s
    | some s' => State.rcRun k s'

/-- The steps one run may take: each encodes a byte, closes a record or seals a slot, and a cut gives back fewer than
150 bytes. -/
def State.rcFuel (s : State) : Nat := 2 * s.rc.lookahead.length + 400

/-- One FILEMARK entry placed, the history emptied before it and the reset owed after it (R23, R27, R32). -/
def State.putFilemark (s : State) : State :=
  let s := s.onRc Rc.emptyHistory
  let s := s.putEntry { kind := .filemark, reset := true, compressed := false, host := 0, stored := 0, check := 0 }
  let s := s.onRc (fun r => { r with resetOwed := true })
  (s.onCu (fun c => { c with count := c.count + 1 })).sealAtLimit

/-- WRITE_FILEMARKS places its entries while slots can be had, and completes at the nth (R32). -/
def State.runFilemarks : Nat → State → State
  | 0, s => s
  | k + 1, s =>
    match s.executing with
    | some (.wfmk n) =>
      if n ≤ s.cu.count then s.complete .good { count := s.cu.count }
      else
        match s.ensureFilling with
        | none => s
        | some s =>
          match s.dbm.filling with
          | some (_, x) =>
            if x.payload.getD 0 + 16 * (x.entries.getD 0 + 1) ≤ Config.indexTop then State.runFilemarks k s.putFilemark
            else State.runFilemarks k s.sealSlot
          | none => s
    | _ => s

/-! ### Credits, places, cut-back -/

/-- Write credits granted, when R17 lets the Stream Port Unit grant: one WCRD with the number granted (R17, R180). -/
def State.grantCredits (s : State) : State :=
  let n := Config.stagingPlaces - (s.dbm.staging.length + s.spu.credits)
  if s.writingRecords && s.cu.progress == .writing && s.dbm.direction == .write && s.cu.deferred.isNone
      && decide (2 < s.dbm.free) && decide (0 < n) then
    (s.onSpu (fun x => { x with credits := x.credits + n })).send (.wcrd n)
  else s

/-- What a change of the slots lets the Stream Port Unit do: a rise of the FREE count, which was `was`, from 2 or fewer to
3 or more lets it grant (R17). -/
def State.grantOnRise (s : State) (was : Nat) : State := if was ≤ 2 then s.grantCredits else s

/-- The FILLING slot sealed, or freed, while a WRITE_RECORDS may be executing (R6, R7, R17). -/
def State.sealNow (s : State) : State := s.sealForCause.grantOnRise s.dbm.free

/-- The incomplete record cut back: its open segment leaves the FILLING slot, the Record Compressor's staging and run
are emptied, the staging places emptied; a slot left with no entry returns to FREE, one that stays FILLING starts a new
history (R8, R33). -/
def State.cutBack (s : State) : State :=
  let start := s.rc.segment.map Segment.start
  let s := match start with
    | some p => s.onFilling (fun y => { y with payload := some p })
    | none => s
  let had := s.rc.record.isSome
  let s := s.onRc (fun r => { r with record := none, segment := none, run := [], lookahead := [] })
  let s := s.onDbm (fun d => { d with staging := [] })
  match s.dbm.filling with
  | some (_, x) =>
    if x.entries.getD 0 = 0 then s.sealSlot
    else if had then s.onRc Rc.emptyHistory else s
  | none => s

/-- WRITE_RECORDS ends with PROTOCOL_ERROR: the event, the cut-back, the completion with the records placed
(R22, R180). -/
def State.protocolEnd (s : State) : State :=
  let s := s.raise .protocolError
  if s.writingRecords then s.cutBack.complete .protocolError { count := s.cu.count } else s

/-- The record in progress, or the one that the next packet begins (R22). -/
def State.recordNow (s : State) : RecordIn :=
  s.rc.record.getD { object := s.pu.object, taken := 0, acc := crc32Start, earlier := false, final := false }

/-- A packet's bytes would carry the record past its greatest length (R22, R180). -/
def State.oversize (s : State) (p : Place) : Bool := decide (Config.maxRecord < s.recordNow.taken + p.data.length)

/-- Segment staging has room for a packet's bytes (R21, R22). -/
def Rc.hasRoom (r : Rc) (p : Place) : Bool :=
  decide (((r.segment.map (fun g => g.bytes.length)).getD 0) + r.run.length + r.lookahead.length + p.data.length ≤ Config.maxRecord)

/-- The Record Compressor may take up the next staging place (R22, R32). One that carries its record past the greatest
length is not copied, so it waits for no room and no slot. -/
def State.canTake (s : State) : Bool :=
  match s.executing, s.dbm.staging with
  | some (.wrec n), p :: _ =>
    s.cu.progress == .writing && s.dbm.direction == .write && decide (s.cu.finals < n)
      && (s.oversize p || ((s.dbm.filling.isSome || decide (0 < s.dbm.free)) && s.rc.hasRoom p))
  | _, _ => false

/-- A place taken into segment staging (R22), which starts the seal timer of the FILLING slot it is taken into (R7). The model's
choice: a packet whose bytes go on past a seal is taken into the slot that was FILLING; in the slot opened for its rest the seal
timer stands still until the next packet or the slot's first entry (log 53). -/
def State.takePlace (s : State) (p : Place) : State :=
  if s.oversize p then s.protocolEnd
  else
    let rec0 := s.recordNow
    let r1 : RecordIn := { rec0 with taken := rec0.taken + p.data.length, acc := crc32Take rec0.acc p.data, final := p.final }
    let s := s.onRc (fun r => { r with record := some r1, lookahead := r.lookahead ++ p.data, h := r.h + p.data.length })
    let s := s.onDbm (fun d => { d with staging := d.staging.drop 1 })
    let s := s.onCu (fun c => { c with finals := if p.final then c.finals + 1 else c.finals })
    match s.ensureFilling with
    | none => s
    | some s =>
      let s := s.startSealTimer
      (State.rcRun s.rcFuel s).grantCredits

/-! ### The write path given up (R10, R55, R56) -/

/-- The objects counted into the write path (R10, R18). -/
def Dbm.writeObjects (d : Dbm) : Nat := ((d.slots.filter Slot.onWritePath).map Slot.objects).sum

/-- A flush waits for the write path (R14, R15), or an ERAS for its mark (R119). -/
def Progress.waitsForWriting : Progress → Bool
  | .flushing | .flushInPlace | .erasing => true
  | _ => false

/-- The executing command reports a deferred write error at the moment it is set (R14, R56). -/
def State.reportIfExecuting (s : State) : State :=
  match s.executing with
  | some (.wrec _) => s.reportDeferred
  | some (.wfmk _) => s.reportDeferred
  | some _ => if s.cu.progress.waitsForWriting then s.reportDeferred else s
  | none => s

/-- The handover of R10 at the Command Unit: the record set, or its count added to (R55). -/
def State.setDeferred (s : State) (cause : DeferredCause) (first objects : Nat) : State :=
  s.onCu (fun c => { c with deferred := some (match c.deferred with
    | some d => { d with objects := min Config.max32 (d.objects + objects) }
    | none => { cause := cause, partition := s.pu.partition, first := first, objects := objects }) })

/-- The write path discarded into the deferred write error record (R10). The result names the first unwritten object, which
is the record's own where it was set already. -/
def State.discardWrite (s : State) (cause : DeferredCause) : State × Nat :=
  let s := s.cutBack
  let n := s.dbm.writeObjects
  let first := match s.dbm.slots.find? Slot.onWritePath with
    | some x => x.first.getD s.pu.object
    | none => s.pu.object
  let s := if s.dbm.slots.any Slot.onWritePath then s.onDbm Dbm.discardAll else s
  let s := s.onDbm (fun d => { d with sealTimer := none })
  let s := (s.when (s.dbm.direction == .write) (·.setDirection .neutral)).setDeferred cause first n
  let first := (s.cu.deferred.map Deferred.first).getD first
  (s.reportIfExecuting, first)

end Sys2Proof.Machine
end

