-- ==== Sys2Proof/Machine/Write.lean ====
section
/-!
DEFINITION. Write.lean: the Write Formatter (R44 to R66), with what the Position Unit does for it: the EOD table and the
directory at a dataset done (R109 to R111), the volume header's contents (12.2) and its unsealing (R58).
-/
namespace Sys2Proof.Machine

/-! ### The Position Unit's records -/

/-- The region number of a place (R110). -/
def Generation.regionOf (g : Generation) (l : Loc) : Nat := 8 * l.wrap + l.pitch / g.region

/-- The dataset number after built-through, 0 when there is none (R111). -/
def nextAfter : Option Nat → Nat
  | some n => n + 1
  | none => 0

/-- A BUILDING partition becomes VALID when its EOD is known and built-through equals its last dataset, or both are none
(R111). -/
def PartitionDirectory.test (d : PartitionDirectory) (e : Option EodKnown) : PartitionDirectory :=
  match e with
  | some k => if d.state = .building ∧ d.through = k.last then { d with state := .valid } else d
  | none => d

/-- The test of R111 made on a partition. -/
def State.testDirectory (s : State) (p : Nat) : State :=
  s.onPu (fun u => { u with directory := u.directory.modify p (·.test (u.eod.getD p none)) })

/-- The EOD record of a partition set, and the directory's test made (R109, R111). -/
def State.setEod (s : State) (p : Nat) (e : EodKnown) : State :=
  (s.onPu (fun u => { u with eod := u.eod.set p (some e) })).testDirectory p

/-- A proven dataset taken into a partition's directory when R111 lets it. -/
def PartitionDirectory.take (d : PartitionDirectory) (e : DirectoryEntry) (done : Bool) : PartitionDirectory :=
  let next := nextAfter d.through
  let takes := e.dataset == next
    && ((d.state == .valid && done) || d.state == .building || (d.state == .invalid && e.dataset == 0))
  if !takes then d
  else
    let fits := match d.entries.getLast? with
      | none => true
      | some l => decide (l.region < e.region) && decide (l.first < e.first)
    { state := if d.state = .invalid then .building else d.state, through := some e.dataset,
      entries := if fits then d.entries ++ [e] else d.entries }

/-- A dataset proven in a partition, with its span start (R111). -/
def State.proveDataset (s : State) (p dataset first filemarks : Nat) (start : Loc) (done : Bool) : State :=
  let e : DirectoryEntry := { region := s.generation.regionOf start, dataset := dataset, first := first, filemarks := filemarks }
  (s.onPu (fun u => { u with directory := u.directory.modify p (·.take e done) })).testDirectory p

/-- The Position Unit's record of a dataset done: EOD table, directory, and the filemarks before the new EOD
(R9, R109, R111). -/
def State.recordDone (s : State) (x : Slot) (start next : Loc) : State :=
  let p := x.partition
  let first := x.first.getD 0
  let fm := x.filemarksBefore.getD 0
  let s := s.setEod p { object := first + x.objects, last := some x.dataset, mark := next, onTape := false }
  let s := s.onPu (fun u => { u with eodFilemarks := u.eodFilemarks.set p (some (fm + x.filemarks)) })
  s.proveDataset p x.dataset first fm start true

/-- A partition's directory cut at dataset D (R112). -/
def PartitionDirectory.cut (d : PartitionDirectory) (n : Nat) : PartitionDirectory :=
  { d with entries := d.entries.filter (fun e => decide (e.dataset < n)),
           through := match d.through with
             | some t => if n ≤ t then (if n = 0 then none else some (n - 1)) else some t
             | none => none }

/-! ### The volume header (12.2, R58) -/

/-- The volume header must first be written OPEN (R58). -/
def Pu.unsealOwed (u : Pu) : Bool := u.header == some .sealed || (u.volume == .blank && u.header.isNone)

/-- The 16 bytes of an EOD record in the header block (12.2). The model's choices: mark on tape is 1 for yes and 0 for no, and known is 1, for
which 12.2 gives a size only, and a record that is not known is 0 in every field (R191, log 59). -/
def eodBytes : Option EodKnown → List Byte
  | some e => leBytes 4 e.object ++ leBytes 4 (e.last.getD Config.max32) ++ leBytes 2 e.mark.wrap ++ leBytes 4 e.mark.pitch
      ++ [if e.onTape then 1 else 0, 1]
  | none => List.replicate 16 0

/-- The 16 bytes of a directory entry in the header block. -/
def DirectoryEntry.bytes (p : Nat) (e : DirectoryEntry) : List Byte :=
  leBytes 1 p ++ leBytes 2 e.region ++ leBytes 4 e.dataset ++ leBytes 4 e.first ++ leBytes 4 e.filemarks ++ [0]

/-- The directory entries of every partition in order. -/
def Pu.entryBytes (u : Pu) : List Byte :=
  ((List.range u.directory.length).flatMap (fun p => ((u.directory.getD p ⟨.invalid, none, []⟩).entries.flatMap (·.bytes p))))

/-- The header block with a header state field (12.2). -/
def State.headerBlock (s : State) (opened : Bool) : List Byte :=
  let u := s.pu
  let n := (u.directory.map (fun d => d.entries.length)).sum
  [if s.generation == .b then 1 else 0, if opened then 1 else 0, BitVec.ofNat 8 u.partitions.length, 0] ++ leBytes 2 n ++ [0, 0]
    ++ (List.range 4).flatMap (fun p => if p < u.partitions.length then
        leBytes 2 (s.partitionWraps p).1 ++ leBytes 2 (s.partitionWraps p).2 else [0, 0, 0, 0])
    ++ (List.range 4).flatMap (fun p => if p < u.partitions.length then eodBytes (u.eod.getD p none) else List.replicate 16 0)
    ++ List.replicate 40 0 ++ u.entryBytes

/-- The header dataset's data area as nonzero bytes: the block, one WHOLE entry with its record check, the trailer. The model's choice:
the entry carries the reset flag, and the trailer's first object number and filemarks before are 0, for which 12.2 gives no value (log 59). -/
def State.headerData (s : State) (opened : Bool) : Memory :=
  let block := s.headerBlock opened
  let e : IndexEntry := { kind := .whole, reset := true, compressed := false, host := block.length, stored := block.length, check := crc32 block }
  let t : Trailer := { partition := 15, continues := false, entries := 1, dataset := 0, first := 0, payload := block.length, filemarks := 0 }
  Memory.writeBytes (Memory.writeBytes (Memory.writeBytes [] 0 block) (entryOffset 0) e.bytes) Config.indexTop t.bytes

/-- A header span's state field (R58, R121, R122). -/
def HeaderFor.opened : HeaderFor → Bool
  | .unseal | .reopen => true
  | .dpar | .seal => false

/-! ### Rows on tape -/

/-- A parity row C2 computes (R46, log 14). -/
def parityCells (area : Cells) (row : Nat) : Cells := Config.freeParityRow area row

/-- The payload of a row of the span being written. -/
def State.rowPayload (s : State) (row : Nat) : Cells :=
  match s.wf.header with
  | some j =>
    let area := s.headerData j.purpose.opened
    if row < 240 then area.cells (row * Config.rowBytes) Config.rowBytes else parityCells area row
  | none => s.dbm.dram.cells (s.dbm.base 0 + row * Config.rowBytes) Config.rowBytes

/-- The dataset number written in row headers. -/
def State.writingDataset (s : State) : Nat :=
  if s.wf.header.isSome then 0 else ((s.dbm.slots.head?.map Slot.dataset).getD 0)

/-- A row laid down on a channel at a pitch (R46). What a FILLER row's payload bytes are is a free value (log 56). -/
def State.traceRow (s : State) (l : Loc) (row : Option Nat) (channel : Nat) : RowWritten :=
  let d := s.writingDataset
  match row with
  | some n =>
    let a := s.wf.rowCounts.toArray.getD n 0
    { dataset := d, row := some n, wrap := l.wrap, attempt := a, check := headerCheck d n l.wrap a, payload := s.rowPayload n }
  | none =>
    { dataset := d, row := none, wrap := l.wrap, attempt := 1, check := headerCheck d fillerRow l.wrap 1,
      payload := Config.freeFiller s.free channel }

/-- A row set laid down: the trace of what each channel writes, in channel order (R46, log 5). -/
def State.traceSet (s : State) (l : Loc) (rows : Vector (Option Nat) 16) : State :=
  (s.onTape (· ++ [.rowSet l (rows.toList.zipIdx.map (fun x => s.traceRow l x.1 x.2))])).nextFree

/-- The plan at the start of an attempt (R46, R52). -/
def Wf.replan (w : Wf) : Wf :=
  { w with nextSet := 0, rewriteSets := 0, planned := true, rowCounts := Vector.replicate 256 0, queue := [],
           inFlight := none }

/-- The span tallies handed to the Head Monitor and set to zero (R53). -/
def State.handTallies (s : State) : State :=
  (s.takeTally s.wf.tallies).onWf (fun w => { w with tallies := Tally.zeros })

/-- Channel c of nominal set k carries row 16k + ((c - k) mod 16) (R47). -/
def nominalRow (k c : Nat) : Nat := 16 * k + (c + 16 - k % 16) % 16

/-- The 16 rows of nominal set k, by channel. -/
def nominalRows (k : Nat) : Vector (Option Nat) 16 := Vector.ofFn (fun c => some (nominalRow k c.val))

/-- The lowest free channel that is not a row's last channel (R50). -/
def freeChannel (free : List Nat) (last : Nat) : Option Nat := free.find? (fun c => c != last)

/-- The placement of a rewrite set (R50): the walk over the queue with the channels still free; the result is the rows
placed with their channels, and the queue left. -/
def placeRewrites : List Nat → List Rewrite → List (Nat × Rewrite) × List Rewrite
  | _, [] => ([], [])
  | free, q :: qs =>
    match freeChannel free q.last with
    | some c =>
      let (placed, left) := placeRewrites (free.filter (· != c)) qs
      ((c, q) :: placed, left)
    | none =>
      let (placed, left) := placeRewrites free qs
      (placed, q :: left)

/-- A row's write count. -/
def Wf.count (w : Wf) (row : Nat) : Nat := w.rowCounts.toArray.getD row 0

/-- Rows counted as written once more (R47, R50). -/
def Wf.countRows (w : Wf) (rows : List Nat) : Wf :=
  { w with rowCounts := rows.foldl (fun v r => v.setIfInBounds r (v.toArray.getD r 0 + 1)) w.rowCounts }

/-- The pitches remaining in the partition from a place (R59). -/
def State.partitionRemaining (s : State) (l : Loc) : Nat := s.remaining l + s.pitches * (s.lastWrap - l.wrap)

/-- Early warning judged at the start of an attempt (R59). -/
def State.judgeEarlyWarning (s : State) (l : Loc) : State :=
  let p := s.pu.partition
  if s.partitionRemaining l ≤ s.generation.earlyWarning ∧ ¬ s.wf.earlyWarned.contains p then
    (s.onWf (fun w => { w with earlyWarned := p :: w.earlyWarned })).raise .earlyWarning
  else s

/-- EOD-mark pending judged at the first row set of a span (R57, log 22). -/
def State.judgePending (s : State) (l : Loc) : State :=
  let set := match s.pu.eod.getD s.pu.partition none with
    | some e => !e.onTape || !e.mark.before l
    | none => true
  s.when set (·.onWf (fun w => { w with eodPending := true }))

/-! ### Where writing goes next (R45, R57, R60, R61, R62) -/

/-- Where an attempt due at a place may begin: there, or at pitch 0 of the next wrap; `none`: the volume is full (R45). -/
def State.attemptAt (s : State) (l : Loc) : Option Loc :=
  if Config.spanPitches ≤ s.remaining l then some l
  else if l.wrap < s.lastWrap then some ⟨l.wrap + 1, 0⟩
  else none

/-- Where an EOD mark due at a place may stand; `none`: the end of the last wrap serves in its place (R57). -/
def State.markAt (s : State) (l : Loc) : Option Loc :=
  if 2 ≤ s.remaining l then some l
  else if l.wrap < s.lastWrap then some ⟨l.wrap + 1, 0⟩
  else none

/-- The append point, or the EOD record's mark position where none is set (R45). -/
def State.appendLoc (s : State) : Loc :=
  s.wf.appendPoint.getD (match s.pu.eod.getD s.pu.partition none with
    | some e => e.mark
    | none => firstDataPitch (s.partitionWraps s.pu.partition).1)

/-- The stage set. -/
def State.stage (s : State) (st : WfStage) : State := s.onWf (fun w => { w with stage := st })

/-- A streaming tape comes to a place by streaming on: the place lies ahead on the head wrap. -/
def State.streamsTo (s : State) (t : Loc) : Bool :=
  s.rtc.motion == .streaming && s.rtc.headWrap == some t.wrap
    && (match s.sv.lastPlace with
        | some (.pitch q) => decide (q < t.pitch) && decide (t.pitch ≤ q + Config.shuttleAhead)
        | _ => false)

/-- A resume: the tape is brought from stopped to a target for some work (R62). After a header span it is taken to the run-up point by a
shuttle, as each header trip is (R58, R135). The resume after a backhitch begins with the acceleration, since the reels rest at its run-up
point (R137). -/
def State.resumeAt (s : State) (t : Loc) (work : WfWork) (repositioning : Bool) (trip : Bool := false) : State :=
  let placed := s.wf.stage == .backhitched && t == s.appendLoc
  let s := s.stage (.runUp t work repositioning)
  if trip then s.setGoal (.trip t) else s.resumeGoal (.runUp t placed)

/-- The tape is stopped and the Write Formatter idle (R54, R57). -/
def State.wfStop (s : State) : State := (s.stage .idle).setGoal .stop

/-- The EOD mark's place reported to the Position Unit, EOD-mark pending cleared; the next pitch to be written is the mark's
first (R44, R57, R109). -/
def State.reportMark (s : State) (l : Loc) (onTape : Bool) : State :=
  let p := s.pu.partition
  let s := s.onWf (fun w => { w with eodPending := false, appendPoint := some l, writePoint := some (p, l) })
  match s.pu.eod.getD p none with
  | some e => s.setEod p { e with mark := l, onTape := onTape }
  | none => s

/-- The tape streams on the wrap before a place at a wrap's first pitch. -/
def State.turnsTo (s : State) (t : Loc) : Bool :=
  s.rtc.motion == .streaming && t.pitch == 0 && s.rtc.headWrap.map (· + 1) == some t.wrap

/-- The mark after a hard write error is attempted once (R54); any other is resumed to (R57, R62). -/
def MarkKind.once : MarkKind → Bool
  | .hardError => true
  | .flush | .volumeFull => false

/-- An EOD mark begun at the append point (R57); one that cannot be written leaves the end of the wrap in its place. A streaming tape comes
to it by streaming on, or by a wrap turn; but the tape is brought to a run-up point for the mark after a hard write error, and after a header
span, `trip` (R54, R58). The model's choices: the activity is RUN_UP, not MARKING, while a tape that streams on or turns the wrap has yet to
reach the mark's first pitch (R44, log 67); and where no mark can be written the place reported is the append point, also where one pitch is
left behind it before the end of the wrap (R57, log 68). -/
def State.beginMark (s : State) (kind : MarkKind) (trip : Bool := false) : State :=
  let a := s.appendLoc
  match s.markAt a with
  | none => (s.reportMark a false).wfStop
  | some t =>
    let streams := !trip && !kind.once
    let s := s.onWf (fun w => { w with writePoint := some (s.pu.partition, t) })
    if streams && s.turnsTo t then (s.stage (.runUp t (.mark kind) false)).askWrapTurn t.wrap
    else if streams && s.streamsTo t then (s.stage (.runUp t (.mark kind) false)).setGoal .streamOn
    else s.resumeAt t (.mark kind) false trip

/-- The filemarks before the first object not on tape: those before the oldest write-path slot's dataset (R5, R10); a record
that is set already keeps the first object it holds. -/
def State.filemarksUnwritten (s : State) : Option Nat :=
  if s.cu.deferred.isSome then none else (s.dbm.slots.find? Slot.onWritePath).bind Slot.filemarksBefore

/-- The EOD record of a partition put back to the first object not on tape, with the filemarks before it where a slot tells
them (R5, R54, R60, R65, R109). -/
def State.putEodBack (s : State) (p : Nat) (filemarks : Option Nat) (f : EodKnown → EodKnown) : State :=
  match s.pu.eod.getD p none with
  | some e =>
    (s.when filemarks.isSome (·.onPu (fun u => { u with eodFilemarks := u.eodFilemarks.set p filemarks }))).setEod p (f e)
  | none => s

/-- The volume full of R60. The model's choice: the volume-full mark, which R60 sets as its step 4, is set at once, so that a write
that begins while the EOD mark of its step 3 is still being reached is refused VOLUME_FULL already (log 62); and the place reported where no
mark is written is the append point (R57, log 68). -/
def State.volumeFull (s : State) : State :=
  let s := s.raise .volumeFull
  let p := s.pu.partition
  let a := s.appendLoc
  let s := s.onWf (fun w => { w with queue := [], inFlight := none, planned := false, volumeFull := some p })
  let fm := s.filemarksUnwritten
  let (s, first) := s.discardWrite .volumeOverflow
  let s := s.putEodBack p fm (fun e => { e with object := first })
  if s.wf.eodPending && decide (2 ≤ s.remaining a) then s.beginMark .volumeFull
  else
    let onTape := !s.wf.eodPending && (match s.pu.eod.getD p none with | some e => e.onTape | none => false)
    (s.reportMark a onTape).wfStop

/-- The backhitch's motion: to the run-up point before the append point (R61, R137). -/
def State.backhitch (s : State) (counted : Bool) : State :=
  (s.stage (.backhitching counted)).setGoal (.shuttle s.appendLoc .backhitch false)

/-- The oldest SEALED slot becomes WRITING, its parity rows computed, its attempt 1 planned (R9, R46). -/
def State.beginSlot (s : State) : State :=
  match s.dbm.slots with
  | x :: _ =>
    if x.state = .sealed then
      let base := s.dbm.base 0
      let area := s.dbm.dram.cells base (240 * Config.rowBytes)
      let dram := (List.range 16).foldl (fun m i =>
        m.place (base + (240 + i) * Config.rowBytes) Config.rowBytes (parityCells area (240 + i))) s.dbm.dram
      let s := s.onDbm (fun d => { (d.setSlot 0 (fun y => { y with state := .writing })) with dram := dram })
      s.onWf (fun w => { w.replan with tallies := Tally.zeros, spanStart := w.appendPoint })
    else s
  | [] => s

/-- The attempt due at a place: on the head wrap, after a wrap turn, or not at all (R45). `between`: the turn is taken
between datasets, so the append point moves with it. -/
def State.attemptNext (s : State) (l : Loc) (between : Bool) : State :=
  match s.attemptAt l with
  | none => s.volumeFull
  | some t =>
    let s := s.onWf (fun w => { w with stage := .span, writePoint := some (s.pu.partition, t),
                                       appendPoint := if between then some t else w.appendPoint })
    if s.rtc.headWrap = some t.wrap then s else s.askWrapTurn t.wrap

/-- The attempt of a WRITING slot started from a tape that must be brought to it (R62), after a header span by a trip (R58). -/
def State.attemptFrom (s : State) (l : Loc) (trip : Bool := false) : State :=
  match s.attemptAt l with
  | none => s.volumeFull
  | some t =>
    (s.resumeAt t .span false trip).onWf (fun w => { w with writePoint := some (s.pu.partition, t), appendPoint := some t })

/-- A header span begun: the tape is brought to wrap 0 pitch 0 by a shuttle (R58, R135). The model's choice: a header attempt
after the first reports the activity REPOSITIONING until the acceleration, as after a servo loss, and HEADER from there (R44,
R58, log 51). -/
def State.beginHeader (s : State) (purpose : HeaderFor) (attempt : Nat) : State :=
  let s := s.onWf (fun w => { w.replan with header := some { purpose := purpose, attempt := attempt }, tallies := Tally.zeros,
                                            writePoint := some (15, ⟨0, 0⟩), spanStart := some ⟨0, 0⟩ })
  (s.stage (.runUp ⟨0, 0⟩ .span (decide (1 < attempt)))).setGoal (.trip ⟨0, 0⟩)

/-- A slot waits to be written and the Write Formatter waits for one (R58, R61). -/
def State.writesNext (s : State) : Bool :=
  s.dbm.direction == .write && (s.wf.stage == .idle || s.wf.stage == .backhitched) && s.wf.header.isNone
    && (s.dbm.slots.head?.map (fun x => x.state == .sealed || x.state == .writing)).getD false

/-- The Write Formatter is told of a SEALED slot: from IDLE or BACKHITCHED it starts, with the header trip first when an
unseal is owed (R6, R58, R61, R62). -/
def State.wfKick (s : State) : State :=
  if s.writesNext then
    if s.pu.unsealOwed then s.beginHeader .unseal 1
    else s.beginSlot.attemptFrom s.appendLoc
  else s

/-! ### Failures and restarts (R49, R52, R54, R58, R63) -/

/-- The volume assumed where no header can be trusted: one partition over all wraps, EOD unknown, directory INVALID
(R120, R121). -/
def State.assumeWhole (s : State) : State :=
  s.onPu (fun u => { u with volume := .headerFault, header := none, partitions := [(0, s.generation.wraps - 1)], eod := [none],
                            directory := [⟨.invalid, none, []⟩], eodFilemarks := [none] })

/-- The tape returned to the start of wrap 0 at the end of HEADER_WRITE (R129). -/
def State.unloadReturn (s : State) : State := (s.stage .idle).setGoal (.shuttle ⟨0, 0⟩ .unloadReturn false)

/-- A header span that exhausted its attempts (R54, R58, R121, R122); its write path, if any, is discarded by the
caller. The model's choice: an unseal that fails sets the header state OPEN also where it was the first header of a BLANK volume, whose
header R120 has absent until a span is done, and no unseal is owed after it; and so it is where the unseal ends by missed resumes beyond the miss
limit (R54, R62) and not by its attempts, also with no row of the header written (log 64). -/
def State.headerFails (s : State) (purpose : HeaderFor) : State :=
  let s := (s.onWf (fun w => { w with header := none, planned := false, misses := 0 })).raise .writeError
  match purpose with
  | .unseal => s.onPu (fun u => { u with header := some .opened })
  | .dpar =>
    let s := (s.assumeWhole.raise .headerFault).wfStop
    match s.executing with
    | some (.dpar _ _) => s.complete .writeError
    | _ => s
  | .seal => (s.raise .headerFault).beginHeader .reopen 1
  | .reopen => s.unloadReturn

/-- A hard write error in the data area, or of the unseal before it, `header`, which has latched WRITE_ERROR (R54, R58). -/
def State.hardErrorData (s : State) (header : Bool) : State :=
  let p := s.pu.partition
  let a := s.appendLoc
  let pending := s.wf.eodPending
  let fm := s.filemarksUnwritten
  let (s, first) := s.discardWrite .writeError
  let s := s.when (!header) (·.raise .writeError)
  let s := s.putEodBack p fm (fun e => { e with object := first, mark := a, onTape := e.onTape && !pending })
  let s := s.onWf (fun w => { w with misses := 0, planned := false })
  if pending then s.beginMark .hardError header else s.wfStop

/-- A hard write error (R54). -/
def State.hardError (s : State) : State :=
  let s := s.onWf (fun w => { w with inFlight := none, queue := [] })
  let s := s.handTallies
  match s.wf.header with
  | some j =>
    let s := s.headerFails j.purpose
    match j.purpose with
    | .unseal => s.hardErrorData true
    | _ => s
  | none => s.hardErrorData false

/-- The attempt number of the dataset being written (R2, R58). -/
def State.attemptNumber (s : State) : Nat :=
  match s.wf.header with
  | some j => j.attempt
  | none => ((s.dbm.slots.head?.bind Slot.attempt).getD 1)

/-- The header attempt restarted at wrap 0 pitch 0 (R52 steps 2 to 5, R58); a header's separator is no boundary (R76). -/
def State.headerRestart (s : State) (j : HeaderJob) : State :=
  let s := s.handTallies
  let s := (s.onWf (fun w => { w with restarts := satAdd Config.max16 w.restarts 1 })).raise .datasetRestart
  s.beginHeader j.purpose (j.attempt + 1)

/-- A restart cause (R52): a hard write error at the limit; otherwise the span is closed with a separator, on the next
pitch or, `lost`, where the repositioning brings the tape. A header attempt that lost the timebase begins again at once
(R58, R63). -/
def State.restartCause (s : State) (lost : Bool) : State :=
  if 1 + s.cu.policy.restartLimit ≤ s.attemptNumber then s.hardError
  else
    let s := s.onWf (fun w => { w with inFlight := none })
    match lost, s.wf.header with
    | false, _ => s.stage (.closing .restart none)
    | true, some j => s.headerRestart j
    | true, none => s.resumeAt ((s.wf.writePoint.map Prod.snd).getD s.appendLoc) (.separator .restart) true

/-- The rest of a restart once its separator is laid (R52 steps 2 to 6), and the new attempt (R45, R58). -/
def State.restartDone (s : State) (next : Loc) : State :=
  match s.wf.header with
  | some j => s.headerRestart j
  | none =>
    let s := s.handTallies
    let s := s.onDbm (·.setSlot 0 (fun y => { y with attempt := y.attempt.map (· + 1) }))
    let s := s.onWf (fun w => { w.replan with restarts := satAdd Config.max16 w.restarts 1 })
    (s.raise .datasetRestart).boundary.attemptNext next false

/-- The plan after a result that does not end the attempt (R51). -/
def State.planNext (s : State) : State :=
  if s.wf.nextSet < 16 then s
  else if s.wf.queue.isEmpty then s.stage (.closing .done none)
  else if 4 ≤ s.wf.rewriteSets then s.restartCause false
  else s

/-- Failing rows of a result, with their channels, go through R49 in increasing row number. -/
def State.failRows (s : State) (failing : List (Nat × Nat)) : State :=
  let ordered := (List.range 256).filterMap (fun r => failing.find? (fun x => x.1 == r))
  if ordered.any (fun x => decide (3 ≤ s.wf.count x.1)) then s.restartCause false
  else
    let s := s.onWf (fun w => { w with inFlight := none,
                                       queue := w.queue ++ ordered.map (fun x => { row := x.1, count := w.count x.1, last := x.2 }) })
    if 16 * (4 - s.wf.rewriteSets) < s.wf.queue.length then s.restartCause false else s.planNext

/-- The rows of a row set with their channels, FILLER left out. -/
def InFlight.placed (f : InFlight) : List (Nat × Nat) :=
  (List.range 16).filterMap (fun c => (f.rows.toArray.getD c none).map (fun r => (r, c)))

/-- The pitch being written: the present pitch, with a row set, separator or mark pattern begun there. A mark's pitch is known by the write
point behind it, in the partition that the write point names (R44), which need not be current any more. -/
def State.beingWritten (s : State) : Option Loc :=
  match s.rtc.headWrap, s.sv.lastPlace with
  | some w, some (.pitch p) =>
    let l : Loc := ⟨w, p⟩
    let writes : Bool := match s.wf.stage with
      | .closing _ (some x) => x == l
      | .marking _ _ _ => s.wf.writePoint.any (fun x => x.2 == s.afterIn x.1 l)
      | _ => s.wf.inFlight.map InFlight.place == some l
    if writes then some l else none
  | _, _ => none

/-- The writing of the present pitch stops before its end (R63, R64, R65, R152). -/
def State.cutOff (s : State) : State :=
  match s.beingWritten with
  | some l => s.onTape (· ++ [.cutOff l])
  | none => s

/-- The off-track inhibit raised while a row set is written: the writing of its remaining rows stops, and every row of it
fails with no result, unscored (R64). -/
def State.inhibitCut (s : State) : State :=
  match s.wf.stage, s.wf.inFlight with
  | .span, some f => s.cutOff.failRows f.placed
  | _, _ => s

/-- A row's read-back fails verify (R48). -/
def fails (margin : Nat) : RowOutcome → Bool
  | .headerBad | .uncorrectable => true
  | .clean => false
  | .corrected k => decide (margin < k)

/-- A row's read-back scored into the span tallies (R53). -/
def scoreRow (ts : Vector Tally 16) (c : Nat) (failed : Bool) : Vector Tally 16 :=
  let t := ts.toArray.getD c { rows := 0, failed := 0 }
  ts.setIfInBounds c { rows := t.rows + 1, failed := if failed then t.failed + 1 else t.failed }

/-- The verify result of the row set in flight (R48, R49, R51, R53). -/
def State.verify (s : State) (os : Vector RowOutcome 16) : State :=
  match s.wf.stage, s.wf.inFlight with
  | .span, some f =>
    let m := s.cu.policy.margin
    let bad (c : Nat) : Bool := fails m (os.toArray.getD c .uncorrectable)
    let s := s.onWf (fun w => { w with inFlight := none,
                                       tallies := f.placed.foldl (fun ts x => scoreRow ts x.2 (bad x.2)) w.tallies })
    s.failRows (f.placed.filter (fun x => bad x.2))
  | _, _ => s

/-! ### Writing at an announced pitch (R46, R51, R57, R62) -/

/-- The next row set of the plan written at a pitch (R46, R47, R50, R51). -/
def State.writeSet (s : State) (l : Loc) : State :=
  let next := (s.wf.writePoint.map Prod.fst).getD s.pu.partition
  if s.wf.nextSet < 16 then
    let rows := nominalRows s.wf.nextSet
    let s := s.onWf (fun w => { (w.countRows (rows.toList.filterMap id)) with
      nextSet := w.nextSet + 1, writePoint := some (next, ⟨l.wrap, l.pitch + 1⟩), inFlight := some { rows := rows, place := l } })
    let s := s.traceSet l rows
    if s.sv.inhibit then s.inhibitCut else s
  else
    let (placed, left) := placeRewrites (List.range 16) s.wf.queue
    let rows : Vector (Option Nat) 16 :=
      placed.foldl (fun v x => v.setIfInBounds x.1 (some x.2.row)) (Vector.replicate 16 none)
    let s := s.onWf (fun w => { (w.countRows (placed.map (fun x => x.2.row))) with
      queue := left, rewriteSets := w.rewriteSets + 1, writePoint := some (next, ⟨l.wrap, l.pitch + 1⟩),
      inFlight := some { rows := rows, place := l } })
    let s := s.traceSet l rows
    if s.sv.inhibit then s.inhibitCut else s

/-- An attempt's first row set at a pitch: the room of R45, early warning (R59) and EOD-mark pending (R57) are judged
there, and the span starts there. A header span lies in its own zone (R58). -/
def State.beginSpan (s : State) (l : Loc) : State :=
  if s.wf.header.isSome then (s.onWf (fun w => { w with spanStart := some l })).writeSet l
  else if Config.spanPitches ≤ s.remaining l then
    let s := (s.judgeEarlyWarning l).judgePending l
    (s.onWf (fun w => { w with spanStart := some l })).writeSet l
  else s.attemptNext l (s.attemptNumber == 1)

/-- A pitch at which the span may begin or go on (R46); a row set still unverified lets the pitch pass (log 18). It is written
at the pitch announced, a position jump included (R151). -/
def State.spanPitch (s : State) (l : Loc) : State :=
  match s.wf.writePoint with
  | some (_, t) =>
    if s.wf.inFlight.isSome || l.wrap != t.wrap then s
    else if s.wf.nextSet ≠ 0 then s.writeSet l
    else s.beginSpan l
  | none => s

/-- A separator laid down at a pitch (R51, R52); it closes the span when its pitch is written. -/
def State.laySeparator (s : State) (kind : CloseKind) (l : Loc) : State :=
  let p := (s.wf.writePoint.map Prod.fst).getD s.pu.partition
  (s.onTape (· ++ [.separator l])).onWf (fun w => { w with stage := .closing kind (some l), writePoint := some (p, s.after l) })

/-- The separator pitch of an abandoned span is behind the tape, which the place announced next shows: the rest of the restart is taken
(R52, log 23). -/
def State.restartWritten (s : State) : State :=
  match s.wf.stage with
  | .closing .restart (some l) => s.restartDone (s.after l)
  | _ => s

/-- A pitch of an EOD mark laid down (R57). -/
def State.layMark (s : State) (kind : MarkKind) (start l : Loc) (laid : Nat) : State :=
  let s := s.onTape (· ++ [.endPattern l])
  s.onWf (fun w => { w with stage := .marking kind start (laid + 1), writePoint := some (s.pu.partition, s.after l) })

/-- The work that waited for its target begins at a pitch (R62). -/
def State.beginWork (s : State) (work : WfWork) (l : Loc) : State :=
  let s := s.onWf (fun w => { w with misses := 0 })
  match work with
  | .span =>
    let p := (s.wf.writePoint.map Prod.fst).getD s.pu.partition
    let s := s.onWf (fun w => { w with stage := .span, writePoint := some (p, l) })
    s.spanPitch l
  | .separator k => s.laySeparator k l
  | .mark k => s.layMark k l l 0

/-- A missed resume (R62): the target is reached and the timebase is not LOCKED. -/
def State.wfMiss (s : State) : State :=
  match s.wf.stage with
  | .runUp t work _ =>
    match work with
    | .mark k =>
      if k.once then s.wfStop
      else
        let s := s.onWf (fun w => { w with misses := w.misses + 1 })
        if s.cu.policy.missLimit < s.wf.misses then s.hardError else s.resumeAt t work true
    | _ =>
      let s := s.onWf (fun w => { w with misses := w.misses + 1 })
      if s.cu.policy.missLimit < s.wf.misses then s.hardError else s.resumeAt t work true
  | _ => s

/-- The work of a resume may begin at an announced pitch at or past its target. A target that was not announced was not reached
LOCKED (R62, R151), so a position jump over it is a missed resume; a separator goes on the first pitch reached LOCKED (R63). -/
def WfWork.mayBegin (work : WfWork) (target l : Loc) : Bool :=
  match work with
  | .separator _ => true
  | _ => l == target

/-- An announced data pitch at the Write Formatter (R62, R151). The new attempt after a restart may begin at the pitch that shows its
separator written, where the timebase is LOCKED still (R45, R76, R78). -/
def State.wfPitch (s : State) (l : Loc) : State :=
  match s.wf.stage with
  | .runUp t work _ =>
    if l.wrap ≠ t.wrap ∨ l.pitch < t.pitch then s
    else if work.mayBegin t l then s.beginWork work l
    else s.wfMiss
  | .span => s.spanPitch l
  | .closing k none => s.laySeparator k l
  | .closing .restart (some _) =>
    let s := s.restartWritten
    s.when (s.locked && s.wf.stage == .span) (·.spanPitch l)
  | .marking k start n => if n < 2 then s.layMark k start l n else s
  | _ => s

/-- A burst that leaves the timebase unlocked at or past the target is a missed resume (R62, log 20). The model's choice: so
it is for a mark due on a tape that streams on unlocked, after a boundary that changed the speed, and for a mark due inside
the transition gap, where R78 says only that none is written: the tape is repositioned to the append point (R57, log 47). -/
def State.wfUnlocked (s : State) (l : Loc) : State :=
  match s.wf.stage with
  | .runUp t _ false =>
    if s.rtc.motion == .streaming && l.wrap == t.wrap && decide (t.pitch ≤ l.pitch) then s.wfMiss else s
  | _ => s

/-- The loss of the timebase at the Write Formatter: what is being written is cut off, and written again or restarted
(R63, R152). A separator is laid again from the pitch it was cut off at, or from the one it was due at, a mark from its first
pitch: that is the write point then (R44). The model's choice: with the activity SPAN and no row set of the attempt written yet nothing is
interrupted, so the tape streams on, the pitches pass unwritten until LOCKED again (R46), and neither a restart nor a reposition is made
(log 70). -/
def State.wfLost (s : State) : State :=
  let s := s.cutOff
  let due := (s.wf.writePoint.map Prod.snd).getD s.appendLoc
  let again (t : Loc) (work : WfWork) : State :=
    (s.onWf (fun w => { w with writePoint := w.writePoint.map (fun x => (x.1, t)) })).resumeAt t work true
  match s.wf.stage with
  | .span => if s.wf.nextSet = 0 then s else s.restartCause true
  | .closing k laid =>
    match s.wf.header, k with
    | some j, .restart => s.headerRestart j
    | some _, .done => s.restartCause true
    | none, k => again (laid.getD due) (.separator k)
  | .marking k start _ => again start (.mark k)
  | _ => s

/-- A tension fault at the Write Formatter (R65). -/
def State.wfTension (s : State) : State :=
  s.onWf (fun w => { w with stage := .idle, header := none, inFlight := none, tallies := Tally.zeros, queue := [],
                            eodPending := false, planned := false })

/-- The Write Formatter has an EOD mark or a header span in hand. -/
def Wf.hasExtra (w : Wf) : Bool :=
  match w.stage with
  | .runUp _ (.mark _) _ => true
  | .marking _ _ _ => true
  | _ => w.header.isSome

/-- Another block takes the tape, or a new write takes the append point: an EOD mark after a failure, and a mark or header
span of a command that was aborted, is given up wherever it stands, the pitch being written cut off (R152, log 25). The tallies of
such a header span are discarded unsent, the model's choice too (R53, log 25). -/
def State.wfYield (s : State) : State :=
  s.when s.wf.hasExtra (fun s => s.cutOff.onWf (fun w =>
    { w with stage := .idle, header := none, inFlight := none, planned := false, queue := [], tallies := Tally.zeros }))

/-! ### A dataset done, an EOD mark written -/

/-- The write path at a boundary with no dataset begun (R51): the next dataset, the flush's end, or a backhitch. -/
def State.wfBoundary (s : State) : State :=
  if (s.dbm.slots.head?.map (fun x => x.state == .sealed)).getD false then
    s.beginSlot.attemptNext s.appendLoc true
  else if s.cu.progress.waitsForWriting && s.dbm.slots.isEmpty then
    if s.wf.eodPending then s.beginMark .flush else s.stage .idle
  else s.backhitch true

/-- The data dataset's separator is written: R9's steps, then R51's. -/
def State.dataDone (s : State) (l : Loc) : State :=
  match s.dbm.slots with
  | x :: _ =>
    let next := s.after l
    let s := s.recordDone x (s.wf.spanStart.getD l) next
    let s := s.handTallies
    let was := s.dbm.free
    let s := s.onDbm Dbm.freeOldest
    let s := s.onWf (fun w => { w with appendPoint := some next, writePoint := some (x.partition, next), misses := 0, planned := false })
    (s.grantOnRise was).boundary.wfBoundary
  | [] => s.stage .idle

/-- The header span's separator is written (R58, R121, R122). After an unseal with nothing to write the tape still goes to the
run-up point before the append point (R58 step 4). -/
def State.headerDone (s : State) (purpose : HeaderFor) : State :=
  let s := s.handTallies
  let s := s.onWf (fun w => { w with header := none, planned := false, misses := 0, stage := .idle })
  match purpose with
  | .unseal =>
    let s := s.onPu (fun u => { u with header := some .opened,
                                       volume := if u.volume = .blank then .formatted else u.volume })
    let s := s.when (s.cu.progress == .erasing) (·.onWf (fun w => { w with eodPending := true }))
    if s.cu.progress.waitsForWriting && s.dbm.slots.isEmpty && s.wf.eodPending then s.beginMark .flush true
    else if s.writesNext then s.beginSlot.attemptFrom s.appendLoc true
    else if s.dbm.direction == .write then s.backhitch false
    else s.setGoal (.shuttle s.appendLoc .backhitch false)
  | .dpar =>
    let s := (s.onPu (fun u => { u with volume := .formatted })).wfStop
    match s.executing with
    | some (.dpar _ _) => s.complete .good
    | _ => s
  | .seal => (s.onPu (fun u => { u with header := some .sealed })).unloadReturn
  | .reopen => s.unloadReturn

/-- The separator pitch of a span is written (R51). -/
def State.separatorWritten (s : State) : State :=
  match s.wf.stage with
  | .closing .done (some l) =>
    match s.wf.header with
    | some j => s.headerDone j.purpose
    | none => s.dataDone l
  | _ => s

/-- The two pitches of the EOD mark are written (R54, R57, R60). The model's choice: a flush's mark that ABORT left no command waiting for is
followed by a backhitch neither counted nor latched (R66, log 61). -/
def State.markWritten (s : State) : State :=
  match s.wf.stage with
  | .marking k start 2 =>
    let s := s.reportMark start true
    match k with
    | .flush =>
      if s.cu.progress.waitsForWriting then s.stage .idle
      else if s.dbm.direction == .write then s.backhitch false
      else s.wfStop
    | _ => s.wfStop
  | _ => s

/-- The Write Formatter is at rest between works: a flush may go on (R57, R61). -/
def Wf.quiet (w : Wf) : Bool := w.header.isNone && (w.stage == .idle || w.stage == .backhitched)

/-- The backhitch's reversal has brought the tape to its run-up point (R61). -/
def State.backhitched (s : State) : State :=
  match s.wf.stage with
  | .backhitching counted =>
    let s := s.stage .backhitched
    if counted then
      (s.onWf (fun w => { w with backhitches := satAdd Config.max16 w.backhitches 1 })).raise .backhitch
    else s
  | _ => s

end Sys2Proof.Machine
end

