-- ==== Sys2Proof/Machine/Volume.lean ====
section
/-!
DEFINITION. Volume.lean: the logical position and the anchor (R104), discarding the read path (R13, R97), the volume set
at load from its header (R105, R108, R110, R120, R191) and the load reaching READY (R127), the partition table of a DPAR
(R121), the cut and the conversion of a truncating write (R16, R118, R119).
-/
namespace Sys2Proof.Machine

/-! ### Position and EOD -/

/-- The EOD record of a partition, where it is known (R108). -/
def State.eodOf (s : State) (p : Nat) : Option EodKnown := s.pu.eod.getD p none

/-- The EOD record of the current partition. -/
def State.eodHere (s : State) : Option EodKnown := s.eodOf s.pu.partition

/-- The anchor at a partition's EOD: the last dataset plus 1, or 0, with the mark position (R115 step 1). -/
def EodKnown.anchor (e : EodKnown) : Nat × Loc := (nextAfter e.last, e.mark)

/-- The filemarks before a partition's EOD learned from its last dataset, where no table holds them (R5, log 12). -/
def State.learnFilemarks (s : State) (p dataset filemarks : Nat) : State :=
  let last := (s.eodOf p).bind EodKnown.last
  let held := (s.pu.eodFilemarks.getD p none).isSome
  s.when (last == some dataset && !held)
    (·.onPu (fun u => { u with eodFilemarks := u.eodFilemarks.set p (some filemarks) }))

/-- The logical position and the anchor set (R104). -/
def State.setPosition (s : State) (object : Nat) (anchor : Option (Nat × Loc)) : State :=
  s.onPu (fun u => { u with object := object, anchor := anchor })

/-- The logical position one above after a record delivered or a filemark consumed (R104). -/
def State.advancePosition (s : State) : State := s.setPosition (s.pu.object + 1) none

/-- The logical position lies below the current partition's EOD, as far as the EOD is known. -/
def State.belowEod (s : State) (unknown : Bool) : Bool :=
  match s.eodHere with
  | some e => decide (s.pu.object < e.object)
  | none => unknown

/-- The volume-full mark cleared by a LOCT, SPAC or RWND that leaves the position below EOD (R60). `unknown`: what the
command itself showed where the EOD is not known. The model's choice: the EOD that counts is that of the partition current
after the command, also where the mark names another (log 44). -/
def State.clearFullMark (s : State) (unknown : Bool) : State :=
  s.when (s.belowEod unknown) (·.onWf (fun w => { w with volumeFull := none }))

/-! ### The read path discarded (R13, R19, R97) -/

/-- The Record Expander gives up its slot (R34). -/
def Rx.giveUp (x : Rx) : Rx :=
  { x with history := [], sinceReset := 0, entry := 0, offset := 0, object := 0, assembly := none, sending := none }

/-- The row map, copies, current copy and pass as they are when no slot is LOADING (R82). -/
def Rdr.emptyMap (r : Rdr) : Rdr :=
  { r with rows := Vector.replicate 256 .absent, copies := [], copy := none, opened := none, copyOpen := false,
           pass := none, trailerFailed := false }

/-- The Reader stopped: IDLE, read-ahead OFF, its tallies discarded; the header-error count is kept (R97). The model's choice: the
expected dataset and the resume point become absent (log 49). -/
def Rdr.stopped (r : Rdr) : Rdr :=
  { Rdr.emptyMap r with activity := .idle, expected := none, blankRun := 0, blankStart := none, unseen := none, resume := none,
                        tallies := Tally.zeros, readAhead := false, wanted := false, target := none, alone := false }

/-- The Reader has the tape in motion. -/
def Rdr.moving (r : Rdr) : Bool := r.activity == .seeking || r.activity == .capturing || r.activity == .repositioning

/-- The Reader stopped wherever it stands, and its tape with it; a LOADING slot is freed (R97). -/
def State.stopReader (s : State) : State :=
  let moving := s.rdr.moving
  let loading := (s.dbm.slots.getLast?.map (fun x => x.state == .loading)).getD false
  let s := s.when loading (·.onDbm Dbm.dropNewest)
  let s := s.onRdr Rdr.stopped
  s.when moving (·.setGoal .stop)

/-- The read path discarded as a whole: every slot of it FREE, Reader and Record Expander stopped (R13). -/
def State.discardRead (s : State) : State :=
  if s.dbm.direction == .read then (((s.onDbm Dbm.discardAll).onRx Rx.giveUp).stopReader) else s

/-- The read path discarded and the direction set NEUTRAL; a direction WRITE stays (R13). -/
def State.leaveRead (s : State) : State :=
  if s.dbm.direction == .read then s.discardRead.setDirection .neutral else s

/-! ### The volume header read at load (R105, R110, R120, R191) -/

/-- The wraps of one partition satisfy R105 from a first wrap it must begin at. -/
def partitionOk (from_ : Nat) (p : Nat × Nat) : Bool :=
  p.1 == from_ && p.1 % 2 == 0 && p.2 % 2 == 1 && decide (p.1 + 3 ≤ p.2)

/-- The partition table satisfies R105: partition 0 at wrap 0, two guard wraps between, all within the wraps. -/
def partitionsOk (wraps : Nat) : Nat → List (Nat × Nat) → Bool
  | _, [] => true
  | from_, p :: ps => partitionOk from_ p && decide (p.2 < wraps) && partitionsOk wraps (p.2 + 3) ps

/-- Entries of one partition rise strictly in region, dataset and first object (R110). -/
def entriesRise : List DirectoryEntry → Bool
  | a :: b :: rest => decide (a.region < b.region) && decide (a.dataset < b.dataset) && decide (a.first < b.first) && entriesRise (b :: rest)
  | _ => true

/-- Partition numbers do not fall. -/
def partitionsRise : List Nat → Bool
  | a :: b :: rest => decide (a ≤ b) && partitionsRise (b :: rest)
  | _ => true

/-- A little-endian field of the header block. -/
def blockField (m : Memory) (base at_ w : Nat) : Nat := leNat (m.readBytes (base + at_) w)

/-- The EOD record of a partition in the block; its second part is the known byte. The model's choice: any mark-on-tape byte but 0 is yes
(12.2, R191, log 59). -/
def blockEod (m : Memory) (base p : Nat) : EodKnown × Bool :=
  let o := 24 + 16 * p
  let last := blockField m base (o + 4) 4
  ({ object := blockField m base o 4, last := if last = Config.max32 then none else some last,
     mark := ⟨blockField m base (o + 8) 2, blockField m base (o + 10) 4⟩, onTape := blockField m base (o + 14) 1 != 0 },
   blockField m base (o + 15) 1 != 0)

/-- A directory entry of the block with its partition. -/
def blockEntry (m : Memory) (base i : Nat) : Nat × DirectoryEntry :=
  let o := 128 + 16 * i
  (blockField m base o 1, { region := blockField m base (o + 1) 2, dataset := blockField m base (o + 3) 4,
                            first := blockField m base (o + 7) 4, filemarks := blockField m base (o + 11) 4 })

/-- The tables of a corrected header, or `none` where a further condition of R120 or R191 fails: generation, block check,
partition table, known bytes, the order of the entries (R105, R110). The model's choice: a header state byte above 1 is OPEN, an entry
of a partition at or beyond the count fails the order, and a count of entries above 1,664 fails, for either generation (log 59). -/
def readHeader (m : Memory) (base : Nat) (g : Generation) :
    Option (HeaderState × List (Nat × Nat) × List EodKnown × List (Nat × DirectoryEntry)) :=
  let n := blockField m base 4 2
  let count := blockField m base 2 1
  let check := (m.entry base 0).check
  let partitions := (List.range count).map (fun p => (blockField m base (8 + 4 * p) 2, blockField m base (10 + 4 * p) 2))
  let eods := (List.range count).map (blockEod m base)
  let entries := (List.range n).map (blockEntry m base)
  let ofPartition (p : Nat) : List DirectoryEntry := (entries.filter (fun e => e.1 == p)).map Prod.snd
  if blockField m base 0 1 = (if g = .b then 1 else 0) ∧ n ≤ 1664 ∧ 1 ≤ count ∧ count ≤ 4
      ∧ crc32 (m.readBytes base (128 + 16 * n)) = check
      ∧ partitionsOk g.wraps 0 partitions ∧ eods.all Prod.snd
      ∧ partitionsRise (entries.map Prod.fst) ∧ entries.all (fun e => decide (e.1 < count))
      ∧ (List.range count).all (fun p => entriesRise (ofPartition p)) then
    some (if blockField m base 1 1 = 0 then .sealed else .opened, partitions, eods.map Prod.fst, entries)
  else none

/-- What the header read gave (R100). -/
inductive HeaderResult where
  | corrected | blank | uncorrectable
  deriving DecidableEq, Repr

/-- The EOD record of an empty partition (R108). -/
def EodKnown.empty (firstWrap : Nat) : EodKnown :=
  { object := 0, last := none, mark := firstDataPitch firstWrap, onTape := false }

/-- The volume set by the header read's result (R120); HEADER_FAULT is latched when the volume becomes HEADER_FAULT. -/
def State.setVolume (s : State) (r : HeaderResult) : State :=
  let g := s.generation
  let s := s.onPu (fun u => { u with generation := some g, partition := 0, object := 0, anchor := some (0, ⟨0, Config.headerZone⟩),
                                     scan := none, cut := none, lastRead := none })
  let fault (s : State) : State := s.assumeWhole.raise .headerFault
  match r with
  | .uncorrectable => fault s
  | .blank =>
    s.onPu (fun u => { u with volume := .blank, header := none, partitions := [(0, g.wraps - 1)], eod := [some (.empty 0)],
                              directory := [⟨.valid, none, []⟩], eodFilemarks := [some 0] })
  | .corrected =>
    match readHeader s.dbm.dram (Config.slotBytes * s.dbm.take) g with
    | none => fault s
    | some (h, partitions, eods, entries) =>
      let known := h == .sealed
      let dir (p : Nat) (e : EodKnown) : PartitionDirectory :=
        if known then ⟨.valid, e.last, (entries.filter (fun x => x.1 == p)).map Prod.snd⟩ else ⟨.invalid, none, []⟩
      s.onPu (fun u => { u with volume := .formatted, header := some h, partitions := partitions,
                                eod := eods.map (fun e => if known then some e else none),
                                directory := (List.range eods.length).map (fun p => dir p (eods.getD p (.empty 0))),
                                eodFilemarks := eods.map (fun e => if known && e.last.isNone then some 0 else none) })

/-- The flags byte of a LOAD's completion (12.1): write-protect, volume state, generation. -/
def State.loadFlags (s : State) : Nat :=
  (if s.rtc.writeProtect = some true then 2 else 0)
    + 4 * (match s.pu.volume with | .blank => 1 | .headerFault => 2 | _ => 0)
    + (if s.pu.generation = some .b then 16 else 0)

/-- The values of a new load at the Write Formatter (R44). -/
def Wf.newLoad (w : Wf) : Wf :=
  { w with backhitches := 0, restarts := 0, misses := 0, earlyWarned := [], eodPending := false, volumeFull := none,
           writePoint := none, appendPoint := none, spanStart := none }

/-- The head of the queue is a LOAD whose sequence this is. -/
def State.loadExecuting (s : State) : Bool :=
  s.executing == some .load && s.cu.progress == .sequence

/-- The head of the queue is an UNLD whose sequence this is. -/
def State.unldExecuting (s : State) : Bool :=
  s.executing == some .unld && s.cu.progress == .sequence

/-- The load reaches READY: the cartridge state, the load counted, the values of a new load, the LOAD's completion (R127). -/
def State.loadReady (s : State) : State :=
  let s := s.setGoal .stop
  let s := (s.setCartridge .ready none).countLoad
  let s := s.onWf Wf.newLoad
  let s := s.onRdr (fun r => { Rdr.stopped r with headerErrors := 0 })
  let s := s.onDbm (fun d => { d with recovered := 0 })
  s.when s.loadExecuting (·.complete .good { flags := s.loadFlags })

/-- The header read reports its result to the Position Unit, which sets the volume; the load reaches READY (R100, R120, R127). -/
def State.headerRead (s : State) (r : HeaderResult) : State := (s.setVolume r).loadReady

/-! ### DPAR's partition table (R105, R121) -/

/-- The sizes of a DPAR that its count names, a last size of 0 replaced by the remainder (R121 checks 4 and 5). -/
def dparSizes (wraps count : Nat) (sizes : List Nat) : Option (List Nat) :=
  if count = 0 ∨ 4 < count then none
  else
    let own := (sizes.take count)
    let front := own.dropLast
    let last := own.getLast?.getD 0
    let guards := 2 * (count - 1)
    let ok (z : Nat) : Bool := z % 2 == 0 && decide (4 ≤ z)
    if own.length ≠ count ∨ !front.all ok ∨ !(last == 0 || ok last) then none
    else if wraps < front.sum + last + guards then none
    else if last = 0 then
      let rest := wraps - front.sum - guards
      if rest < 4 then none else some (front ++ [rest])
    else some own

/-- The partition table of sizes in wraps, two guard wraps between partitions (R105). -/
def partitionsOf : Nat → List Nat → List (Nat × Nat)
  | _, [] => []
  | from_, z :: zs => (from_, from_ + z - 1) :: partitionsOf (from_ + z + 2) zs

/-- The new tables of a DPAR, with the marks it clears (R121 steps 2 to 4). -/
def State.setPartitions (s : State) (ps : List (Nat × Nat)) : State :=
  let s := s.onPu (fun u => { u with partitions := ps, eod := ps.map (fun p => some (.empty p.1)),
                                     directory := ps.map (fun _ => ⟨.valid, none, []⟩), header := some .sealed,
                                     eodFilemarks := ps.map (fun _ => some 0), lastRead := none, partition := 0, object := 0,
                                     anchor := some (0, ⟨0, Config.headerZone⟩) })
  s.onWf (fun w => { w with earlyWarned := [], volumeFull := none, eodPending := false, appendPoint := none })

/-! ### Writing begins -/

/-- The direction set WRITE for a write at EOD; the append point is the EOD record's mark position where the direction
was not WRITE (R45, R118). The model's choice: a mark still to be written after a hard write error is given up (R54, log 25). -/
def State.appendHere (s : State) : State :=
  if s.dbm.direction == .write then s
  else
    let s := s.leaveRead
    let a := s.eodHere.map EodKnown.mark
    let s := s.wfYield.onWf (fun w => { w with stage := .idle, appendPoint := a, writePoint := none })
    s.setDirection .write

/-- The executing write command takes up its own work with the direction set (R32). -/
def State.takeUpWriting (s : State) : State :=
  match s.executing with
  | some (.wrec _) => (s.onCu (fun c => { c with progress := .writing })).grantCredits
  | some (.wfmk n) => ((s.onCu (fun c => { c with progress := .filemarks })).runFilemarks (2 * n + 4)).wfKick
  | _ => s

/-! ### Cutting the partition at D (R16, R112, R118, R119) -/

/-- The partition cut at D in one step (R118); `fm` filemarks lie before the cut. -/
def State.cutAtD (s : State) (c : Cut) (fm : Nat) : State :=
  let p := s.pu.partition
  let s := s.onPu (fun u => { u with directory := u.directory.modify p (·.cut c.dataset), anchor := none, cut := none,
                                     eodFilemarks := u.eodFilemarks.set p (some fm), lastRead := none })
  let s := s.setEod p { object := c.cutAt, last := if c.dataset = 0 then none else some (c.dataset - 1), mark := c.start, onTape := false }
  s.wfYield.onWf (fun w => { w with appendPoint := some c.start, writePoint := none, eodPending := true, stage := .idle })

/-- D need not be converted: the cut lies at its first object and it continues no earlier object (R16). -/
def Cut.fresh (c : Cut) : Bool := c.cutAt == c.first && !c.continues

/-- The ERAS takes up writing its mark, an unseal first where the header is SEALED (R119). A mark or header span still in hand is given
up, its pitch cut off (R152, log 25). -/
def State.eraseMark (s : State) : State :=
  let s := s.wfYield.onCu (fun c => { c with progress := .erasing })
  if s.pu.header == some .sealed then s.beginHeader .unseal 1
  else (s.onWf (fun w => { w with eodPending := true })).beginMark .flush

/-- D is written fresh: the cut, then the command's own work (R16, R118, R119). -/
def State.settleFresh (s : State) (c : Cut) : State :=
  let s := s.leaveRead.cutAtD c c.filemarks
  match s.executing with
  | some .eras => s.eraseMark
  | _ => (s.setDirection .write).takeUpWriting

/-- The entries of a slot that stay at a cut: those of objects before it (R16). -/
def keptEntries (first cutAt : Nat) (es : List IndexEntry) : List IndexEntry :=
  let objects := (objectsOf first (es.map IndexEntry.kind)).map Prod.fst
  ((es.zip objects).takeWhile (fun x => decide (x.2 < cutAt))).map Prod.fst

/-- How many entries of a list complete an object. -/
def completing (es : List IndexEntry) : Nat := (es.filter (fun e => e.kind.completes)).length

/-- How many entries of a list are filemarks. -/
def filemarksIn (es : List IndexEntry) : Nat := (es.filter (fun e => e.kind == .filemark)).length

/-- The READY or EXPANDING slot at a position becomes the FILLING slot, cut at the logical position; every other slot is
freed and both pointers reset (R16 steps 2 and 3); then the cut of R118 and the command's own work. -/
def State.convertD (s : State) (c : Cut) (i : Nat) : State :=
  match s.dbm.slots[i]? with
  | none => s
  | some x =>
    let kept := keptEntries (x.first.getD 0) c.cutAt (s.dbm.dram.entryList (s.dbm.base i) (x.entries.getD 0))
    let fm := filemarksIn kept
    let y : Slot := { x with state := .filling, entries := some kept.length, payload := some (kept.map IndexEntry.stored).sum,
                             attempt := some 1, passes := none, outcome := none, objects := completing kept, filemarks := fm }
    let n := s.dbm.number i
    let s := (s.onRx Rx.giveUp).onRdr Rdr.stopped
    let s := s.onDbm (fun d => { d with slots := [y], drain := n })
    let s := (s.setDirection .write).onRc Rc.emptyHistory
    let s := s.when (!kept.isEmpty) State.startSealTimer
    let s := s.cutAtD c (c.filemarks + fm)
    match s.executing with
    | some .eras => ((s.onCu (fun u => { u with progress := .erasing })).sealForCause).wfKick
    | _ => s.takeUpWriting

/-- A truncating write or an ERAS that cannot settle D ends with MEDIUM_ERROR, EOD, directory and header as they were
(R16, R118, R119). -/
def State.settleFails (s : State) : State :=
  let s := s.leaveRead.onPu (fun u => { u with cut := none })
  match s.executing with
  | some _ => s.complete .mediumError { object := s.pu.object }
  | none => s

end Sys2Proof.Machine
end

