-- ==== Sys2Proof/Machine/Read.lean ====
section
/-!
DEFINITION. Read.lean: the Reader (R82 to R100): the hand-over, the LOADING slot, the classification of pitches, copies and
their rows, evaluation, C2 correction, retries, end of data, read-ahead, the header read of a load.
-/
namespace Sys2Proof.Machine

/-! ### Hand-over and the LOADING slot (R11, R83) -/

/-- The partition's EOD is known and a dataset number lies above its last dataset: the mark position (R95). -/
def State.endKnown (s : State) (n : Nat) : Option Loc :=
  match s.eodHere with
  | some e => if nextAfter e.last ≤ n then some e.mark else none
  | none => none

/-- A slot may be opened LOADING: none is LOADING, and none FAILED stands at the newest end (R3, R4). -/
def Dbm.mayLoad (d : Dbm) : Bool :=
  (d.find .loading).isNone && d.slots.getLast?.map Slot.state != some .failed && decide (0 < d.free)

/-- A LOADING slot opened for the expected dataset when the Reader asks for one and it can be had (R11). -/
def State.openLoading (s : State) : State :=
  match s.rdr.expected with
  | some (n, p) =>
    if s.rdr.wanted && s.dbm.direction == .read && s.dbm.mayLoad then
      let x : Slot :=
        { state := .loading, dataset := n, partition := p, first := none, filemarksBefore := none, entries := none,
          payload := none, attempt := none, passes := some 1, outcome := none, objects := 0, filemarks := 0 }
      (s.onDbm (·.opened x)).onRdr (fun r => { Rdr.emptyMap r with pass := some 1, wanted := false, tallies := Tally.zeros })
    else s
  | none => s

/-- The LOADING slot returns to FREE, the take pointer stepping back (R11). -/
def State.dropLoading (s : State) : State :=
  s.when ((s.dbm.slots.getLast?.map (fun x => x.state == .loading)).getD false) (·.onDbm Dbm.dropNewest)

/-- The EOD object and the filemarks before it where end of data is met before dataset n of a partition: D's first object in a load of D
alone, the object after the dataset proven last, else the logical position (R114, logs 29 and 48). -/
def State.endBefore (s : State) (n p : Nat) : Nat × Option Nat :=
  if n = 0 then (0, some 0)
  else match s.rdr.alone, s.pu.cut, s.pu.lastRead with
    | true, some c, _ => (c.first, some c.filemarks)
    | _, _, some (q, d, e, f) => if q = p ∧ d + 1 = n then (e, some f) else (s.pu.object, none)
    | _, _, none => (s.pu.object, none)

/-- End of data reported to the Position Unit: an EOD record not yet known becomes known (R95, R97, R109, R114, log 29). The model's
choice: a position that a load of D alone so finds beyond the EOD becomes the EOD object (R104, log 48). -/
def State.reportReadEnd (s : State) (place : Loc) (pattern : Bool) : State :=
  match s.rdr.expected with
  | some (n, p) =>
    if (s.eodOf p).isSome then s
    else
      let (object, fm) := s.endBefore n p
      let s := s.when (s.rdr.alone && decide (object < s.pu.object)) (·.setPosition object none)
      let s := s.onPu (fun u => { u with eodFilemarks := u.eodFilemarks.set p fm })
      s.setEod p { object := object, last := if n = 0 then none else some (n - 1), mark := place, onTape := pattern }
  | none => s

/-- End of data at the Reader, reported (R95); a load of D alone ends its command (R16, R97). -/
def State.readerEnds (s : State) (place : Loc) (pattern : Bool) : State :=
  let alone := s.rdr.alone
  let s := s.dropLoading.reportReadEnd place pattern
  let s := s.onRdr (fun r => { Rdr.emptyMap r with activity := .ended .endOfData, readAhead := false, wanted := false, target := none,
                                                   alone := false, tallies := Tally.zeros })
  let s := s.setGoal .stop
  if alone then s.settleFails else s

/-- The hand-over (R83): partition, dataset N and seek pitch given to the Reader. A seek pitch that is the partition's end is the
end of data of R95 (R45). The model's choice: no tape is moved for it (log 49). -/
def State.handOver (s : State) (n : Nat) (seek : Loc) (alone : Bool) : State :=
  let p := s.pu.partition
  let s := s.wfYield.onRdr (fun r => { r with expected := some (n, p), unseen := none, blankRun := 0, blankStart := none, alone := alone })
  match s.endKnown n with
  | some mark => s.readerEnds mark false
  | none =>
    if s.pitches ≤ seek.pitch then s.readerEnds ⟨seek.wrap, s.pitches - 1⟩ false
    else
      let s := s.onRdr (fun r => { r with activity := .repositioning, target := some seek, wanted := true })
      (s.setGoal (.runUp seek false)).openLoading

/-- The Reader pauses at the read-ahead limit (R96). -/
def State.readerPauses (s : State) : State :=
  (s.onRdr (fun r => { r with activity := .paused, wanted := false })).setGoal .stop

/-- A paused Reader resumes at the resume point (R96). The model's choice: with no separator classified yet it seeks from the
partition's first data pitch (log 49). -/
def State.readerResumes (s : State) : State :=
  match s.rdr.expected with
  | some (n, _) => s.handOver n (s.rdr.resume.getD (firstDataPitch (s.partitionWraps s.pu.partition).1)) false
  | none => s

/-- The next expected dataset after one made READY (R90, R95, R96). -/
def State.readNext (s : State) (n p : Nat) : State :=
  let s := s.onRdr (fun r => { Rdr.emptyMap r with expected := some (n, p), tallies := Tally.zeros })
  match s.endKnown n with
  | some mark => s.readerEnds mark false
  | none =>
    if s.rdr.readAhead && decide (s.dbm.countIn .ready < s.sm.table.high) then
      (s.onRdr (fun r => { r with activity := .seeking, wanted := true })).openLoading
    else s.readerPauses

/-! ### Rows (R85, R87, R88) -/

/-- Where the rows being captured stand in the DRAM: the LOADING slot, or for the header the slot at the take pointer
(R88, R100). -/
def State.readBase (s : State) : Option Nat :=
  if s.rdr.activity == .header then some (Config.slotBytes * s.dbm.take)
  else (s.dbm.find .loading).map s.dbm.base

/-- The rows of a row set with good headers that are not FILLER, with their channels (R85). -/
def goodRows (rows : Vector (Option RowRead) 16) (wrap : Nat) : List (Nat × RowRead) :=
  (List.range 16).filterMap (fun c => match rows.toArray.getD c none with
    | some r => if goodHeader r c wrap && !isFiller r then some (c, r) else none
    | none => none)

/-- How many rows of a row set have bad headers (R85). -/
def badHeaders (rows : Vector (Option RowRead) 16) (wrap : Nat) : Nat :=
  ((List.range 16).filter (fun c => match rows.toArray.getD c none with
    | some r => !goodHeader r c wrap
    | none => false)).length

/-- A row record after a placed row (R88). -/
def RowState.take (st : RowState) (ok : Bool) (pass copy : Nat) : RowState :=
  match st with
  | .good p c => .good p c
  | _ => if ok then .good pass copy else .erased pass copy

/-- The record was supplied by a copy. -/
def RowState.from (st : RowState) (copy : Nat) : Bool :=
  match st with
  | .good _ c => c == copy
  | .erased _ c => c == copy
  | .absent => false

/-- The state of a row record. -/
def RowState.isGood : RowState → Bool
  | .good _ _ => true
  | _ => false

/-- A row's record in the row map. -/
def Rdr.row (r : Rdr) (n : Nat) : RowState := r.rows.toArray.getD n .absent

/-- A row of the current copy placed and scored (R88, R98). -/
def State.storeRow (s : State) (x : Nat × RowRead) : State :=
  let row := x.2.row.toNat
  let ok := goodOutcome x.2.outcome
  let s := match s.readBase with
    | some base => s.when (ok && !(s.rdr.row row).isGood)
        (·.onDbm (·.onDram (·.place (base + row * Config.rowBytes) Config.rowBytes x.2.payload)))
    | none => s
  s.onRdr (fun r => { r with rows := r.rows.setIfInBounds row ((r.row row).take ok (r.pass.getD 1) (r.copy.getD 1)),
                             tallies := scoreRow r.tallies x.1 (!ok) })

/-- The span start listed for the current copy (R87). -/
def Rdr.start (r : Rdr) : Option Loc := r.copies[r.copy.getD 1 - 1]?

/-- The span start of the current copy listed, or replaced by a later one (R87). -/
def Rdr.setStart (r : Rdr) (l : Loc) : Rdr :=
  { r with copies := if r.start.isSome then r.copies.set (r.copy.getD 1 - 1) l else r.copies ++ [l] }

/-- A copy of the expected dataset has been met (R86, R91). -/
def Rdr.met (r : Rdr) : Bool := r.opened.isSome

/-- Every record the current copy supplied returns to ABSENT, its tallies set to zero (R87). -/
def Rdr.clearCopy (r : Rdr) : Rdr :=
  { r with rows := r.rows.map (fun st => if st.from (r.copy.getD 1) then .absent else st), tallies := Tally.zeros }

/-- The span start a nominal row at a pitch implies (R87); `none` where it would lie before the wrap. The model's choice: such a row is not
placed and not scored, and leaves the span start as it is, unknown ones too (log 49). -/
def impliedStart (row : Nat) (l : Loc) : Option Loc :=
  if l.pitch < row / 16 then none else some ⟨l.wrap, l.pitch - row / 16⟩

/-- A rewrite row's pitch lies in the rewrite sets of a span (R87). -/
def inRewriteSets (start l : Loc) : Bool :=
  l.wrap == start.wrap && decide (start.pitch + 16 ≤ l.pitch) && decide (l.pitch ≤ start.pitch + 19)

/-- A good-header row of the expected dataset placed in the current copy, or not (R87). -/
def State.placeRow (l : Loc) (s : State) (x : Nat × RowRead) : State :=
  if x.2.attempt.toNat = 1 then
    match impliedStart x.2.row.toNat l, s.rdr.start with
    | none, _ => s
    | some t, none => (s.onRdr (·.setStart t)).storeRow x
    | some t, some u =>
      if t = u then s.storeRow x
      else if t.before u then s
      else (s.onRdr (fun r => (Rdr.clearCopy r).setStart t)).storeRow x
  else
    match s.rdr.start with
    | some u => if inRewriteSets u l then s.storeRow x else s
    | none => s

/-- A copy of the expected dataset opens at a pitch, its number one above the copies listed (R87, R91); a fifth span, or one
beyond those listed on a later pass, is passed over. -/
def State.openCopy (s : State) (l : Loc) : State :=
  let listed := s.rdr.copies.length
  let first := s.rdr.pass.getD 1 = 1 ∨ listed = 0
  let k := if first then listed + 1 else s.rdr.copy.getD 0 + 1
  if (first ∧ 4 ≤ listed) ∨ (¬ first ∧ listed < k) then s
  else
    s.onRdr (fun r => { r with copy := some k, opened := some l, copyOpen := true, tallies := Tally.zeros,
                               activity := if r.activity = .header then .header else .capturing })

/-! ### Evaluation (R89, R90) -/

/-- The read tallies handed to the Head Monitor and set to zero (R98). -/
def State.handReadTallies (s : State) : State :=
  (s.takeTally s.rdr.tallies).onRdr (fun r => { r with tallies := Tally.zeros })

/-- The erased count: the rows that are not GOOD (R89). -/
def Rdr.erasedCount (r : Rdr) : Nat := (r.rows.toList.filter (fun st => !st.isGood)).length

/-- The payload of a row of the dataset at an address. -/
def Memory.row (m : Memory) (base n : Nat) : Cells := m.cells (base + n * Config.rowBytes) Config.rowBytes

/-- The payload of a row of the dataset at an address replaced. -/
def Memory.setRow (m : Memory) (base n : Nat) (cs : Cells) : Memory := m.place (base + n * Config.rowBytes) Config.rowBytes cs

/-- The data area of the dataset at an address. -/
def Memory.area (m : Memory) (base : Nat) : Cells := m.cells base (240 * Config.rowBytes)

/-- The rows of each attempt in the trace, the latest attempt first: an attempt begins with the first writing of row 0, which its nominal
set 0 carries (R46, R47). -/
def attemptsIn (tape : List TapeWrite) : List (List RowWritten) :=
  tape.foldl (fun attempts w => match w with
    | .rowSet _ rows =>
      if rows.any (fun r => r.row == some 0 && r.attempt == 1) then rows :: attempts
      else match attempts with
        | a :: older => (a ++ rows) :: older
        | [] => [rows]
    | _ => attempts) []

/-- An attempt at a dataset wrote every one of given rows as given. -/
def wrote (attempt : List RowWritten) (dataset : Nat) (rows : List (Nat × Cells)) : Bool :=
  rows.all (fun x => attempt.any (fun r =>
    r.row == some x.1 && r.dataset == dataset && Memory.place [] 0 Config.rowBytes r.payload == x.2))

/-- A row as written, where the part wrote it to the tape in the drive: the row of the attempt that wrote all the good rows read. These are
240 or more, which settle every row of the dataset, so an attempt cut off over an older span is passed over (R46, R66, R192, log 13). -/
def writtenRow (tape : List TapeWrite) (dataset : Nat) (good : List (Nat × Cells)) (row : Nat) : Option Cells :=
  (attemptsIn tape).findSome? (fun a =>
    if wrote a dataset good then (a.find? (fun r => r.row == some row)).map RowWritten.payload else none)

/-- The GOOD rows of a row map with their payloads. -/
def Rdr.goodRows (r : Rdr) (m : Memory) (base : Nat) : List (Nat × Cells) :=
  ((List.range 256).filter (fun n => (r.row n).isGood)).map (fun n => (n, m.row base n))

/-- C2 regenerates every row that is not GOOD, in place: a data row as it was written, which is a free value of the good rows
where the part did not write it itself, and the parity rows from the data area (R46, R90, R192, log 13). -/
def regenerate (tape : List TapeWrite) (dataset : Nat) (m : Memory) (base : Nat) (r : Rdr) : Memory :=
  let good := r.goodRows m base
  let lost := (List.range 256).filter (fun n => !(r.row n).isGood)
  let m := (lost.filter (fun n => decide (n < 240))).foldl
    (fun m n => m.setRow base n ((writtenRow tape dataset good n).getD (Config.freeC2Row good n))) m
  let area := m.area base
  (lost.filter (fun n => decide (240 ≤ n))).foldl (fun m n => m.setRow base n (parityCells area n)) m

/-- A corrected trailer passes the checks of R90. -/
def Trailer.passes (t : Trailer) (n p : Nat) : Bool :=
  t.partition == p && t.dataset == n && decide (1 ≤ t.entries) && decide (t.entries ≤ Config.maxEntries)
    && decide (t.payload ≤ Config.indexTop - 16 * t.entries)

/-- The DRAM after an evaluation: where 16 rows or fewer are erased C2 has regenerated them in the slot (R89, R90). -/
def State.corrected (s : State) : Memory :=
  match s.rdr.expected, s.readBase with
  | some (n, _), some base => if 16 < s.rdr.erasedCount then s.dbm.dram else regenerate s.tape n s.dbm.dram base s.rdr
  | _, _ => s.dbm.dram

/-- The trailer of a row map evaluated: given when 16 rows or fewer are erased and the corrected trailer passes (R89, R90). -/
def State.evaluation (s : State) : Option Trailer :=
  match s.rdr.expected, s.readBase with
  | some (n, p), some base =>
    let t := s.corrected.trailer base
    if s.rdr.erasedCount ≤ 16 ∧ t.passes n p = true then some t else none
  | _, _ => none

/-- An evaluation that did not correct the dataset: whether it failed at the trailer is kept (R90). -/
def State.notCorrected (s : State) : State :=
  s.onRdr (fun r => { r with trailerFailed := decide (r.erasedCount ≤ 16) })

/-- The dataset is corrected: the slot READY, the dataset proven, the next one expected; a load of D alone is converted
(R11, R90, R97, R111, R16). -/
def State.datasetReady (s : State) (t : Trailer) : State :=
  let n := t.dataset
  let p := t.partition
  let erased := s.rdr.erasedCount
  let base := s.readBase.getD 0
  let es := s.dbm.dram.entryList base t.entries
  let start := (s.rdr.start.orElse (fun _ => s.rdr.opened)).getD ⟨0, 0⟩
  let s := match s.dbm.find .loading with
    | some i => s.onDbm (·.setSlot i (fun x =>
        { x with state := .ready, first := some t.first, filemarksBefore := some t.filemarks, entries := some t.entries,
                 payload := some t.payload, outcome := some erased }))
    | none => s
  let s := (s.proveDataset p n t.first t.filemarks start false).learnFilemarks p n (t.filemarks + filemarksIn es)
  let s := s.onPu (fun u => { u with lastRead := some (p, n, t.first + completing es, t.filemarks + filemarksIn es) })
  if s.rdr.alone then
    let s := s.onRdr (fun r => { Rdr.emptyMap r with activity := .ended .endOfData, wanted := false, target := none, alone := false })
    let s := s.setGoal .stop
    match s.pu.cut, s.dbm.find .ready with
    | some c, some i => if s.cu.progress = .settleD then s.convertD c i else s
    | _, _ => s
  else s.readNext (n + 1) p

/-! ### Retries and failure (R92, R93, R94) -/

/-- A pass remains (R92). -/
def State.passRemains (s : State) : Bool := decide (s.rdr.pass.getD 1 < 1 + s.cu.policy.retries)

/-- The header read ends with a result; the Reader becomes IDLE (R100). -/
def State.headerEnds (s : State) (r : HeaderResult) : State :=
  (s.onRdr (fun x => { Rdr.stopped x with tallies := Tally.zeros })).headerRead r

/-- The dataset is FAILED (R94); a load of D alone ends its command (R16). -/
def State.readFails (s : State) (outcome : Nat) : State :=
  let alone := s.rdr.alone
  let s := match s.dbm.find .loading with
    | some i => s.onDbm (·.setSlot i (fun x => { x with state := .failed, outcome := some outcome }))
    | none => s
  let s := s.raise .mediumError
  let s := s.onRdr (fun r => { Rdr.emptyMap r with activity := .ended .failed, readAhead := false, wanted := false, target := none,
                                                   alone := false, tallies := Tally.zeros })
  let s := s.setGoal .stop
  if alone then s.settleFails else s

/-- A pass begun: the pass counts go up and the tape is brought to the run-up point of a pitch (R92, R93). -/
def State.nextPass (s : State) (t : Loc) : State :=
  let s := s.onRdr (fun r => { r with pass := r.pass.map (· + 1), target := some t, copyOpen := false, copy := none,
                                      activity := if r.activity = .header then .header else .repositioning, tallies := Tally.zeros })
  let s := match s.dbm.find .loading with
    | some i => s.onDbm (·.setSlot i (fun x => { x with passes := x.passes.map (· + 1) }))
    | none => s
  s.setGoal (.runUp t false)

/-- A retry from the span start of copy 1, or the dataset given up (R92, R94, R100). The model's choice: where copy 1's span
start was never found it runs up to the pitch the latest copy opened at (log 49). -/
def State.retry (s : State) : State :=
  if s.passRemains then
    s.nextPass ((s.rdr.copies.head?.orElse (fun _ => s.rdr.opened)).getD ⟨0, 0⟩)
  else if s.rdr.activity = .header then s.headerEnds .uncorrectable
  else s.readFails (if s.rdr.trailerFailed then 256 else s.rdr.erasedCount)

/-- A pass over the expected dataset that saw no row: the next begins at the unseen mark (R93, R100). The model's choice: a header pass
that left no unseen mark is followed by one from wrap 0 pitch 0 (log 49). -/
def State.sawNothing (s : State) : State :=
  if s.passRemains then s.nextPass (s.rdr.unseen.getD ⟨0, 0⟩)
  else if s.rdr.activity = .header then s.headerEnds .uncorrectable
  else s.readFails 256

/-- C2 has regenerated what it can; then the dataset is made READY, or the header result given, when the evaluation corrects, and
otherwise `other` follows (R89, R90, R100). -/
def State.evaluate (s : State) (other : State → State) : State :=
  let fixed := s.onDbm (fun d => { d with dram := s.corrected })
  match s.evaluation with
  | some t => if s.rdr.activity = .header then fixed.headerEnds .corrected else fixed.datasetReady t
  | none => other fixed.notCorrected

/-- What follows a copy closed with too many rows erased (R91): on the first pass the follow-on copy is sought; on a later
pass the next listed copy; the header seeks none (R100). The model's choice: so it is on a later pass that met the first copy, the passes
before having seen no row (R93): no follow-on copy is sought (log 49). -/
def State.afterCopy (s : State) : State :=
  let more := s.rdr.pass.getD 1 = 1 ∨ s.rdr.copy.getD 1 < s.rdr.copies.length
  if s.rdr.activity = .header ∨ ¬ more then s.retry
  else s.onRdr (fun r => { r with activity := .seeking, copyOpen := false })

/-- The current copy ends with the unseen mark set: it is evaluated as at a separator (R93). -/
def State.unseenEnd (s : State) : State := s.handReadTallies.evaluate State.retry

/-- The current copy is unclosed: it is not evaluated and end of data is met at its span start (R89, R95, R100). -/
def State.unclosed (s : State) : State :=
  let place := (s.rdr.start.orElse (fun _ => s.rdr.opened)).getD ⟨0, 0⟩
  let s := s.handReadTallies
  if s.rdr.activity = .header then s.headerEnds .uncorrectable else s.readerEnds place false

/-- An indication that would end the open copy (R89, R93). -/
def State.copyEnded (s : State) : State := if s.rdr.unseen.isSome then s.unseenEnd else s.unclosed

/-- An indication, with no copy open, that the expected dataset does not follow (R86, R91, R93, R95). In a header read it ends the pass
where the unseen mark is set; otherwise the pass goes on to the end of the header zone (R93, R100). -/
def State.notFound (s : State) (place : Loc) (pattern : Bool) : State :=
  if s.rdr.activity = .header then s.when s.rdr.unseen.isSome State.sawNothing
  else if s.rdr.met then s.retry
  else if s.rdr.unseen.isSome then s.sawNothing
  else s.readerEnds place pattern

/-! ### Classification (R84, R86, R89, R91) -/

/-- Rows of the expected dataset at a pitch: they open a copy if none is open, and are placed. -/
def State.takeRows (s : State) (l : Loc) (mine : List (Nat × RowRead)) : State :=
  let s := if s.rdr.copyOpen then s else s.openCopy l
  if s.rdr.copyOpen then mine.foldl (State.placeRow l) s else s

/-- A row set classified (R85 to R88); a set that carries any row of the expected dataset is taken as a set of it
(log 38). -/
def State.readRows (s : State) (l : Loc) (rows : Vector (Option RowRead) 16) : State :=
  let s := s.onRdr (fun r => { r with blankRun := 0, blankStart := none,
                                      headerErrors := satAdd Config.max16 r.headerErrors (badHeaders rows l.wrap) })
  match s.rdr.expected with
  | none => s
  | some (n, _) =>
    let good := goodRows rows l.wrap
    let mine := good.filter (fun x => x.2.dataset.toNat == n)
    let next := good.filter (fun x => x.2.dataset.toNat == n + 1)
    if !mine.isEmpty then s.takeRows l mine
    else if good.isEmpty then s
    else if s.rdr.copyOpen then
      let s := s.copyEnded
      if s.rdr.expected.map Prod.fst = some (n + 1) ∧ s.rdr.activity = .seeking ∧ (s.dbm.find .loading).isSome ∧ !next.isEmpty then
        s.takeRows l next
      else s
    else if good.any (fun x => decide (n < x.2.dataset.toNat)) then s.notFound l false
    else s

/-- The Reader reports a dataset boundary at a separator; that of a header span is none (R76). -/
def State.readBoundary (s : State) : State := s.when (s.rdr.activity != .header) State.boundary

/-- A separator classified (R84, R86, R89). -/
def State.readSeparator (s : State) (l : Loc) : State :=
  let s := s.onRdr (fun r => { r with blankRun := 0, blankStart := none, unseen := none, resume := some (s.after l) })
  if s.rdr.copyOpen then (s.handReadTallies.readBoundary).evaluate State.afterCopy
  else s.readBoundary

/-- An end pattern classified (R86, R89, R95). -/
def State.readPattern (s : State) (l : Loc) : State :=
  let s := s.onRdr (fun r => { r with blankRun := 0, blankStart := none })
  if s.rdr.copyOpen then s.copyEnded else s.notFound l true

/-- A blank pitch classified (R84, R86, R89, R95). The model's choice: while the run stands at 64, as it does for dataset N + 1 after R93
has corrected N, each further blank is the indication of a run of 64 again (log 49). -/
def State.readBlank (s : State) (l : Loc) : State :=
  let start := s.rdr.blankStart.getD l
  let s := s.onRdr (fun r => { r with blankRun := min 64 (r.blankRun + 1), blankStart := some start })
  if s.rdr.blankRun < 64 ∨ s.rdr.activity = .header then s
  else if s.rdr.copyOpen then s.copyEnded
  else s.notFound start false

/-- The last pitch of a wrap has passed (R86, R89, R91, R95). The model's choice: with a copy open and the unseen mark set the
wrap is turned with the copy still open, and on the partition's last wrap the copy is evaluated as R93 states (log 49). -/
def State.readWrapEnd (s : State) (wrap : Nat) : State :=
  if !(s.rdr.activity == .seeking || s.rdr.activity == .capturing) then s
  else if s.rdr.copyOpen && s.rdr.unseen.isNone then s.unclosed
  else if wrap < s.lastWrap then s.askWrapTurn (wrap + 1)
  else if s.rdr.copyOpen then s.unseenEnd
  else if s.rdr.met then s.retry
  else s.readerEnds ⟨wrap, s.pitches - 1⟩ false

/-- The end of the header zone in a header read (R100). -/
def State.headerZoneEnd (s : State) : State :=
  if s.rdr.copyOpen then s.copyEnded
  else if s.rdr.blankRun = Config.headerZone ∧ s.rdr.unseen.isNone then s.headerEnds .blank
  else s.sawNothing

/-- The Reader classifies pitches now. -/
def Rdr.classifies (r : Rdr) : Bool :=
  r.activity == .seeking || r.activity == .capturing || (r.activity == .header && r.target.isNone)

/-- A pitch classified by the Reader (R84). -/
def State.readPitchAt (s : State) (l : Loc) (c : PitchContent) : State :=
  if !s.rdr.classifies then s
  else if s.rdr.activity == .header && decide (Config.headerZone ≤ l.pitch) then s.headerZoneEnd
  else
    let last := s.rdr.activity == .header && decide (l.pitch + 1 = Config.headerZone)
    let s := match c with
      | .rowSet rows => s.readRows l rows
      | .separator => s.readSeparator l
      | .endPattern => s.readPattern l
      | .blank => s.readBlank l
    if last then (if s.rdr.classifies && s.rdr.activity == .header then s.headerZoneEnd else s)
    else if l.pitch + 1 = s.pitches then s.readWrapEnd l.wrap
    else s

/-- A pitch past the header zone ends the pass of a header read, LOCKED or not (R100). -/
def State.headerPassed (s : State) (l : Loc) : State :=
  s.when (s.rdr.classifies && s.rdr.activity == .header && decide (Config.headerZone ≤ l.pitch)) State.headerZoneEnd

/-- A pitch passed unclassified (R84); a header read ends its pass with the last pitch of the header zone (R100). -/
def State.readUnseen (s : State) (l : Loc) : State :=
  if !s.rdr.classifies then s
  else if s.rdr.activity == .header && decide (Config.headerZone ≤ l.pitch) then s.headerZoneEnd
  else
    let s := s.onRdr (fun r => { r with unseen := some (r.unseen.getD l) })
    if s.rdr.activity == .header && decide (l.pitch + 1 = Config.headerZone) then s.headerZoneEnd else s

/-- The tape has come to a place: a target it reaches begins the seek or the pass (R83, R92). The model's choice: the blank run
starts from 0 there too, where R84 clears only the unseen mark (log 49). -/
def State.readerAt (s : State) (l : Loc) : State :=
  match s.rdr.target with
  | some t =>
    if l.wrap = t.wrap ∧ t.pitch ≤ l.pitch ∧ s.rtc.motion = .streaming then
      let again := s.rdr.met && decide (2 ≤ s.rdr.pass.getD 1)
      s.onRdr (fun r => { r with target := none, unseen := none, blankRun := 0, blankStart := none, copyOpen := again,
                                 copy := if again then some 1 else r.copy, opened := if again then some t else r.opened,
                                 activity := if r.activity = .header then .header else if again then .capturing else .seeking })
    else s
  | none => s

/-- The header read begun: HEADER, the tape brought to wrap 0 pitch 0 by a shuttle and a run-up (R100, R127, R128). -/
def State.beginHeaderRead (s : State) : State :=
  let s := s.onRdr (fun r => { Rdr.stopped r with activity := .header, expected := some (0, 15), pass := some 1, target := some ⟨0, 0⟩ })
  s.setGoal (.trip ⟨0, 0⟩)

/-- The Reader ended by a tension fault, or by another departure from READY (R99). -/
def State.readerFaults (s : State) : State :=
  if s.rdr.activity == .idle then s
  else
    (s.dropLoading).onRdr (fun r => { Rdr.emptyMap r with activity := .ended .fault, readAhead := false, wanted := false, target := none,
                                                            alone := false, tallies := Tally.zeros, unseen := none })

end Sys2Proof.Machine
end

