-- ==== Sys2Proof/Machine/Expand.lean ====
section
/-!
DEFINITION. Expand.lean: the Record Expander (R34 to R42): taking slots, expanding entries, ending and sending records; and
the completions of READ_RECORDS it brings about (R41, R102).
-/
namespace Sys2Proof.Machine

/-! ### Tokens (R26, R36) -/

/-- What expanding a segment yields: the host bytes, whether a check failed, the history and bytes since reset after it. -/
structure Expanded where
  bytes : List Byte
  fault : Bool
  history : List Byte
  sinceReset : Nat
  deriving DecidableEq, Repr

/-- The bytes of a copy, taken one at a time from `d` places before the end of the output so far (R36). -/
def copyBytes (d : Nat) : Nat → List Byte → List Byte
  | 0, _ => []
  | n + 1, out =>
    let b := out.getD (out.length - d) 0
    b :: copyBytes d n (out ++ [b])

/-- Output joined to what has been expanded, cut at the host length (R36). -/
def Expanded.join (e : Expanded) (host : Nat) (bs : List Byte) : Expanded :=
  let kept := bs.take (host - e.bytes.length)
  { bytes := e.bytes ++ kept, fault := e.fault || decide (kept.length < bs.length), history := joinHistory e.history kept,
    sinceReset := e.sinceReset + kept.length }

/-- Tokens read from stored bytes (R26, R36). The first argument bounds the tokens by the stored bytes. -/
def expandTokens : Nat → Nat → List Byte → Expanded → Expanded
  | 0, _, _, e => e
  | k + 1, host, bs, e =>
    match bs with
    | [] => e
    | b :: rest =>
      if e.fault ∧ host ≤ e.bytes.length then e
      else if b.toNat < 128 then
        let n := b.toNat + 1
        if rest.length < n then { e with fault := true }
        else expandTokens k host (rest.drop n) (e.join host (rest.take n))
      else
        match rest with
        | [] => { e with fault := true }
        | c :: rest =>
          let l := b.toNat % 128 / 8 + 3
          let d := b.toNat % 8 * 256 + c.toNat + 1
          if e.sinceReset < d then expandTokens k host rest ({ e with fault := true }.join host (List.replicate l 0))
          else expandTokens k host rest (e.join host (copyBytes d l e.history))

/-- A segment expanded, zero bytes making up its host length; the padding itself is no fault (R36). -/
def expandSegment (x : IndexEntry) (stored history : List Byte) (sinceReset : Nat) : Expanded :=
  let e0 : Expanded := { bytes := [], fault := false, history := history, sinceReset := sinceReset }
  let e := if x.compressed then expandTokens stored.length x.host stored e0
    else { e0.join x.host stored with fault := x.stored != x.host }
  let pad := x.host - e.bytes.length
  e.join x.host (List.replicate pad 0)

/-! ### Records (R35, R38, R39, R40) -/

/-- The command reading, with its count and limit, while the Record Expander may act. -/
def State.reading (s : State) : Option (Nat × Nat) :=
  match s.executing with
  | some (.rrec n limit) => if s.cu.progress = .reading then some (n, limit) else none
  | _ => none

/-- A completion of READ_RECORDS (R102): the delivered count, and the position or first undelivered object. -/
def State.readCompletes (s : State) (code : Code) (object : Nat) (actual : Nat := 0) : State :=
  s.complete code { count := s.cu.count, object := object, actualLength := actual }

/-- The EXPANDING slot is released once its last entry is done (R12, R35). -/
def State.releaseDone (s : State) : State :=
  match s.dbm.slots with
  | x :: _ => if x.state = .expanding ∧ x.entries.getD 0 ≤ s.rx.entry then s.onDbm Dbm.freeOldest else s
  | [] => s

/-- The record is delivered: the position after it, the count, and the completion its fault, its length or the count
brings (R38, R40, R41, R102). -/
def State.delivered (s : State) (d : Sending) : State :=
  let s := s.advancePosition
  let s := s.onRx (fun x => { x with sending := none, assembly := none, object := x.object + 1 })
  let s := (s.onCu (fun c => { c with count := c.count + 1 })).releaseDone
  let excess := if d.limit < d.actual then d.actual else 0
  if d.fault then (s.raise .dataCheck).readCompletes .dataCheck s.pu.object excess
  else if d.limit < d.actual then s.readCompletes .lengthMismatch s.pu.object excess
  else match s.reading with
    | some (n, _) => if n ≤ s.cu.count then s.readCompletes .good s.pu.object else s
    | none => s

/-- One RDAT packet of the record being sent, spending a read credit (R40, R42, R181). -/
def State.sendPacket (s : State) : State :=
  match s.rx.sending with
  | some d =>
    if s.spu.readCredits = 0 ∨ s.reading.isNone then s
    else
      let chunk := d.rest.take Config.packetBytes
      let rest := d.rest.drop Config.packetBytes
      let s := (s.onSpu (fun p => { p with readCredits := p.readCredits - 1 })).send (.rdat rest.isEmpty chunk)
      let s := s.onRx (fun x => { x with h := x.h + chunk.length, s := if d.begun then x.s else x.s + d.stored,
                                         sending := some { d with rest := rest, begun := true } })
      if rest.isEmpty then s.delivered d else s
  | none => s

/-- A record ends: skipped when it lies below the position, otherwise sent (R38, R39, R40). The model's choice: a record of delivered
length 0, which takes no packet, is delivered at once, with no read credit (log 50). -/
def State.recordEnds (s : State) (a : Assembly) (limit : Nat) : State :=
  if s.rx.object < s.pu.object then
    (s.onRx (fun x => { x with assembly := none, object := x.object + 1 })).releaseDone
  else
    let d : Sending := { object := s.rx.object, rest := a.data.take limit, actual := a.data.length, limit := limit,
                         stored := a.stored, begun := false, fault := a.fault }
    if d.rest.isEmpty then s.delivered d else s.onRx (fun x => { x with assembly := some a, sending := some d })

/-- A new assembly for the running object (R35). -/
def Assembly.begin (object : Nat) : Assembly :=
  { object := object, data := [], segments := 0, stored := 0, fault := false, acc := crc32Start }

/-- A segment's output joined to an assembly, which stops at 1,048,576 bytes (R36). -/
def Assembly.take (a : Assembly) (x : IndexEntry) (e : Expanded) : Assembly :=
  let kept := e.bytes.take (Config.maxRecord - a.data.length)
  { a with data := a.data ++ kept, segments := a.segments + 1, stored := a.stored + x.stored, acc := crc32Take a.acc kept,
           fault := a.fault || e.fault || decide (kept.length < e.bytes.length) }

/-- The assembly with its record check compared (R38). -/
def Assembly.checked (a : Assembly) (check : BitVec 32) : Assembly := { a with fault := a.fault || ~~~a.acc != check }

/-- The Record Expander acts on the next entry of its slot (R35 to R39, R41); the segment of the entry after it lies behind the stored
length of this one, a FILEMARK's included. The model's choice: a FILEMARK, WHOLE or START entry met while an assembly stands discards
that assembly without event, as R37 discards an orphan (log 50). -/
def State.expandEntry (s : State) : State :=
  match s.reading, s.dbm.slots with
  | some (_, limit), slot :: _ =>
    if slot.state ≠ .expanding ∨ s.rx.sending.isSome ∨ slot.entries.getD 0 ≤ s.rx.entry then s
    else
      let base := s.dbm.base 0
      let x := s.dbm.dram.entry base s.rx.entry
      let s := s.onRx (fun r => { r with entry := r.entry + 1 })
      let s := s.when x.reset (·.onRx (fun r => { r with history := [], sinceReset := 0 }))
      if x.kind = .filemark then
        let s := s.onRx (fun r => { r with offset := r.offset + x.stored, assembly := none, object := r.object + 1 })
        if s.rx.object ≤ s.pu.object then s.releaseDone
        else
          let s := s.advancePosition.releaseDone
          s.readCompletes .filemark s.pu.object
      else
        let e := expandSegment x (s.dbm.dram.readBytes (base + s.rx.offset) x.stored) s.rx.history s.rx.sinceReset
        let s := s.onRx (fun r => { r with offset := r.offset + x.stored, history := e.history, sinceReset := e.sinceReset })
        match x.kind, s.rx.assembly with
        | .middle, none => s.releaseDone
        | .end_, none => (s.onRx (fun r => { r with object := r.object + 1 })).releaseDone
        | .middle, some a => (s.onRx (fun r => { r with assembly := some (a.take x e) })).releaseDone
        | .end_, some a => s.recordEnds ((a.take x e).checked x.check) limit
        | .start, _ => (s.onRx (fun r => { r with assembly := some ((Assembly.begin r.object).take x e) })).releaseDone
        | _, _ => s.recordEnds (((Assembly.begin s.rx.object).take x e).checked x.check) limit
  | _, _ => s

/-! ### Taking slots (R12, R35, R37, R41, R102) -/

/-- The slot at the drain pointer becomes EXPANDING and is walked from entry 0 (R12, R35). -/
def State.takeReady (s : State) (x : Slot) : State :=
  let s := s.onDbm (fun d => { (d.setSlot 0 (fun y => { y with state := .expanding })) with recovered := d.recovered + x.outcome.getD 0 })
  s.onRx (fun r => { r with history := [], sinceReset := 0, entry := 0, offset := 0, object := x.first.getD 0 })

/-- The read ends at a FAILED slot, which is freed once the completion is sent; the assembly goes, the history and the index position
stay as they stand (R12, R34, R37, R41, R102). -/
def State.endsFailed (s : State) (x : Slot) : State :=
  let first := (s.rx.assembly.map Assembly.object).getD s.rx.object
  let s := s.complete .mediumError { count := s.cu.count, object := first, failedDataset := x.dataset, outcome := x.outcome.getD 0 }
  (s.onDbm Dbm.freeOldest).onRx (fun r => { r with assembly := none })

/-- A READY slot taken with a record standing that its first entry should continue (R37): one that does not ends the record
in the slot taken. The model's choice: the running object number then goes up with the record that ends (log 50). -/
def State.takeContinued (s : State) (x : Slot) (a : Assembly) (first : EntryKind) (limit : Nat) : State :=
  if first.continues then s.takeReady x else (s.takeReady x).recordEnds { a with fault := true } limit

/-- The Record Expander takes the slot at the drain pointer (R12, R37, R41). The model's choice: the first undelivered object of
NOT_READY is the one being assembled, otherwise the logical position (R102 says which only for MEDIUM_ERROR, log 50). -/
def State.takeSlot (s : State) : State :=
  match s.reading with
  | none => s
  | some (_, limit) =>
    if s.rx.sending.isSome then s
    else match s.dbm.slots with
      | x :: _ =>
        match x.state with
        | .ready =>
          let base := s.dbm.base 0
          let continues := (s.dbm.dram.trailer base).continues
          let k := (s.dbm.dram.entry base 0).kind
          match s.rx.assembly with
          | none => s.takeReady x
          | some a =>
            if !continues then (s.onRx (fun r => { r with assembly := none })).takeReady x
            else if x.first.getD 0 = a.object then s.takeContinued x a k limit
            else
              let s := s.recordEnds { a with fault := true } limit
              if s.reading.isNone ∨ s.rx.sending.isSome then s else s.takeReady x
        | .failed => s.endsFailed x
        | _ => s
      | [] =>
        match s.rdr.activity with
        | .ended .endOfData => (s.onRx (fun r => { r with assembly := none })).readCompletes .eod s.pu.object
        | .ended .fault => s.readCompletes .notReady ((s.rx.assembly.map Assembly.object).getD s.pu.object)
        | _ => s

end Sys2Proof.Machine
end

