-- ==== Sys2Proof/Machine/Position.lean ====
section
/-!
DEFINITION. Position.lean: the trailer scan (R113, R114), what it decides for a locate (R115), a space (R116), the
resolution of R107, dataset D of a truncating write (R118) and the locate before a read (R104), and its interruption (R117).
-/
namespace Sys2Proof.Machine

/-! ### What a descriptor tells (R113) -/

/-- The first object starting in a dataset. -/
def Descriptor.starting (d : Descriptor) : Nat := d.first + if d.continues then 1 else 0

/-- How many objects start in a dataset, from its index. -/
def startingCount (kinds : List EntryKind) : Nat :=
  kinds.length - (match kinds with | k :: _ => if k.continues then 1 else 0 | [] => 0)

/-- One past the last object starting in a dataset whose index is proven. -/
def Descriptor.ending (d : Descriptor) : Option Nat := d.kinds.map (fun ks => d.starting + startingCount ks)

/-- The filemarks in a dataset whose index is proven, as object numbers in order. -/
def Descriptor.marks (d : Descriptor) : Option (List Nat) :=
  d.kinds.map (fun ks => (objectsOf d.first ks).filterMap (fun x => if x.2 == .filemark then some x.1 else none))

/-- One past the last object of a dataset: its first object number plus its completing entries (R114). -/
def Descriptor.endObject (d : Descriptor) : Option Nat :=
  d.kinds.map (fun ks => d.first + (ks.filter EntryKind.completes).length)

/-- An object is among those starting in a dataset whose index is proven. -/
def Descriptor.holds (d : Descriptor) (o : Nat) : Bool :=
  match d.ending with
  | some e => decide (d.starting ≤ o) && decide (o < e)
  | none => false

/-- A descriptor inserted in dataset order; a dataset already proven takes a newly proven index (R114). -/
def insertProven (d : Descriptor) : List Descriptor → List Descriptor
  | [] => [d]
  | x :: xs =>
    if d.dataset < x.dataset then d :: x :: xs
    else if d.dataset = x.dataset then (if x.kinds.isSome then x else { x with kinds := d.kinds }) :: xs
    else x :: insertProven d xs

/-! ### Verdicts -/

/-- What the descriptors proven so far say of a scan's purpose. -/
inductive Verdict where
  | goOn
  | earlier                                   -- the scan is started again before its start (R115 step 3)
  | need (dataset : Nat)                      -- a descriptor or index is needed that is not proven (R114)
  | placed (anchor : Nat × Loc)               -- the object is placed (R115 step 4)
  | dataset (d : Descriptor)                  -- dataset D is found (R118)
  | counted (filemarks : Nat)                 -- the filemarks before the object placed (R116)
  | ends (code : Code) (object residual : Nat)
  deriving DecidableEq, Repr

/-- The last proven dataset whose first starting object is at or below an object, and the next proven after it. -/
def around (o : Nat) : List Descriptor → Option (Descriptor × Option Descriptor)
  | [] => none
  | x :: xs =>
    if o < x.starting then none
    else match around o xs with
      | some r => some r
      | none => some (x, xs.head?)

/-- The first dataset passed unproven after a dataset number. -/
def Scan.unprovenAfter (c : Scan) (n : Nat) : Option Unproven := c.unproven.find? (fun u => decide (n < u.dataset))

/-- The first dataset passed unproven before the first one proven. -/
def Scan.skipped (c : Scan) : Option Unproven :=
  c.unproven.find? (fun u => (c.proven.head?.map (fun d => decide (u.dataset < d.dataset))).getD true)

/-- The object is placed: the earliest dataset that may hold it, with the span start of its first copy (R115 steps 3, 4). An
object that could only lie in a dataset passed unproven needs that dataset's descriptor: one before the first proven, or one
before a known EOD with none proven after it. `bound`: the EOD object once every dataset before the EOD has been passed. -/
def Scan.place (c : Scan) (bound : Option Nat) (o : Nat) : Verdict :=
  match around o c.proven with
  | none =>
    if c.proven.isEmpty then .goOn
    else if !c.fromStart then .earlier
    else match c.skipped, c.proven.head? with
      | some u, _ => .need u.dataset
      | none, some d => .placed (d.dataset, d.start)
      | none, none => .goOn
  | some (x, next) =>
    if x.holds o then .placed (x.dataset, x.start)
    else match next, c.unprovenAfter x.dataset with
      | some _, some u => if x.kinds.isSome then .placed (u.dataset, u.start) else .placed (x.dataset, x.start)
      | some _, none => .placed (x.dataset, x.start)
      | none, u =>
        if !(bound.map (fun b => decide (o < b))).getD false then .goOn
        else match u with
          | some u => .need u.dataset
          | none => .placed (x.dataset, x.start)

/-- The dataset that holds the start of an object, exactly (R118). -/
def Scan.exact (c : Scan) (bound : Option Nat) (o : Nat) : Verdict :=
  match around o c.proven with
  | none =>
    if c.proven.isEmpty then .goOn
    else if !c.fromStart then .earlier
    else match c.skipped with
      | some u => .need u.dataset
      | none => .goOn
  | some (x, next) =>
    if x.holds o then .dataset x
    else match next with
      | some y =>
        if y.dataset = x.dataset + 1 then .dataset x
        else .need (x.dataset + 1)
      | none =>
        if (bound.map (fun b => decide (o < b))).getD false then
          match c.unprovenAfter x.dataset with
          | some u => .need u.dataset
          | none => .dataset x
        else .goOn

/-- A copy of a dataset or of one after it has closed in this scan, so the dataset has been passed. -/
def Scan.passed (c : Scan) (n : Nat) : Bool := (c.highest.map (fun h => decide (n ≤ h))).getD false

/-- The filemarks before the EOD, from the Position Unit's count or the last dataset's index (R116). `eod`: last dataset,
EOD object and filemarks before it. -/
def Scan.total (c : Scan) (eod : Option Nat × Nat × Option Nat) : Verdict :=
  match eod.2.2, eod.1 with
  | some fm, _ => .counted fm
  | none, none => .counted 0
  | none, some n =>
    match c.proven.find? (fun d => d.dataset == n) with
    | some d => match d.marks with
      | some ms => .counted (d.filemarks + ms.length)
      | none => .need n
    | none => if c.passed n then .need n else .goOn

/-- The EOD object of a known EOD once its last dataset has been proven or passed: no dataset follows those met. `eod`: last
dataset and EOD object. -/
def Scan.bound (c : Scan) (eod : Option (Option Nat × Nat)) : Option Nat :=
  match eod with
  | some (none, o) => some o
  | some (some n, o) => if c.passed n then some o else none
  | none => none

/-- The filemarks before an object, from the dataset that holds it (R116). -/
def Scan.count (c : Scan) (eod : Option (Option Nat × Nat × Option Nat)) (o : Nat) : Verdict :=
  let bound := c.bound (eod.map (fun e => (e.1, e.2.1)))
  let within : Verdict := match c.exact bound o with
    | .dataset x => match x.marks with
      | some ms => .counted (x.filemarks + (ms.filter (fun f => decide (f < o))).length)
      | none => .need x.dataset
    | v => v
  match eod with
  | some e => if e.2.1 ≤ o then c.total e else within
  | none => within

/-- The filemarks in a range of objects, from the datasets that may hold them. -/
inductive Sweep where
  | more | need (dataset : Nat) | found (marks : List Nat)
  deriving DecidableEq, Repr

/-- What a scan knows of its partition's EOD: last dataset, EOD object and the filemarks before it. -/
abbrev EndSeen := Option (Option Nat × Nat × Option Nat)

/-- The partition is known to hold no dataset. -/
def EndSeen.empty (e : EndSeen) : Bool := (e.map (fun x => x.1.isNone)).getD false

/-- A dataset is known to be the partition's last. -/
def EndSeen.last (e : EndSeen) (n : Nat) : Bool := (e.map (fun x => x.1 == some n)).getD false

/-- What follows the last proven dataset that does not settle a space: once every dataset before a known EOD has been
passed, the one passed unproven after it is needed. -/
def Scan.beyond (c : Scan) (eod : EndSeen) (d : Descriptor) : Sweep :=
  match c.bound (eod.map (fun e => (e.1, e.2.1))), c.unprovenAfter d.dataset with
  | some _, some u => .need u.dataset
  | _, _ => .more

/-- The filemarks among the objects `lo` up to `hi - 1` (R116): the descriptor of each dataset that may hold one of them is
needed, and the index of each of these that holds filemarks, which the next proven dataset's greater count shows, or the end
of data after it. `first`: the first filemark settles the space. -/
def Scan.sweep (c : Scan) (eod : EndSeen) (lo hi : Nat) (first : Bool) : List Nat → List Descriptor → Sweep
  | acc, [] => if eod.empty then .found acc else .more
  | acc, d :: rest =>
    let within := (d.marks.getD []).filter (fun f => decide (lo ≤ f) && decide (f < hi))
    let full := (d.ending.map (fun e => decide (hi ≤ e))).getD false || (first && !(acc ++ within).isEmpty)
    if hi ≤ d.starting then .found acc
    else match rest with
      | y :: _ =>
        if y.starting ≤ lo then c.sweep eod lo hi first acc rest
        else if full then .found (acc ++ within)
        else if y.dataset ≠ d.dataset + 1 then .need (d.dataset + 1)
        else if d.kinds.isNone && decide (d.filemarks < y.filemarks) then .need d.dataset
        else c.sweep eod lo hi first (acc ++ within) rest
      | [] =>
        if full then .found (acc ++ within)
        else if eod.last d.dataset then (if d.kinds.isSome then .found (acc ++ within) else .need d.dataset)
        else c.beyond eod d

/-- The object numbers of the filemarks from the k-th of the partition on, in the dataset that holds it (R116): its index is
needed and, on the way forward, the descriptor of each dataset met. -/
def Scan.findMark (c : Scan) (eod : EndSeen) (k : Nat) (forward : Bool) : List Descriptor → Sweep
  | [] => if eod.empty then .found [] else .more
  | d :: rest =>
    let marks := (d.marks.getD []).drop (k - 1 - d.filemarks)
    match rest with
    | y :: _ =>
      if forward && y.dataset != d.dataset + 1 then .need (d.dataset + 1)
      else if y.filemarks < k then c.findMark eod k forward rest
      else if d.kinds.isNone then .need d.dataset
      else if marks.isEmpty then .need (d.dataset + 1)
      else .found marks
    | [] =>
      if !marks.isEmpty then .found marks
      else if eod.last d.dataset then (if d.kinds.isSome then .found [] else .need d.dataset)
      else c.beyond eod d

/-- The proven datasets from the one that holds an object on. -/
def fromHolder (o : Nat) (ds : List Descriptor) : List Descriptor :=
  match around o ds with
  | some (x, _) => ds.filter (fun d => decide (x.dataset ≤ d.dataset))
  | none => ds

/-- The count a SPAC names. -/
def State.spaceCount (s : State) : Int :=
  match s.executing with
  | some (.spac _ n) => n
  | _ => 0

/-- A RECORDS space decided from the filemarks of its range (R116). The model's choice: a filemark that a forward space crosses
is not one of the objects spaced, so the residual counts none for it (log 34). -/
def spaceRecordsVerdict (n : Int) (position lo hi : Nat) (end_ : Option Nat) (marks : List Nat) : Verdict :=
  let size := n.natAbs
  if 0 < n then
    match marks.head? with
    | some f => .ends .filemark (f + 1) (size - (f - position))
    | none =>
      match end_ with
      | some e => if e < hi then .ends .eod e (size - (e - position)) else .ends .good hi 0
      | none => .ends .good hi 0
  else
    match marks.getLast? with
    | some f => .ends .filemark (f + 1) (size - (position - (f + 1)))
    | none => if position < size then .ends .bop 0 (size - position) else .ends .good lo 0

/-- A RECORDS space: the filemarks of its range sought in the datasets from the one that holds its lower end (R116). -/
def State.recordsVerdict (s : State) (c : Scan) (eod : EndSeen) (lo hi : Nat) : Verdict :=
  let n := s.spaceCount
  let swept := match c.sweep eod lo hi (decide (0 < n)) [] (fromHolder lo c.proven) with
    | .more => .goOn
    | .need n => .need n
    | .found ms => spaceRecordsVerdict n s.pu.object lo hi (eod.map (fun e => e.2.1)) ms
  match around lo c.proven with
  | some _ => swept
  | none =>
    if c.proven.isEmpty then (if eod.empty then swept else .goOn)
    else if !c.fromStart then .earlier
    else match c.skipped with
      | some u => .need u.dataset
      | none => swept

/-- A FILEMARKS space: the k-th filemark of the partition sought, `fm` lying before the position (R116). The way forward
begins at the dataset that holds the position, or at the entry the scan went on to. -/
def State.filemarkVerdict (s : State) (c : Scan) (eod : EndSeen) (k fm : Nat) : Verdict :=
  let n := s.spaceCount
  let p := s.pu.object
  let ds := if 0 < n then fromHolder p c.proven else c.proven
  let behind := (ds.head?.map (fun d => decide (k ≤ d.filemarks))).getD false
  let jumped := decide (0 < n) && (around p c.proven).isNone && !c.proven.isEmpty
  match c.skipped, behind || jumped with
  | some u, true => .need u.dataset
  | _, _ =>
    if behind then (if c.fromStart then .goOn else .earlier)
    else match c.findMark eod k (decide (0 < n)) ds with
      | .more => .goOn
      | .need n => .need n
      | .found (f :: _) => if 0 < n then .ends .good (f + 1) 0 else .ends .good f 0
      | .found [] =>
        match eod, ds.getLast? with
        | some e, some d => .ends .eod e.2.1 (n.natAbs - (d.filemarks + (d.marks.getD []).length - fm))
        | some e, none => .ends .eod e.2.1 n.natAbs
        | none, _ => .goOn

/-- What a scan has decided (R114 to R118). -/
def State.verdict (s : State) (c : Scan) : Verdict :=
  let e := s.eodHere
  let bound := c.bound (e.map (fun k => (k.last, k.object)))
  let eod : EndSeen := e.map (fun k => (k.last, k.object, s.pu.eodFilemarks.getD s.pu.partition none))
  match c.purpose with
  | .locate o => c.place bound o
  | .resolve => c.place bound s.pu.object
  | .read => c.place bound s.pu.object
  | .truncate => c.exact bound s.pu.object
  | .place o => c.count eod o
  | .spaceRecords lo hi => s.recordsVerdict c eod lo hi
  | .spaceFilemark k fm => s.filemarkVerdict c eod k fm
  | .spaceEnd =>
    match e with
    | some k => .ends .good k.object 0
    | none => .goOn

/-! ### The scan's motion (R113, R114) -/

/-- The first pitch of a directory entry's region (R115 step 2). -/
def State.regionStart (s : State) (r : Nat) : Loc :=
  let l : Loc := ⟨r / 8, (r % 8) * s.generation.region⟩
  if l.wrap = 0 ∧ l.pitch = 0 then ⟨0, Config.headerZone⟩ else l

/-- The directory entries of the current partition that a scan may start from (R115 step 2). -/
def State.entriesHere (s : State) : List DirectoryEntry :=
  match s.pu.directory[s.pu.partition]? with
  | some d => if d.state = .invalid then [] else d.entries
  | none => []

/-- The first data pitch of the current partition. -/
def State.firstPitch (s : State) : Loc := firstDataPitch (s.partitionWraps s.pu.partition).1

/-- A trailer scan started at a directory entry, or at the partition's first data pitch (R113, R115 step 2). -/
def State.scanFrom (s : State) (purpose : ScanFor) (entry : Option DirectoryEntry) : State :=
  let seek := match entry with | some e => s.regionStart e.region | none => s.firstPitch
  let n := (entry.map DirectoryEntry.dataset).getD 0
  let c : Scan :=
    { purpose := purpose, fromStart := entry.isNone, startDataset := n, startObject := (entry.map DirectoryEntry.first).getD 0,
      seek := seek, reached := false, pass := 1, expected := n, closedUnproven := false, capture := none, firstStart := none,
      before := seek, proven := [], unproven := [], highest := none, blankRun := 0, blankStart := none, unseen := none, lastSep := seek }
  ((s.wfYield.onPu (fun u => { u with scan := some c })).onCu (fun u => { u with progress := .scan })).setGoal (.runUp seek false)

/-- The last directory entry whose first object is at or below an object (R115 step 2). -/
def State.entryFor (s : State) (o : Nat) : Option DirectoryEntry :=
  (s.entriesHere.filter (fun e => decide (e.first ≤ o))).getLast?

/-- A scan for an object (R115). -/
def State.scanFor (s : State) (purpose : ScanFor) (o : Nat) : State := s.scanFrom purpose (s.entryFor o)

/-- The scan started again from the entry before its start, or from the first data pitch (R114, R115 step 3). -/
def State.scanEarlier (s : State) (c : Scan) : State :=
  s.scanFrom c.purpose ((s.entriesHere.filter (fun e => decide (e.dataset < c.startDataset))).getLast?)

/-- The scan ends: IDLE, the tape decelerated to STOPPED (R114). -/
def State.scanStops (s : State) : State := (s.onPu (fun u => { u with scan := none })).setGoal .stop

/-- The position left as it was before the command, the anchor cleared (R117); a LOCT or SPAC that leaves it below the EOD
clears the volume-full mark (R60). -/
def State.positionKept (s : State) : State :=
  match s.executing with
  | some (.loct _ _) => (s.onPu (fun u => { u with partition := u.cameFrom, anchor := none })).clearFullMark false
  | some (.spac _ _) => (s.onPu (fun u => { u with anchor := none })).clearFullMark false
  | _ => s.onPu (fun u => { u with anchor := none })

/-- The position set to the last proven boundary, which lies below the EOD (R60, R117). -/
def State.positionProven (s : State) (d : Descriptor) : State :=
  let s := s.setPosition d.starting (some (d.dataset, d.start))
  match s.executing with
  | some (.loct _ _) => s.clearFullMark true
  | some (.spac _ _) => s.clearFullMark true
  | _ => s

/-- The object that the command of a scan seeks, the target of R117 (log 27). -/
def State.scanTarget (s : State) (c : Scan) : Nat :=
  match c.purpose with
  | .locate o => o
  | .spaceRecords lo hi => if 0 < s.spaceCount then hi else lo
  | .spaceFilemark _ _ => if 0 < s.spaceCount then Config.max32 else s.pu.object
  | .spaceEnd => Config.max32
  | _ => s.pu.object

/-- Where a scan that is interrupted leaves the position: the last proven boundary when it lies between the scan's start
and its target, otherwise as it was with the anchor cleared (R117, log 27). The model's choice: the last dataset proven is the one
with the highest number, also where a repeat pass proved another after it (log 27). The locate before a read changes no position (R104);
the search for dataset D is a locate like any other (R118). -/
def State.provenBoundary (s : State) (c : Scan) : State :=
  if c.purpose = .read then s
  else match c.proven.getLast? with
    | some d => if c.startObject ≤ d.starting ∧ d.starting ≤ s.scanTarget c then s.positionProven d else s.positionKept
    | none => s.positionKept

/-- A scan fails: MEDIUM_ERROR, the position by R117 (R114, R115 step 6, R116, R118). The model's choice: a SPAC carries its whole count as
residual, also where R117 moved the position (log 34). -/
def State.scanFails (s : State) (c : Scan) : State :=
  let s := ((s.raise .mediumError).provenBoundary c).scanStops
  match c.purpose with
  | .truncate => s.settleFails
  | .spaceEnd | .place _ | .spaceRecords _ _ | .spaceFilemark _ _ =>
    s.complete .mediumError { count := s.spaceCount.natAbs, object := s.pu.object }
  | _ => s.complete .mediumError { object := s.pu.object }

/-- Where a repeat pass over a dataset begins: the pitch after the last separator before its unproven tape (R114). -/
def Scan.beforeOf (c : Scan) (n : Nat) : Loc :=
  match c.unproven.find? (fun u => u.dataset == n), c.proven.find? (fun d => d.dataset == n) with
  | some u, _ => u.before
  | none, some d => d.before
  | none, none =>
    if n = c.expected then (if c.firstStart.isSome || c.capture.isSome then c.before else c.lastSep) else c.seek

/-- Another pass of a scan from a pitch, or the scan's failure when the passes are spent (R114). -/
def State.passAgain (s : State) (c : Scan) (seek : Loc) : State :=
  if c.pass < 1 + s.cu.policy.retries then
    let c := { c with pass := c.pass + 1, seek := seek, reached := false, capture := none, lastSep := seek }
    (s.onPu (fun u => { u with scan := some c })).setGoal (.runUp seek false)
  else s.scanFails c

/-- A repeat pass over a dataset that is needed (R114); the datasets after it that were passed unproven are passed again in it,
and stay known until then. -/
def State.repeatPass (s : State) (c : Scan) (n : Nat) (seek : Loc) : State :=
  s.passAgain { c with expected := n, closedUnproven := false, firstStart := none, before := seek } seek

/-! ### A scan's outcome -/

/-- The anchor of an object a space came to: at or beyond a known EOD the EOD's (R115 step 1), otherwise the earliest dataset that may
hold it, with the span start of its first copy met (R115 step 4). The model's choice: where the scan has met no copy of that dataset, the
anchor of object 0 is dataset 0 at the partition's first data pitch, and that of any other object the next dataset expected at the pitch after
the last separator (R116, log 69). -/
def State.spaceAnchor (s : State) (c : Scan) (o : Nat) : Nat × Loc :=
  let e := s.eodHere
  let unmet := if o = 0 then (0, s.firstPitch) else (c.expected, c.lastSep)
  match e.filter (fun k => decide (k.object ≤ o)), c.place (c.bound (e.map (fun k => (k.last, k.object)))) o with
  | some k, _ => k.anchor
  | none, .placed a => a
  | none, .need n => ((c.unproven.find? (fun u => u.dataset == n)).map (fun u => (u.dataset, u.start))).getD unmet
  | none, _ => unmet

/-- A LOCT or SPAC that ends at an object (R115, R116). -/
def State.positionEnds (s : State) (code : Code) (o residual : Nat) (anchor : Nat × Loc) : State :=
  let s := (s.scanStops.setPosition o (some anchor)).clearFullMark (code != .eod)
  s.complete code { count := residual, object := o }

/-- Checks 4 and 5 of R107, once the EOD is known or the position is known to lie below it. -/
def State.lateCheck (s : State) : Option Code :=
  let policy := (s.pu.policy.getD s.pu.partition { write := .writable, compress := true }).write
  let atEnd := match s.eodHere with
    | some e => decide (e.object ≤ s.pu.object)
    | none => false
  if policy = .appendOnly ∧ !atEnd then some .appendViolation
  else if s.wf.volumeFull = some s.pu.partition ∧ atEnd then some .volumeFull
  else none

/-- An ERAS at EOD (R119): nothing to write where the mark stands, otherwise the mark is written. -/
def State.eraseAtEnd (s : State) : State :=
  match s.eodHere with
  | some e =>
    if e.onTape then
      (s.setPosition s.pu.object (some e.anchor)).complete .good { object := s.pu.object }
    else (s.onWf (fun w => { w with appendPoint := some e.mark })).eraseMark
  | none => s

/-- A write command or ERAS whose position is at EOD goes on: an append, or the ERAS of R119. -/
def State.writeAtEnd (s : State) : State :=
  match s.executing with
  | some .eras => s.leaveRead.eraseAtEnd
  | _ => s.appendHere.takeUpWriting

/-- Dataset D is found: written fresh, converted from a slot that holds it, or loaded alone first (R16, R118). With direction
WRITE the position is the end of the write path, and no D is sought (R13). -/
def State.settleD (s : State) (c : Cut) (seek : Loc) : State :=
  if c.fresh then s.settleFresh c
  else
    let held := s.dbm.slots.findIdx? (fun x => x.dataset == c.dataset && x.partition == s.pu.partition
      && (x.state == .ready || x.state == .expanding))
    match s.dbm.direction, held with
    | .read, some i => s.convertD c i
    | .write, _ => s
    | _, _ =>
      let s := s.discardRead.setDirection .read
      let s := (s.onPu (fun u => { u with cut := some c })).onCu (fun u => { u with progress := .settleD })
      s.handOver c.dataset seek true

/-- D as the descriptor found gives it (R118). -/
def Descriptor.cut (d : Descriptor) (cutAt : Nat) : Cut :=
  { dataset := d.dataset, start := d.start, first := d.first, continues := d.continues, filemarks := d.filemarks, cutAt := cutAt }

/-- The next part of a SPAC once its position is placed and `fm` filemarks lie before it (R116): a FILEMARKS space goes on from
the latest directory entry whose count does not pass the filemark sought, where that lies ahead; an EOD space scans on forward. -/
def State.spaceOn (s : State) (c : Scan) (fm : Nat) : State :=
  let p := s.pu.object
  let n := s.spaceCount
  let goOn (f : ScanFor) : State := s.onPu (fun u => { u with scan := some { c with purpose := f } })
  let entryBelow (k : Nat) : Option DirectoryEntry := (s.entriesHere.filter (fun e => decide (e.filemarks < k))).getLast?
  match s.executing with
  | some (.spac .records _) =>
    if 0 < n then goOn (.spaceRecords p (p + n.natAbs))
    else s.scanFor (.spaceRecords (p - n.natAbs) p) (p - n.natAbs)
  | some (.spac .filemarks _) =>
    if 0 < n then
      let k := fm + n.natAbs
      match (entryBelow k).filter (fun e => decide (c.expected ≤ e.dataset)) with
      | some e => s.scanFrom (.spaceFilemark k fm) (some e)
      | none => goOn (.spaceFilemark k fm)
    else if fm < n.natAbs then s.positionEnds .bop 0 (n.natAbs - fm) (s.spaceAnchor c 0)
    else
      let k := fm + 1 - n.natAbs
      s.scanFrom (.spaceFilemark k fm) (entryBelow k)
  | some (.spac .eod _) => goOn .spaceEnd
  | _ => s

/-- A verdict carried out, but for the part of a SPAC it may open (R114 to R118). A dataset that is needed and that the pass
under way has still to come to costs no other pass; at end of data (`ended`) it does. The model's choice: the locate of a resolution that
places the position leaves the anchor as it was where check 4 of R107 then refuses the command (log 63). -/
def State.carryOut (s : State) (ended : Bool) (c : Scan) (v : Verdict) : State :=
  match v with
  | .goOn => s
  | .earlier => s.scanEarlier c
  | .need n => if !ended && decide (c.expected ≤ n) then s else s.repeatPass c n (c.beforeOf n)
  | .counted fm => s.spaceOn c fm
  | .ends code o residual => s.positionEnds code o residual (s.spaceAnchor c o)
  | .dataset d => s.scanStops.settleD (d.cut s.pu.object) d.start
  | .placed a =>
    match c.purpose with
    | .locate o => s.positionEnds .good o 0 a
    | .read =>
      let s := s.onPu (fun u => { u with scan := none, anchor := some a })
      (s.onCu (fun u => { u with progress := .reading })).handOver a.1 a.2 false
    | .resolve =>
      match s.lateCheck with
      | some code => s.scanStops.complete code { object := s.pu.object }
      | none => s.onPu (fun u => { u with scan := some { c with purpose := .truncate } })
    | _ => s

/-- What a scan has decided is carried out; a resolution that finds the position below EOD goes on to dataset D, and a
SPAC whose position is placed goes on to its target, each on what is already proven (R107, R116, R118). -/
def State.decideScan (ended : Bool) : Nat → State → State
  | 0, s => s
  | k + 1, s =>
    match s.pu.scan with
    | none => s
    | some c =>
      let v := s.verdict c
      let s' := s.carryOut ended c v
      if s'.pu.scan.isSome ∧ s'.pu.scan.map Scan.purpose ≠ some c.purpose ∧ s'.pu.scan.map Scan.seek = some c.seek
      then State.decideScan ended k s' else s'

/-! ### End of data (R114) -/

/-- A scan that has met end of data with its object not placed, short of an EOD that is known already: the outcome of R115
step 5, the position and the anchor at the EOD; the locate before a read leaves the position unchanged (R104). The model's choice: a
space carries its whole count as residual, a search for dataset D ends as one that could not settle it, and the other locates end with EOD
too (R107, R116, R118, log 52). -/
def State.scanEndsShort (s : State) (c : Scan) (e : EodKnown) : State :=
  match c.purpose with
  | .locate _ => s.positionEnds .eod e.object 0 e.anchor
  | .resolve => ((s.scanStops).setPosition e.object (some e.anchor)).complete .eod { object := e.object }
  | .read => s.scanStops.complete .eod { object := s.pu.object }
  | .truncate => s.scanStops.settleFails
  | .place _ | .spaceRecords _ _ | .spaceFilemark _ _ | .spaceEnd => s.positionEnds .eod e.object s.spaceCount.natAbs e.anchor

/-- At end of data what is proven decides (R114). Where it does not, a scan that began at a directory entry and met no copy starts
earlier; one that proved nothing makes a repeat pass over the first dataset it passed, which may hold its object; any other has
met the end short of a known EOD. -/
def State.decideAtEnd (s : State) (e : EodKnown) : State :=
  let s := s.decideScan true 3
  match s.pu.scan with
  | some c =>
    if !c.reached then s
    else match c.proven, c.unproven with
      | [], u :: _ => s.repeatPass c u.dataset (c.beforeOf u.dataset)
      | [], [] => if c.fromStart then s.scanEndsShort c e else s.scanEarlier c
      | _, _ => s.scanEndsShort c e
  | none => s

/-- The scan has met end of data at a place and the EOD is known: its command is decided there (R104, R107, R115 step 5,
R116). -/
def State.scanAtEnd (s : State) (c : Scan) (e : EodKnown) : State :=
  match c.purpose with
  | .locate o => if e.object ≤ o then s.positionEnds .eod e.object 0 e.anchor else s.decideAtEnd e
  | .resolve =>
    if e.object ≤ s.pu.object then
      let s := (s.scanStops).setPosition e.object (some e.anchor)
      match s.lateCheck with
      | some code => s.complete code { object := s.pu.object }
      | none => s.writeAtEnd
    else s.decideAtEnd e
  | .read =>
    if e.object ≤ s.pu.object then
      (s.scanStops.onPu (fun u => { u with anchor := some e.anchor })).complete .eod { object := s.pu.object }
    else s.decideAtEnd e
  | _ => s.decideAtEnd e

/-- A dataset passed unproven, recorded in dataset order; a repeat pass over it records it again. -/
def insertUnproven (u : Unproven) (us : List Unproven) : List Unproven :=
  us.filter (fun x => decide (x.dataset < u.dataset)) ++ u :: us.filter (fun x => decide (u.dataset < x.dataset))

/-- The scan's expected dataset was passed unproven: it is recorded and the next is expected (R113). One proven in an earlier
pass stays proven (R114). -/
def Scan.passUnproven (c : Scan) : Scan :=
  let u : Unproven := { dataset := c.expected, start := c.firstStart.getD c.before, before := c.before }
  { c with unproven := if c.proven.any (fun d => d.dataset == c.expected) then c.unproven else insertUnproven u c.unproven,
           expected := c.expected + 1, closedUnproven := false, firstStart := none }

/-- End of data met by a trailer scan (R114): the EOD record becomes known, from the last dataset's index, and the
command is decided. -/
def State.scanEnds (s : State) (c : Scan) (place : Loc) (pattern : Bool) : State :=
  let p := s.pu.partition
  let c := if c.closedUnproven then c.passUnproven else c
  let s := s.onPu (fun u => { u with scan := some c })
  match s.eodOf p with
  | some e => s.scanAtEnd c e
  | none =>
    match c.highest with
    | none =>
      if c.fromStart then
        let e : EodKnown := { object := 0, last := none, mark := place, onTape := pattern }
        let s := (s.onPu (fun u => { u with eodFilemarks := u.eodFilemarks.set p (some 0) })).setEod p e
        s.scanAtEnd c e
      else s.scanEarlier c
    | some n =>
      match c.proven.find? (fun d => d.dataset == n) with
      | some d =>
        match d.endObject, d.marks with
        | some o, some ms =>
          let e : EodKnown := { object := o, last := some n, mark := place, onTape := pattern }
          let s := (s.onPu (fun u => { u with eodFilemarks := u.eodFilemarks.set p (some (d.filemarks + ms.length)) })).setEod p e
          s.scanAtEnd c e
        | _, _ => s.repeatPass c n (c.beforeOf n)
      | none => s.repeatPass c n (c.beforeOf n)

/-- An end indication (R114): untrusted while pitches have passed unseen since the last separator. -/
def State.scanIndication (s : State) (c : Scan) (place : Loc) (pattern : Bool) : State :=
  if c.unseen.isSome then s.passAgain c c.lastSep else s.scanEnds c place pattern

/-! ### Captures (R113) -/

/-- A row of the copy being captured (R87, R88, R113): rows 231..239 are kept, every nominal row gives the span start. -/
def Capture.take (l : Loc) (k : Capture) (x : Nat × RowRead) : Capture :=
  let row := x.2.row.toNat
  let store (k : Capture) : Capture :=
    if goodOutcome x.2.outcome && decide (231 ≤ row) && decide (row ≤ 239) && !(k.rows.any (fun r => r.1 == row)) then
      { k with rows := k.rows ++ [(row, x.2.payload)] }
    else k
  if x.2.attempt.toNat = 1 then
    match impliedStart row l, k.start with
    | none, _ => k
    | some t, none => store { k with start := some t }
    | some t, some u =>
      if t = u then store k
      else if t.before u then k
      else store { k with start := some t, rows := [] }
  else
    match k.start with
    | some u => if inRewriteSets u l then store k else k
    | none => k

/-- The captured rows as bytes of the data area. -/
def Capture.area (k : Capture) : Memory :=
  k.rows.foldl (fun m r => m.place (r.1 * Config.rowBytes) Config.rowBytes r.2) []

/-- A row of the capture is GOOD. -/
def Capture.has (k : Capture) (row : Nat) : Bool := k.rows.any (fun r => r.1 == row)

/-- The descriptor a closed copy proves, with its index where that is proven (R113). -/
def Capture.descriptor (k : Capture) (dataset : Nat) (start before : Loc) : Option Descriptor :=
  if k.has 239 then
    let m := k.area
    let t := m.trailer 0
    let lowest := (Config.indexTop - 16 * t.entries) / Config.rowBytes
    let proven := decide (231 ≤ lowest) && ((List.range (240 - lowest)).all (fun i => k.has (lowest + i)))
    some { dataset := dataset, first := t.first, continues := t.continues, entries := t.entries, filemarks := t.filemarks, start := start,
           kinds := if proven then some ((m.entryList 0 t.entries).map IndexEntry.kind) else none, before := before }
  else none

/-- The scan changed. -/
def State.onScan (s : State) (f : Scan → Scan) : State := s.onPu (fun u => { u with scan := u.scan.map f })

/-- The open copy closes at its separator: the descriptor is judged, the dataset reported for the directory (R111, R113). -/
def State.closeScanCopy (s : State) (c : Scan) (k : Capture) : State :=
  let start := k.start.getD k.opened
  let first := c.firstStart.getD start
  let c := { c with capture := none, highest := some (max (c.highest.getD 0) c.expected) }
  match k.descriptor c.expected first c.before with
  | some d =>
    let c := { c with proven := insertProven d c.proven, expected := c.expected + 1, closedUnproven := false, firstStart := none,
                      unproven := c.unproven.filter (fun u => u.dataset != d.dataset) }
    let s := s.onPu (fun u => { u with scan := some c })
    let p := s.pu.partition
    let s := s.proveDataset p d.dataset d.first d.filemarks start false
    let s := match d.marks with
      | some ms => s.learnFilemarks p d.dataset (d.filemarks + ms.length)
      | none => s
    s.decideScan false 3
  | none => s.onPu (fun u => { u with scan := some { c with closedUnproven := true, firstStart := some first } })

/-- A copy of the expected dataset opens (R87, R113). -/
def Scan.openCopy (c : Scan) (l : Loc) : Scan :=
  { c with capture := some { opened := l, start := none, rows := [] },
           before := if c.firstStart.isSome then c.before else c.lastSep }

/-- Rows of the expected dataset taken into its capture. -/
def Scan.takeRows (c : Scan) (l : Loc) (rows : List (Nat × RowRead)) : Scan :=
  let c := if c.capture.isSome then c else c.openCopy l
  { c with capture := c.capture.map (fun k => rows.foldl (Capture.take l) k) }

/-- The open copy is unclosed: end of data at its span start (R89, R113). -/
def State.scanUnclosed (s : State) (c : Scan) (k : Capture) : State := s.scanIndication c (k.start.getD k.opened) false

/-- A row set at the scan (R113, R114, log 38). The model's choice: a row with a bad header adds nothing to the Reader's
header-error count, which R82 and R85 give the Reader (log 49). -/
def State.scanRows (s : State) (c : Scan) (l : Loc) (rows : Vector (Option RowRead) 16) : State :=
  let c := { c with blankRun := 0, blankStart := none }
  let good := goodRows rows l.wrap
  let of (n : Nat) : List (Nat × RowRead) := good.filter (fun x => x.2.dataset.toNat == n)
  let keep (c : Scan) : State := s.onPu (fun u => { u with scan := some c })
  if !(of c.expected).isEmpty then keep (c.takeRows l (of c.expected))
  else if good.isEmpty then keep c
  else match c.capture with
    | some k => (keep c).scanUnclosed c k
    | none =>
      let above := good.any (fun x => decide (c.expected < x.2.dataset.toNat))
      if !above then keep c
      else if c.closedUnproven && !(of (c.expected + 1)).isEmpty then keep (c.passUnproven.takeRows l (of (c.expected + 1)))
      else (keep c).scanIndication c l false

/-- A separator at the scan (R113). -/
def State.scanSeparator (s : State) (c : Scan) (l : Loc) : State :=
  let old := c.capture
  let c := { c with blankRun := 0, blankStart := none, unseen := none, lastSep := s.after l }
  match old with
  | some k => s.closeScanCopy c k
  | none => s.onPu (fun u => { u with scan := some c })

/-- An end pattern, or a finished blank run, at the scan (R114). -/
def State.scanEndMet (s : State) (c : Scan) (place : Loc) (pattern : Bool) : State :=
  match c.capture with
  | some k => s.scanUnclosed c k
  | none => s.scanIndication c place pattern

/-- A blank pitch at the scan (R84, R114). -/
def State.scanBlank (s : State) (c : Scan) (l : Loc) : State :=
  let start := c.blankStart.getD l
  let c := { c with blankRun := min 64 (c.blankRun + 1), blankStart := some start }
  let s := s.onPu (fun u => { u with scan := some c })
  if c.blankRun < 64 then s else s.scanEndMet c start false

/-- The last pitch of a wrap has passed under the scan (R113, R114). -/
def State.scanWrapEnd (s : State) (wrap : Nat) : State :=
  match s.pu.scan with
  | none => s
  | some c =>
    if !c.reached then s
    else match c.capture, c.unseen with
      | some k, none => s.scanUnclosed c k
      | _, _ =>
        if wrap < s.lastWrap then s.askWrapTurn (wrap + 1)
        else s.scanEndMet c ⟨wrap, s.pitches - 1⟩ false

/-- A pitch classified by the trailer scan (R113). -/
def State.scanPitch (s : State) (l : Loc) (p : PitchContent) : State :=
  match s.pu.scan with
  | none => s
  | some c =>
    if !c.reached then s
    else
      let s := match p with
        | .rowSet rows => s.scanRows c l rows
        | .separator => s.scanSeparator c l
        | .endPattern => s.scanEndMet { c with blankRun := 0, blankStart := none } l true
        | .blank => s.scanBlank c l
      if l.pitch + 1 = s.pitches then s.scanWrapEnd l.wrap else s

/-- A pitch passed unclassified under the scan (R114). -/
def State.scanUnseen (s : State) (l : Loc) : State :=
  s.onScan (fun c => if c.reached && c.unseen.isNone then { c with unseen := some l } else c)

/-- The tape has come to a place: a scan's seek pitch it reaches begins the classification (R113). -/
def State.scanAt (s : State) (l : Loc) : State :=
  match s.pu.scan with
  | some c =>
    if !c.reached && l.wrap == c.seek.wrap && decide (c.seek.pitch ≤ l.pitch) && s.rtc.motion == .streaming then
      s.onScan (fun c => { c with reached := true, unseen := none, blankRun := 0, blankStart := none })
    else s
  | none => s

end Sys2Proof.Machine
end

