-- ==== Sys2Proof/Machine/Cartridge.lean ====
section
/-!
DEFINITION. Cartridge.lean: seating and ejection (R124), threading (R125), tensioning (R126), unthreading and recovery
(R128 to R130), tension (R138), travel (R140), the cleaning run (R141, R142), and what a reset makes of the sensors (R123,
R128).
-/
namespace Sys2Proof.Machine

/-- What the Position Unit holds once an UNLD completes: everything at its reset value but the policy (R103). -/
def Pu.unloaded (u : Pu) : Pu := { Pu.reset with policy := u.policy }

/-- What the thread path sensor shows. -/
def State.setLeader (s : State) (l : Leader) : State := s.onSensors (fun x => { x with leader := l })

/-- A timer started from 0. -/
def Timer.start (period : Nat) : Option Timer := some { elapsed := 0, period := period }

/-- The cartridge is pushed out: EJECTED, the executing UNLD GOOD (R124, R129, R130). -/
def State.eject (s : State) : State :=
  let s := (s.setCartridge .ejected none).onRtc (fun r => { r with threadTimer := none, windTimer := none, threader := .idle, goal := .none })
  let s := (s.onPu Pu.unloaded).onWf (fun w => { w with volumeFull := none })
  s.when s.unldExecuting (·.complete .good {})

/-- The threader starts: THREADING, attempt 1, the thread timer from 0 (R125). -/
def State.beginThreading (s : State) : State :=
  let s := s.setCartridge .threading none
  (s.onRtc (fun r => { r with attempts := 1, threadTimer := Timer.start Config.threadMs, threader := .threading })).setLeader .between

/-- TENSIONING: the tension timer from 0, the head stepped to wrap 0 (R126). The model's choice: no direction of travel is present
in it (R123, log 36). -/
def State.beginTensioning (s : State) (for_ : TensionFor) : State :=
  let s := s.setCartridge .tensioning none
  s.onRtc (fun r => { r with tensionTimer := Timer.start Config.tensionMs, tensionFor := for_, threadTimer := none, threader := .idle,
                             stepTo := some 0 })

/-- A seated cartridge by its type (R124): a data cartridge waits, a cleaning cartridge starts its run, an UNKNOWN one is
pushed out. -/
def State.seatedByType (s : State) (t : TypeCode) : State :=
  match t with
  | .dataA | .dataB => s.setCartridge .seated none
  | .cleaning => s.beginThreading
  | .unknown => (s.setCartridge .ejected none).raise .loadFault

/-- The return of the leader begins: the monitor disarmed, attempt 1, the thread timer from 0 (R129, R130). -/
def State.beginReturn (s : State) : State :=
  (s.onRtc (fun r => { r with armed := false, faultTimer := none, attempts := 1, threadTimer := Timer.start Config.threadMs,
                              threader := .returning, goal := .none, travel := none })).setLeader .between

/-- Phase UNTHREAD of UNLOADING or CLEANING (R129, R141). -/
def State.beginUnthread (s : State) : State := (s.setCartridge s.rtc.cartridge (some .unthread)).beginReturn

/-- A fault leaves the cartridge FAULTED (R130). -/
def State.faulted (s : State) : State :=
  let s := s.setCartridge .faulted none
  (s.onRtc (fun r => { r with threadTimer := none, tensionTimer := none, faultTimer := none, windTimer := none, threader := .idle,
                              armed := false, goal := .none, travel := none })).dropVolume

/-- A thread fault: THREAD_FAULT, FAULTED, and the executing LOAD or UNLD, which completes (R125, R129, R130); an UNLD that
completes leaves the Position Unit at its reset values (R103). -/
def State.threadFault (s : State) : State :=
  let unld := s.unldExecuting
  let s := ((s.faulted).raise .threadFault).when unld (·.onPu Pu.unloaded)
  s.when (s.loadExecuting || unld) (·.complete .threadFault {})

/-- The recovery unthread of an UNLD in FAULTED: the tape is wound back onto the cartridge reel (R123, R130). The model's choice: where a
recovery that ABORT left going on is still winding or returning the leader, it is begun anew, its timers stopped (log 54); and the motion
state, for which R123 has no winding state, stays as it stood, STOPPED or SETTLING, with direction REVERSE present (log 36). -/
def State.recoverUnthread (s : State) : State :=
  let s := s.onCu (fun c => { c with progress := .sequence })
  if s.sensors.leader = .home then s.eject
  else s.onRtc (fun r => { r with windTimer := Timer.start Config.windMs, attempts := 0, travel := some .reverse, threadTimer := none,
                                  threader := .idle })

/-- The thread timer reaches 6,000 ms (R125, R129). -/
def State.threadExpires (s : State) : State :=
  if s.rtc.threadTimer.isNone then s
  else match s.rtc.threader, s.rtc.attempts with
    | .threading, 1 => s.onRtc (fun r => { r with threader := .withdrawing, threadTimer := Timer.start Config.threadMs })
    | .returning, 1 => s.onRtc (fun r => { r with attempts := 2, threadTimer := Timer.start Config.threadMs })
    | _, _ => s.threadFault

/-- The leader is on the take-up reel (R125). -/
def State.leaderTakenUp (s : State) : State :=
  let s := s.setLeader .takeUp
  if s.rtc.cartridge = .threading ∧ s.rtc.threader = .threading ∧ s.rtc.threadTimer.isSome then
    s.beginTensioning (if s.rtc.typeCode = some .cleaning then .clean else .headerRead)
  else s

/-- The leader is home in the cartridge (R125, R129, R130). -/
def State.leaderIsHome (s : State) : State :=
  let s := s.setLeader .home
  if s.rtc.threadTimer.isNone then s
  else match s.rtc.threader with
    | .withdrawing =>
      (s.onRtc (fun r => { r with attempts := 2, threader := .threading, threadTimer := Timer.start Config.threadMs })).setLeader .between
    | .returning => s.eject
    | _ => s

/-- TENSIONING completes (R126, R141). -/
def State.tensioned (s : State) (place : Nat) : State :=
  if s.rtc.cartridge ≠ .tensioning then s
  else
    let s := s.onRtc (fun r => { r with tensionTimer := none, armed := true, headWrap := some 0, stepTo := none, place := some place,
                                        moved := false })
    match s.rtc.tensionFor with
    | .headerRead => (s.setCartridge .headerRead none).beginHeaderRead
    | .clean =>
      let s := s.setCartridge .cleaning (some .run)
      (s.onRtc (fun r => { r with cleanLength := s.hm.policy.length, runMetres := 0, remainder := 0 })).setGoal .clean
    | .rewind => (s.setCartridge .unloading (some .rewind)).setGoal (.shuttle ⟨0, 0⟩ .unloadRewind false)

/-- The tension timer reaches 2,000 ms (R126): the head step of the TENSIONING that failed no longer sets the head wrap (R123). -/
def State.tensionExpires (s : State) : State :=
  if s.rtc.tensionTimer.isNone then s
  else
    let load := s.loadExecuting
    let unld := s.unldExecuting
    let s := ((s.faulted).onRtc (fun r => { r with stepTo := none })).raise .tensionFault
    if load then s.complete .tensionFault {} else if unld then s.recoverUnthread else s

/-- The rewind of an UNLD has come to rest: the seal of R122 is decided, and a recovered cartridge of another type passes
over HEADER_WRITE (R128, R129). -/
def State.rewound (s : State) : State :=
  if s.rtc.typeCode = some .dataA ∨ s.rtc.typeCode = some .dataB then
    let s := s.setCartridge .unloading (some .headerWrite)
    let s := s.onRtc (fun r => { r with moved := false })
    let seals := s.pu.header == some .opened && s.rtc.writeProtect != some true && s.pu.eod.all Option.isSome
      && s.pu.directory.all (fun d => d.state == .valid)
    if seals then s.beginHeader .seal 1 else s.beginUnthread
  else s.beginUnthread

/-- A whole metre counted (R140, R167, R141); the second part says that the run length is reached. -/
def State.wholeMetre (s : State) : State × Bool :=
  match s.rtc.typeCode with
  | some .cleaning =>
    if s.rtc.cartridge = .cleaning ∧ s.rtc.phase = some .run then
      let s := s.onRtc (fun r => { r with runMetres := satAdd Config.max16 r.runMetres 1 })
      (s, decide (s.rtc.cleanLength ≤ s.rtc.runMetres))
    else (s, false)
  | some .dataA | some .dataB => ((s.onRtc (fun r => { r with loadMetres := satAdd Config.max32 r.loadMetres 1 })).countMetre, false)
  | _ => (s, false)

/-- The RUN phase ends; the tape decelerates, and is then rewound and unthreaded (R141). -/
def State.endRun (s : State) : State :=
  (s.setCartridge .cleaning (some .rewind)).setGoal (.shuttle ⟨0, 0⟩ .cleanRewind false)

/-- The run completed: credit is given (R141, R142, R165). -/
def State.runCompletes (s : State) : State := s.endRun.creditCleaning

/-- The run expired: no credit (R141, R142, R166). -/
def State.runExpires (s : State) : State := s.endRun.raise .cleaningExpired

/-- Travel in whole millimetres: each 1,000 of them counts a metre (R140). The first argument bounds the metres. -/
def State.travelled : Nat → State → State
  | 0, s => s
  | k + 1, s =>
    if s.rtc.remainder < 1000 then s
    else
      let (s, reached) := (s.onRtc (fun r => { r with remainder := r.remainder - 1000 })).wholeMetre
      State.travelled k (s.when reached State.runCompletes)

/-- The reels turn: their travel counts, and a device reset brakes them (R123, R140). -/
def Rtc.turning (r : Rtc) : Bool :=
  r.motion == .accelerating || r.motion == .streaming || r.motion == .decelerating || r.motion == .shuttling
    || r.windTimer.isSome || r.cartridge == .tensioning

/-- Millimetres of tape travel added to the remainder while the reels turn, whatever the cartridge's type (R140). -/
def State.travel (s : State) (mm : Nat) : State :=
  if s.rtc.turning then State.travelled (mm / 1000 + 1) (s.onRtc (fun r => { r with remainder := r.remainder + mm })) else s

/-! ### Resets (R20, R123, R128, R170, R183) -/

/-- The Reel and Threader Controller with what the sensors show at a reset (R123). -/
def Rtc.found (x : Sensors) (turning : Bool) : Rtc :=
  { Rtc.reset with typeCode := if x.seated then some x.typeCode else none, writeProtect := if x.seated then some x.tab else none,
                   motion := if turning then .settling else .stopped,
                   settleTimer := if turning then Timer.start Config.settleMs else none }

/-- The cartridge state from the sensors, and what follows from it (R124, R128). The model's choice: LOAD_FAULT for a cartridge of
type UNKNOWN found threaded is latched at the reset (log 54). -/
def State.foundCartridge (s : State) : State :=
  let x := s.sensors
  if !x.seated then s.setCartridge .empty none
  else if x.leader = .home then s.seatedByType x.typeCode
  else
    let s := s.setCartridge .threadedUnknown none
    match x.typeCode with
    | .dataA | .dataB => s
    | .cleaning => s.beginTensioning .rewind
    | .unknown => (s.beginTensioning .rewind).raise .loadFault

/-- Device reset (R20, R21, R34, R44, R67, R82, R103, R123, R144, R155, R170, R171, R175, R184): the Head Monitor keeps all
but its policy; DRAM contents, what was already handed over and what lies on tape are left, and the row set or pattern pitch in
flight is cut off (R66, R152). -/
def State.deviceReset (s : State) (x : Sensors) : State :=
  let turning := s.rtc.turning
  let s := s.cutOff
  let s : State :=
    { s with spu := { Spu.reset with out := s.spu.out }, cu := .reset, rc := .reset, rx := .reset, dbm := .reset s.dbm.dram, wf := .reset,
             rdr := .reset, sm := .reset, pu := .reset, rtc := Rtc.found x turning, sv := .reset, eu := .reset, sensors := x,
             hm := { s.hm with policy := .default } }
  s.recomputeHead.foundCartridge

/-- Power-on reset: as a device reset, with the Head Monitor at its power-on values and the tape at rest (R123, R156). The
model's choice: what was being written is cut off as R66 states for a device reset (log 5). -/
def State.powerOn (s : State) (x : Sensors) : State :=
  let s := s.cutOff
  let s : State :=
    { s with spu := .reset, cu := .reset, rc := .reset, rx := .reset, dbm := .reset s.dbm.dram, wf := .reset,
             rdr := .reset, sm := .reset, pu := .reset, rtc := Rtc.found x false, sv := .reset, eu := .reset, sensors := x, hm := .reset }
  s.foundCartridge

end Sys2Proof.Machine
end

