-- ==== Sys2Proof/Machine/Control.lean ====
section
/-!
DEFINITION. Control.lean: the Command Unit's execution of queued commands (R175, R177): the checks of R107 and R121, the
flush (R14, R15), each command's own work, what moves an executing command on, ABORT (R182), the emergency stop (R139).
-/
namespace Sys2Proof.Machine

/-! ### Own work of the commands (R177) -/

/-- The progress of the executing command set. -/
def State.setProgress (s : State) (p : Progress) : State := s.onCu (fun c => { c with progress := p })

/-- LOAD begins its own work (R125, R128, R167, R177). -/
def State.runLoad (s : State) : State :=
  let start (s : State) : State :=
    (s.loadBegins.onRtc (fun r => { r with loadMetres := 0, remainder := 0 })).setProgress .sequence
  match s.rtc.cartridge with
  | .ready => s.complete .good { flags := s.loadFlags }
  | .seated => (start s).beginThreading
  | .threadedUnknown => (start s).beginTensioning .headerRead
  | _ => s.complete .notReady {}

/-- UNLD begins its own work; from READY the flush lies behind it. The volume-full mark is cleared (R13, R60, R124, R128, R129,
R130, R177). -/
def State.runUnld (s : State) : State :=
  let s := s.leaveRead.onWf (fun w => { w with volumeFull := none })
  match s.rtc.cartridge with
  | .seated => (s.setProgress .sequence).eject
  | .ejected => (s.onPu Pu.unloaded).complete .good {}
  | .faulted => s.recoverUnthread
  | .threadedUnknown => (s.setProgress .sequence).beginTensioning .rewind
  | .ready =>
    let s := s.setProgress .sequence
    let s := s.setCartridge .unloading (some .rewind)
    (s.wfYield.onRtc (fun r => { r with moved := false })).setGoal (.shuttle ⟨0, 0⟩ .unloadRewind false)
  | _ => s.complete .notReady {}

/-- RWND's own work (R115). -/
def State.runRwnd (s : State) : State :=
  let s := s.leaveRead.wfYield
  let s := s.onPu (fun u => { u with partition := 0, object := 0, anchor := some (0, ⟨0, Config.headerZone⟩) })
  ((s.clearFullMark false).setProgress (.shuttle .good)).setGoal (.shuttle ⟨0, 0⟩ .rwnd false)

/-- A shuttle to the mark position of the known EOD, ending with a status (R115 step 1, R116). -/
def State.shuttleToEnd (s : State) (e : EodKnown) (code : Code) : State :=
  ((s.wfYield).setProgress (.shuttle code)).setGoal (.shuttle e.mark .locate false)

/-- LOCT's own work (R115). A mark or header span still in hand is given up, and its pitch cut off, before another partition becomes
current (R152, log 25). -/
def State.runLoct (s : State) (p o : Nat) : State :=
  let s := s.leaveRead.wfYield
  let s := s.onPu (fun u => { u with cameFrom := u.partition, partition := p })
  match s.eodHere with
  | some e => if e.object ≤ o then s.shuttleToEnd e .eod else s.scanFor (.locate o) o
  | none => s.scanFor (.locate o) o

/-- SPAC's own work: a count of 0 completes at once, a known EOD is shuttled to, and any other space first places the logical position
(R116). -/
def State.runSpac (s : State) (k : SpaceKind) (n : Int) : State :=
  let s := s.leaveRead
  let p := s.pu.object
  match k with
  | .eod =>
    match s.eodHere with
    | some e => s.shuttleToEnd e .good
    | none => s.scanFor (.place p) p
  | _ =>
    if n = 0 then s.complete .good { object := p }
    else
      match s.eodHere with
      | some e => if e.object ≤ p ∧ 0 < n then s.shuttleToEnd e .eod else (s.scanFor (.place p) p).decideScan false 3
      | none => s.scanFor (.place p) p

/-- READ_RECORDS's own work, with read-ahead ON from its beginning (R96, R101, R104). -/
def State.runRrec (s : State) : State :=
  let kept := s.dbm.direction == .read
    && (!s.dbm.slots.isEmpty || s.rdr.moving || s.rdr.activity == .paused)
  let s := (s.setDirection .read).onRdr (fun r => { r with readAhead := true })
  if kept then s.setProgress .reading
  else
    let ended := match s.eodHere with
      | some e => decide (e.object ≤ s.pu.object)
      | none => false
    if ended then s.complete .eod { object := s.pu.object }
    else
      let position := s.pu.object
      let s := s.onRx (fun x => { Rx.giveUp x with object := position })
      match s.pu.anchor with
      | some (n, seek) =>
        ((s.setProgress .reading).onRdr (fun r => { Rdr.stopped r with readAhead := true })).handOver n seek false
      | none => (s.onRdr (fun r => { Rdr.stopped r with readAhead := true })).scanFor .read position

/-! ### Write checks (R107), truncation (R118), ERAS (R119), DPAR (R121) -/

/-- The write policy of a partition. -/
def State.writePolicy (s : State) (p : Nat) : WritePolicy := (s.pu.policy.getD p { write := .writable, compress := true }).write

/-- Checks 1 to 3 of R107. -/
def State.earlyCheck (s : State) : Option Code :=
  if s.rtc.writeProtect = some true then some .writeProtected
  else if s.writePolicy s.pu.partition = .readOnly then some .writeProtected
  else if s.pu.volume = .headerFault then some .volumeFault
  else none

/-- Dataset D sought for a position below EOD; READY slots are kept while it is sought (R16, R118). -/
def State.seekD (s : State) : State := (s.dropLoading.onRdr Rdr.stopped).scanFor .truncate s.pu.object

/-- A write command or an ERAS that passed checks 1 to 3: the EOD resolved where it is not known, checks 4 and 5, then an
append, or the search for D (R107, R118, R119). -/
def State.checkedWrite (s : State) : State :=
  match s.eodHere with
  | none => (s.leaveRead.onRdr Rdr.stopped).scanFor .resolve s.pu.object
  | some e =>
    match s.lateCheck with
    | some code => s.complete code { object := s.pu.object }
    | none => if e.object ≤ s.pu.object then s.writeAtEnd else s.seekD

/-- ERAS's own work after its checks and flush (R119). -/
def State.runEras (s : State) : State := s.leaveRead.checkedWrite

/-- The checks of R121, and the sizes in wraps when they pass. -/
def State.dparCheck (s : State) (count : Nat) (sizes : List Nat) : Code ⊕ List Nat :=
  let held : Bool := match s.eodOf 0 with
    | some e => decide (0 < e.object)
    | none => false
  if s.pu.partition ≠ 0 ∨ s.pu.object ≠ 0 then .inl .notAtBop
  else if s.rtc.writeProtect = some true ∨ s.writePolicy 0 = .readOnly then .inl .writeProtected
  else if s.writePolicy 0 = .appendOnly ∧ held then .inl .appendViolation
  else match dparSizes s.generation.wraps count sizes with
    | some zs => .inr zs
    | none => .inl .parameterInvalid

/-- DPAR's own work after its checks and flush (R121). -/
def State.runDpar (s : State) (count : Nat) (sizes : List Nat) : State :=
  match dparSizes s.generation.wraps count sizes with
  | some zs => (((s.leaveRead.wfYield).setPartitions (partitionsOf 0 zs)).setProgress .header).beginHeader .dpar 1
  | none => s.complete .parameterInvalid {}

/-- A command's own work, after any flush it needs (R14, R177). -/
def State.ownWork (s : State) : State :=
  match s.executing with
  | some .load => s.runLoad
  | some .unld => s.runUnld
  | some .rwnd => s.runRwnd
  | some (.loct p o) => s.runLoct p o
  | some (.spac k n) => s.runSpac k n
  | some (.wrec _) => s.checkedWrite
  | some (.wfmk _) => s.checkedWrite
  | some (.rrec _ _) => s.runRrec
  | some .eras => s.runEras
  | some (.dpar count sizes) => s.runDpar count sizes
  | some .sync => s.complete .good {}
  | none => s

/-! ### The flush (R14, R15) -/

/-- Step 1 of a flush: the FILLING slot sealed, or freed (R6, R14). -/
def State.beginFlush (s : State) (p : Progress) : State := (s.sealForCause).setProgress p

/-- The flush precedes the command's own work when the direction is WRITE (R14). -/
def State.flushFirst (s : State) : State :=
  if s.dbm.direction == .write then s.beginFlush .flushing else s.ownWork

/-- SYNC, and WRITE_FILEMARKS with count 0: the flush in place (R15). -/
def State.flushHere (s : State) : State :=
  if s.dbm.direction == .write then s.beginFlush .flushInPlace else s.complete .good

/-- The flush of R14 is complete: the tape stopped, the direction set, the command's own work (R14, R57). -/
def State.flushDone (s : State) : State := ((s.wfStop).setDirection .neutral).ownWork

/-- The flush in place is complete: the command GOOD, the tape at the run-up point before the append point (R15, R57). -/
def State.flushedHere (s : State) : State :=
  let s := s.complete .good
  if s.wf.stage = .backhitched then s else s.backhitch false

/-- The ERAS's mark stands: the direction NEUTRAL, the anchor behind the last dataset (R119). -/
def State.erased (s : State) : State :=
  let s := (s.wfStop).setDirection .neutral
  let s := s.setPosition s.pu.object (s.eodHere.map EodKnown.anchor)
  s.complete .good { object := s.pu.object }

/-- The write path holds nothing and the Write Formatter is at rest. -/
def State.writtenOut (s : State) : Bool := s.dbm.slots.isEmpty && s.wf.quiet

/-- The EOD mark of a flush, after an unseal where the header is SEALED (R57, R118, R119). -/
def State.markNow (s : State) : State := if s.pu.header == some .sealed then s.beginHeader .unseal 1 else s.beginMark .flush

/-- What an executing command that waits on the writing does next. -/
def State.advanceOnce (s : State) : State :=
  let s := s.wfKick
  match s.cu.progress with
  | .flushing => if !s.writtenOut then s else if s.wf.eodPending then s.markNow else s.flushDone
  | .flushInPlace => if !s.writtenOut then s else if s.wf.eodPending then s.markNow else s.flushedHere
  | .erasing => if !s.writtenOut then s else if s.wf.eodPending then s.markNow else s.erased
  | .filemarks =>
    match s.executing with
    | some (.wfmk n) => (s.runFilemarks (2 * n + 4)).wfKick
    | _ => s
  | _ => s

/-- What follows at once from a step: sealed slots are taken up by the Write Formatter, a flush goes on. A mark that
cannot be written is passed over at once, so two rounds are made. -/
def State.advance (s : State) : State := s.advanceOnce.advanceOnce

/-! ### Beginning execution (R175) -/

/-- A command's checks before any flush, then the flush or its own work (R14, R107, R115, R121). -/
def State.begin (s : State) : State :=
  match s.executing with
  | some .load => s.ownWork
  | some .unld => if s.rtc.cartridge = .ready then s.flushFirst else s.ownWork
  | some (.loct p _) =>
    if s.pu.partitions.length ≤ p then s.complete .parameterInvalid { object := s.pu.object } else s.flushFirst
  | some (.wrec _) =>
    match s.earlyCheck with
    | some code => s.complete code { object := s.pu.object }
    | none => s.ownWork
  | some (.wfmk n) =>
    if n = 0 then s.flushHere
    else match s.earlyCheck with
      | some code => s.complete code { object := s.pu.object }
      | none => s.ownWork
  | some .sync => s.flushHere
  | some .eras =>
    match s.earlyCheck with
    | some code => s.complete code { object := s.pu.object }
    | none =>
      match s.eodHere, s.lateCheck with
      | some _, some code => s.complete code { object := s.pu.object }
      | _, _ => s.flushFirst
  | some (.dpar count sizes) =>
    match s.dparCheck count sizes with
    | .inl code => s.complete code { object := s.pu.object }
    | .inr _ => s.flushFirst
  | some _ => s.flushFirst
  | none => s

/-- The command at the head may begin execution: none has begun and the cartridge state is stable (R175 step 1). -/
def State.mayBegin (s : State) : Bool :=
  match s.cu.queue with
  | q :: _ => !q.begun && !s.rtc.unstable
  | [] => false

/-- The head of the queue begun. -/
def Cu.beginHead (c : Cu) : Cu :=
  match c.queue with
  | q :: rest => { c with queue := { q with begun := true } :: rest, progress := .none, count := 0, finals := 0 }
  | [] => c

/-- The command at the head begins execution (R175). -/
def State.beginsExecution (s : State) : State :=
  if !s.mayBegin then s
  else
    let s := s.onCu Cu.beginHead
    match s.cu.deferred, s.executing with
    | some _, _ => s.reportDeferred
    | none, some c => if s.rtc.permits c then s.begin.advance else s.complete .notReady {}
    | none, none => s

/-! ### The tape at rest (R115, R129, R133, R135) -/

/-- A shuttle that a positioning command waited for has come to rest at its place (R115, R116). -/
def State.shuttleDone (s : State) : State :=
  match s.executing, s.cu.progress with
  | some .rwnd, .shuttle code => s.complete code { object := s.pu.object }
  | some c, .shuttle code =>
    match s.eodHere with
    | some e =>
      let residual := match c, code with
        | .spac _ n, .eod => n.natAbs
        | _, _ => 0
      (s.setPosition e.object (some e.anchor)).complete code { count := residual, object := e.object }
    | none => s
  | _, _ => s

/-- The Write Formatter with an attempt due on a wrap that has ended: the next wrap, or the volume is full (R45, R78,
log 39). -/
def State.wfWrapEnd (s : State) (wrap : Nat) : State :=
  if s.wf.stage == .span && s.wf.nextSet == 0 && s.wf.header.isNone
      && (s.wf.writePoint.map (fun w => w.2.wrap == wrap)).getD false then s.attemptNext ⟨wrap, s.pitches⟩ (s.attemptNumber == 1)
  else s

/-- The Reel and Threader Controller tells the block that uses the tape that a wrap has ended with no turn asked for, or that the tape has.
The wrap's number is all it tells (R136, log 39). -/
def State.wrapEnded (s : State) (wrap : Nat) : State := ((s.wfWrapEnd wrap).readWrapEnd wrap).scanWrapEnd wrap

/-- The reels come to rest, with the tape at a place: SETTLING, and what waited for it (R133). -/
def State.reelsRest (s : State) (x : Nat) : State :=
  if s.rtc.motion ≠ .decelerating then s
  else
    let (s, arrived) := s.rest x
    let s := match arrived with
      | .nothing => s
      | .tapeEnd w => s.wrapEnded w
      | .shuttle .rwnd => s.shuttleDone
      | .shuttle .locate => s.shuttleDone
      | .shuttle .unloadRewind => s.rewound
      | .shuttle .unloadReturn => s.beginUnthread
      | .shuttle .backhitch => s.backhitched
      | .shuttle .cleanRewind => s.beginUnthread
    s.advance

/-! ### The emergency stop (R138, R139) -/

/-- The reels braked to rest, the cartridge FAULTED, TENSION_FAULT latched (R138). -/
def State.brake (s : State) : State :=
  let s := s.onRtc (fun r => { r with motion := .settling, travel := none, settleTimer := Timer.start Config.settleMs, goal := .none,
                                      armed := false, faultTimer := none, threadTimer := none, tensionTimer := none, threader := .idle })
  ((s.setCartridge .faulted none).onSv Sv.off).raise .tensionFault

/-- The write side at an emergency stop: the Write Formatter's work stops, and with direction WRITE the write path becomes
a deferred write error whose first object is the EOD object (R65, R10, R109). -/
def State.writeFaults (s : State) : State :=
  let p := s.pu.partition
  let s := s.wfTension
  if s.dbm.direction == .write then
    let fm := s.filemarksUnwritten
    let (s, first) := s.discardWrite .tensionFault
    s.putEodBack p fm (fun e => { e with object := first })
  else s

/-- The executing command at an emergency stop (R139). The model's choice: a SPAC's residual is then the command's count so far, 0
(log 34). -/
def State.commandFaults (s : State) : State :=
  match s.executing with
  | some .load => s.complete .tensionFault {}
  | some .unld => s.recoverUnthread
  | some (.rrec _ _) => if s.cu.progress = .reading then s else s.complete .notReady { object := s.pu.object }
  | some _ => if s.cu.deferred.isSome then s.reportDeferred else s.complete .notReady { count := s.cu.count, object := s.pu.object }
  | none => s

/-- The position at an emergency stop of a LOCT or SPAC (R117, R139). -/
def State.positionFaults (s : State) : State :=
  match s.pu.scan with
  | some c => s.provenBoundary c
  | none => match s.executing, s.cu.progress with
    | some (.loct _ _), .shuttle _ => s.positionKept
    | some (.spac _ _), .shuttle _ => s.positionKept
    | _, _ => s

/-- The emergency stop (R138, R139). -/
def State.emergencyStop (s : State) : State :=
  let s := s.cutOff.brake
  let s := s.writeFaults
  let s := s.readerFaults
  let s := s.positionFaults
  (s.dropVolume).commandFaults

/-! ### ABORT (R19, R66, R97, R117, R143, R182) -/

/-- The Reader at an ABORT: it stops wherever it stands (R97). DEDUCED: but for the header read of a load, which goes on to READY (R143,
log 72). -/
def State.abortReader (s : State) : State := s.when (s.rdr.activity != .header) State.stopReader

/-- The buffer at an ABORT: the FILLING slot cut back and sealed or freed, the read path freed, the Reader stopped (R19, R97). -/
def State.abortBuffer (s : State) : State :=
  let s := s.cutBack.sealSlot
  (s.onDbm (fun d => { d with sealTimer := none })).leaveRead.abortReader

/-- The motion at an ABORT: a shuttle or scan for LOCT, SPAC or RWND stops (R143). The model's choice: the wind and the return of a
recovery unthread in FAULTED go on, as an unload's unthread does (log 54). -/
def State.abortMotion (s : State) : State :=
  match s.pu.scan, s.rtc.goal with
  | some _, _ => s.scanStops
  | none, .shuttle _ .rwnd _ => s.setGoal .stop
  | none, .shuttle _ .locate _ => s.setGoal .stop
  | none, _ => s

/-- Every command of the queue completes ABORTED in order, the executing one with the results it had reached (R182). The model's choice: a
SPAC's residual is then the command's count so far, 0 (log 34). -/
def State.abortQueue : Nat → State → State
  | 0, s => s
  | k + 1, s =>
    match s.cu.queue with
    | [] => s
    | _ :: _ => State.abortQueue k (s.complete .aborted { count := s.cu.count, object := if s.executing.isSome then s.pu.object else 0 })

/-- ABORT outside a cleaning run, but for its own DONE (R182). -/
def State.abort (s : State) : State :=
  let s := s.positionFaults
  let s := State.abortQueue s.cu.queue.length s
  let s := s.onSpu (fun x => { x with credits := 0, readCredits := 0 })
  let s := s.abortMotion
  let s := s.abortBuffer
  (s.onPu (fun u => { u with scan := none, cut := none })).advance

end Sys2Proof.Machine
end

