-- ==== Sys2Proof/Machine/Snapshot.lean ====
section
/-!
DEFINITION. Snapshot.lean: what QUERY_STATUS and READ_POSITION report (R103, R178, R189), as bytes: each field least
significant byte first in the width its range needs, a state or name by its position in the list that gives it, an absent
value as all ones (12.1); what that leaves open is in log 31.
-/
namespace Sys2Proof.Machine

/-- An absent field of a width. -/
def absentBytes (w : Nat) : List Byte := List.replicate w 255

/-- A number that may be absent. -/
def optBytes (w : Nat) : Option Nat → List Byte
  | some n => leBytes w n
  | none => absentBytes w

/-- A flag: 1 while it is set (log 31). -/
def flagByte (b : Bool) : List Byte := [if b then 1 else 0]

/-- A place on tape that may be absent: wrap and pitch. -/
def locBytes : Option Loc → List Byte
  | some l => leBytes 1 l.wrap ++ leBytes 2 l.pitch
  | none => absentBytes 3

def TypeCode.code : TypeCode → Nat | .dataA => 0 | .dataB => 1 | .cleaning => 2 | .unknown => 3
def VolumeState.code : VolumeState → Nat | .none => 0 | .formatted => 1 | .blank => 2 | .headerFault => 3
def Generation.code : Generation → Nat | .a => 0 | .b => 1
def HeaderState.code : HeaderState → Nat | .sealed => 0 | .opened => 1
def WritePolicy.code : WritePolicy → Nat | .writable => 0 | .appendOnly => 1 | .readOnly => 2
def DirectoryState.code : DirectoryState → Nat | .valid => 0 | .building => 1 | .invalid => 2
def BufferDirection.code : BufferDirection → Nat | .neutral => 0 | .write => 1 | .read => 2
def Zone.code : Zone → Nat | .low => 0 | .mid => 1 | .high => 2
def Compressibility.code : Compressibility → Nat | .incompressible => 0 | .moderate => 1 | .high => 2
/-- A phase by its place in the list of its cartridge state: REWIND, HEADER_WRITE, UNTHREAD in UNLOADING, and RUN, REWIND, UNTHREAD in
CLEANING (R123, 12.1). The model's reading: each of the two lists counts from 0 (log 31). -/
def Phase.code : Cartridge → Phase → Nat
  | .cleaning, .run => 0
  | .cleaning, .rewind => 1
  | _, .rewind => 0
  | _, .headerWrite => 1
  | _, .unthread => 2
  | _, .run => 0
def Motion.code : Motion → Nat
  | .stopped => 0 | .settling => 1 | .accelerating => 2 | .streaming => 3 | .decelerating => 4 | .shuttling => 5
def Travel.code : Travel → Nat | .forward => 0 | .reverse => 1
def Timebase.code : Timebase → Nat | .off => 0 | .acquiring => 1 | .locked => 2 | .lost => 3
def Clock.code : Clock → Nat | .servo => 0 | .reference => 1
def TapeKind.code : TapeKind → Nat | .data => 0 | .none => 1
def ChannelState.code : ChannelState → Nat | .good => 0 | .marginal => 1 | .dead => 2
def EndReason.code : EndReason → Nat | .endOfData => 0 | .failed => 1 | .fault => 2
def RdrActivity.code : RdrActivity → Nat
  | .idle => 0 | .seeking => 1 | .capturing => 2 | .repositioning => 3 | .paused => 4 | .ended _ => 5 | .header => 6
def Cartridge.code : Cartridge → Nat
  | .empty => 0 | .seated => 1 | .threadedUnknown => 2 | .threading => 3 | .tensioning => 4 | .headerRead => 5
  | .ready => 6 | .unloading => 7 | .cleaning => 8 | .ejected => 9 | .faulted => 10

/-- The Write Formatter's activity by its position in R44's list: HEADER while a header span is in hand; CLOSING while a
backhitch it will count reverses, MARKING while an uncounted one does (log 17). The model's choice: REPOSITIONING also while the
tape goes back for a header attempt after the first (log 51), and RUN_UP while a tape that streams on or turns the wrap has yet to reach
an EOD mark's first pitch (log 67). -/
def Wf.activity (w : Wf) : Nat :=
  match w.header, w.stage with
  | _, .runUp _ _ true => 7
  | some _, _ => 1
  | none, .idle => 0
  | none, .runUp _ _ false => 2
  | none, .span => 3
  | none, .closing _ _ => 4
  | none, .marking _ _ _ => 5
  | none, .backhitching true => 4
  | none, .backhitching false => 5
  | none, .backhitched => 6

/-- The motion goal by its position in R132's list, a header trip being a shuttle goal; the cleaning run streams on. The model's choice: the
one byte names the kind alone, with no target pitch or wrap, and no goal is sent as absent, all ones (R123, R189, log 31). -/
def Goal.code : Goal → Option Nat
  | .none => Option.none
  | .runUp _ _ => some 0
  | .streamOn => some 1
  | .clean => some 1
  | .wrapTurn _ => some 2
  | .stop => some 3
  | .trip _ => some 4
  | .shuttle _ _ _ => some 4

/-- The Event Unit's part, with the CLEAN_REQ level (R184, R188, R162). The model's choice: the level of ATTN or CLEAN_REQ is 1 while the line is
asserted and 0 while it is not (log 31). -/
def State.snapEu (s : State) : List Byte :=
  s.eu.latches.toList.flatMap (fun l => flagByte l.set ++ leBytes 1 l.count) ++ leBytes 4 s.eu.mask.toNat
    ++ flagByte s.eu.attn ++ flagByte s.hm.cleanReq

/-- The Stream Port Unit's part (R171). -/
def State.snapSpu (s : State) : List Byte := leBytes 2 s.spu.credits ++ leBytes 2 s.spu.readCredits ++ leBytes 2 s.spu.linkErrors

/-- The recovery policy's five fields (R179). -/
def RecoveryPolicy.bytes (p : RecoveryPolicy) : List Byte :=
  leBytes 1 p.margin ++ leBytes 1 p.restartLimit ++ leBytes 1 p.missLimit ++ leBytes 1 p.retries ++ leBytes 1 p.offTrack

/-- The Command Unit's part (R175, R55, R179). The model's choice: the queue is the number of its entries, then the tag and the name of
each from the head, then whether the head has begun; a name is its four ASCII letters, as packets carry names, not a position in a list
(12.1, log 31). -/
def State.snapCu (s : State) : List Byte :=
  let q := s.cu.queue
  leBytes 1 q.length ++ q.flatMap (fun x => [x.tag] ++ x.command.name) ++ flagByte ((q.head?.map Queued.begun).getD false)
    ++ (match s.cu.deferred with
        | some d => flagByte true ++ leBytes 1 (d.byte % 16) ++ leBytes 1 d.partition ++ leBytes 4 d.first ++ leBytes 4 d.objects
        | none => flagByte false ++ absentBytes 10)
    ++ s.cu.policy.bytes

/-- The Dataset Buffer Manager's part (R18). The model's choice: the eight slot-state counts stand in R2's order with FREE first, and the
count of recovered rows, whose range no rule gives, takes 4 bytes (log 31). -/
def State.snapDbm (s : State) : List Byte :=
  let d := s.dbm
  leBytes 1 d.direction.code ++ leBytes 2 d.drain ++ leBytes 2 d.take ++ leBytes 2 d.free
    ++ [SlotState.filling, .sealed, .writing, .loading, .ready, .expanding, .failed].flatMap (fun st => leBytes 2 (d.countIn st))
    ++ leBytes 4 d.recovered

/-- The Write Formatter's part (R44). The model's choice: it carries four early-warning flags whatever the partition count, those of partitions
beyond the count 0 and not absent (log 31). -/
def State.snapWf (s : State) : List Byte :=
  let w := s.wf
  leBytes 1 w.activity
    ++ (match w.writePoint with
        | some (p, l) => leBytes 1 p ++ locBytes (some l)
        | none => absentBytes 4)
    ++ leBytes 1 w.queue.length ++ leBytes 2 w.backhitches ++ leBytes 2 w.restarts
    ++ (List.range 4).flatMap (fun p => flagByte (w.earlyWarned.contains p))

/-- How many row records satisfy a test. -/
def Rdr.countRows (r : Rdr) (f : RowState → Bool) : Nat := (r.rows.toList.filter f).length

/-- The Reader's part (R82). -/
def State.snapRdr (s : State) : List Byte :=
  let r := s.rdr
  let good := r.countRows RowState.isGood
  let absent := r.countRows (fun st => st == .absent)
  leBytes 1 r.activity.code
    ++ optBytes 1 (match r.activity with | .ended e => some e.code | _ => none)
    ++ optBytes 4 (r.expected.map Prod.fst) ++ optBytes 1 (r.expected.map Prod.snd) ++ optBytes 1 r.pass
    ++ leBytes 1 r.copies.length ++ leBytes 2 good ++ leBytes 2 (256 - good - absent) ++ leBytes 2 absent
    ++ [if r.readAhead then 0 else 1] ++ leBytes 2 r.headerErrors

/-- The speed table in force. The model's choice: it is laid out as its packet is, the entry count, then a speed and a user rate for each entry
it holds and none beyond, where R79 lists the entry speeds before the user rates; so its length follows the count (R79, R81, R189, log 31). -/
def SpeedTable.bytes (t : SpeedTable) : List Byte :=
  leBytes 1 t.entries.length ++ t.entries.flatMap (fun e => leBytes 2 e.1 ++ leBytes 2 e.2) ++ leBytes 2 t.high ++ leBytes 2 t.low
    ++ leBytes 1 t.confirm ++ leBytes 2 t.sealTimeout ++ leBytes 1 t.tolerance

/-- The Speed Matcher's part (R81). The model's choice: with no candidate pending the confirm count is sent as it stands, 0 (R67, log 31). -/
def State.snapSm (s : State) : List Byte :=
  let m := s.sm
  leBytes 4 m.rate ++ leBytes 2 m.ratio ++ leBytes 1 m.compressibility.code ++ leBytes 1 m.index
    ++ leBytes 2 (m.table.speedOf m.index) ++ optBytes 1 m.scheduled ++ optBytes 1 m.pending
    ++ leBytes 1 m.confirmCount ++ leBytes 1 m.zone.code ++ leBytes 4 m.last.r ++ leBytes 2 m.last.q ++ leBytes 4 m.last.nreq
    ++ optBytes 1 m.last.candidate ++ leBytes 2 m.last.fill ++ m.table.bytes

/-- An EOD record: known, object, last dataset, mark position, mark on tape. -/
def eodSnap : Option EodKnown → List Byte
  | some e => flagByte true ++ leBytes 4 e.object ++ optBytes 4 e.last ++ locBytes (some e.mark) ++ flagByte e.onTape
  | none => flagByte false ++ absentBytes 12

/-- The anchor: dataset and seek pitch. -/
def anchorSnap : Option (Nat × Loc) → List Byte
  | some (n, l) => leBytes 4 n ++ locBytes (some l)
  | none => absentBytes 7

/-- The Position Unit's part (R103). -/
def State.snapPu (s : State) : List Byte :=
  let u := s.pu
  leBytes 1 u.volume.code ++ optBytes 1 (u.generation.map Generation.code) ++ optBytes 1 (u.header.map HeaderState.code)
    ++ (List.range 4).flatMap (fun p => match u.partitions[p]? with
        | some (a, b) => leBytes 1 a ++ leBytes 1 b
        | none => absentBytes 2)
    ++ u.policy.flatMap (fun r => leBytes 1 r.write.code ++ flagByte r.compress)
    ++ (List.range 4).flatMap (fun p => match u.eod[p]? with
        | some e => eodSnap e
        | none => absentBytes 13)
    ++ (List.range 4).flatMap (fun p => match u.directory[p]? with
        | some d => leBytes 1 d.state.code ++ optBytes 4 d.through ++ leBytes 2 d.entries.length
        | none => absentBytes 7)
    ++ leBytes 1 u.partition ++ leBytes 4 u.object ++ anchorSnap u.anchor

/-- The Reel and Threader Controller's part, timers as running or not (R123). -/
def State.snapRtc (s : State) : List Byte :=
  let r := s.rtc
  leBytes 1 r.cartridge.code ++ optBytes 1 (r.phase.map (Phase.code r.cartridge)) ++ optBytes 1 (r.typeCode.map TypeCode.code)
    ++ (match r.writeProtect with | some b => flagByte b | none => absentBytes 1)
    ++ leBytes 1 r.attempts ++ leBytes 1 r.motion.code ++ optBytes 1 (r.travel.map Travel.code) ++ leBytes 1 r.speedIndex ++ leBytes 2 r.speed
    ++ optBytes 1 r.headWrap ++ optBytes 2 r.place ++ optBytes 1 r.goal.code ++ flagByte r.settleTimer.isSome
    ++ flagByte r.threadTimer.isSome ++ flagByte r.tensionTimer.isSome ++ flagByte r.faultTimer.isSome ++ flagByte r.windTimer.isSome
    ++ leBytes 2 r.remainder ++ leBytes 4 r.loadMetres ++ leBytes 2 r.runMetres

/-- A signed value in one byte, two's complement. -/
def signedByte : Option Int → List Byte
  | some x => [BitVec.ofInt 8 x]
  | none => absentBytes 1

/-- The Servo Unit's part: every field but the last burst instant (R144). The model's choice: the expected interval and the
history are whole microseconds, rounded down, the history 16 fields with those it does not hold absent, and the last pitch is
absent after a turnaround position (log 31). -/
def State.snapSv (s : State) : List Byte :=
  let v := s.sv
  leBytes 1 v.timebase.code ++ leBytes 1 v.runCount ++ leBytes 1 v.missCount ++ leBytes 2 v.speed ++ leBytes 2 (24000000 / v.speed)
    ++ optBytes 2 (match v.lastPlace with | some (.pitch p) => some p | _ => none)
    ++ (List.range 16).flatMap (fun i => optBytes 2 (v.history[i]?.map (fun d => d.num / d.den)))
    ++ optBytes 2 v.measured ++ flagByte v.deviating ++ signedByte v.lateral ++ [if v.inhibit then 0 else 1]
    ++ leBytes 1 v.clock.code ++ leBytes 1 v.kind.code

/-- The cleaning policy, each field in the width its range needs (R163, 12.1). -/
def CleaningPolicy.bytes (p : CleaningPolicy) : List Byte :=
  leBytes 2 p.tripUp ++ leBytes 1 p.tripDown ++ leBytes 2 p.dead ++ leBytes 1 p.adviseCount ++ leBytes 1 p.requiredCount
    ++ leBytes 4 p.metreLimit ++ leBytes 1 p.cap ++ leBytes 2 p.length

/-- The head record for saving: the floor is the head state (R168). -/
def Hm.saved (h : Hm) : List Byte :=
  leBytes 4 h.metres ++ leBytes 4 h.total ++ leBytes 4 h.cleanings ++ leBytes 4 h.loads ++ leBytes 1 h.head.rank

/-- The Head Monitor's part (R156, R168). -/
def State.snapHm (s : State) : List Byte :=
  let h := s.hm
  h.channels.toList.flatMap (fun c => leBytes 1 c.state.code ++ leBytes 1 c.n ++ leBytes 1 c.f ++ leBytes 1 c.deadRun ++ optBytes 2 c.lastF)
    ++ leBytes 1 h.head.rank ++ leBytes 1 (h.countOf .marginal) ++ leBytes 1 (h.countOf .dead) ++ leBytes 1 h.floor.rank
    ++ leBytes 4 h.metres ++ leBytes 4 h.total ++ leBytes 4 h.cleanings ++ leBytes 4 h.loads ++ flagByte h.armed ++ h.policy.bytes ++ h.saved

/-- The snapshot of R189, part by part in its order. -/
def State.snapshot (s : State) : List Byte :=
  s.snapEu ++ s.snapSpu ++ s.snapCu ++ s.snapDbm ++ s.snapWf ++ s.snapRdr ++ s.snapSm ++ s.snapPu ++ s.snapRtc ++ s.snapSv ++ s.snapHm

/-- What READ_POSITION reports (R103, R178): with volume state NONE that state and no position. -/
def State.positionReport (s : State) : List Byte :=
  leBytes 1 s.pu.volume.code
    ++ (if s.pu.volume = .none then absentBytes 25
        else leBytes 1 s.pu.partition ++ leBytes 4 s.pu.object ++ anchorSnap s.pu.anchor ++ eodSnap s.eodHere)

end Sys2Proof.Machine
end

