-- ==== Sys2Proof/Machine/Port.lean ====
section
/-!
DEFINITION. Port.lean: packets at the Stream Port: arrival of queued commands (R174), quick commands (R178, R187), tables
(R179, R186), record data and credits (R180, R181), dropped packets (R171); and the meanings of these commands.
-/
namespace Sys2Proof.Machine

/-! ### Answers -/

/-- An answer with the tag and name the packet carried (R174). -/
def State.answer (s : State) (tag : Byte) (name : List Byte) (a : Answer) : State := s.send (.resp tag name a)

/-- A DONE without results. -/
def Answer.ok : Answer := .done .good {} []

/-! ### What is sent (R172, R190, 12.1) -/

/-- The number of a status or refusal code (12.1). -/
def Code.num : Code → Nat
  | .good => 0 | .filemark => 1 | .eod => 2 | .bop => 3 | .lengthMismatch => 4 | .dataCheck => 5 | .mediumError => 6
  | .notReady => 7 | .aborted => 8 | .deferredError => 9 | .protocolError => 10 | .writeProtected => 11
  | .appendViolation => 12 | .volumeFault => 13 | .volumeFull => 14 | .writeError => 15 | .notAtBop => 16
  | .parameterInvalid => 17 | .threadFault => 18 | .tensionFault => 19 | .unknownCommand => 20 | .tagInvalid => 21
  | .tagInUse => 22 | .tableCheck => 23 | .tableInvalid => 24 | .busy => 25 | .locked => 26

/-- The 20 result bytes of a DONE (12.1); every DONE carries them (log 31). -/
def Results.bytes (r : Results) : List Byte :=
  leBytes 4 r.count ++ leBytes 4 r.object ++ leBytes 4 r.actualLength ++ leBytes 4 r.failedDataset ++ leBytes 2 r.outcome
    ++ leBytes 1 r.flags ++ leBytes 1 r.deferred

/-- The body of a RESP packet that answers a name (12.1). -/
def Answer.body (name : List Byte) : Answer → List Byte
  | .deferred => [0] ++ name ++ [0]
  | .queueFull => [1] ++ name ++ [0]
  | .refused code => [2] ++ name ++ leBytes 1 code.num
  | .done code results extra => [3] ++ name ++ leBytes 1 code.num ++ results.bytes ++ extra

/-- The kind, tag and body of an outbound packet (12.1). -/
def Packet.parts : Packet → Byte × Byte × List Byte
  | .wcrd n => (0x81, 0, leBytes 2 n)
  | .rdat final data => (0x82, 0, (if final then 1 else 0) :: data)
  | .resp tag name a => (0x83, tag, a.body name)
  | .note event count => (0x84, 0, leBytes 1 event ++ leBytes 1 count)

/-- The header and body of an outbound packet (12.1). -/
def Packet.bytes (p : Packet) : List Byte :=
  let (kind, tag, body) := p.parts
  [kind, tag] ++ leBytes 2 body.length ++ body

/-- A packet as it is sent: header, body and the link check formed over both (R190). -/
def Packet.wire (p : Packet) : List Byte := p.bytes ++ leBytes 2 (crc16 p.bytes).toNat

/-- The bytes sent at the Stream Port, packet after packet in the order handed over (R172). -/
def State.wire (s : State) : List Byte := s.spu.out.flatMap Packet.wire

/-! ### Queued commands (R174) -/

/-- The tag is that of a command in the queue (R174 step 4). -/
def Cu.tagInUse (c : Cu) (tag : Byte) : Bool := c.queue.any (fun q => q.tag == tag)

/-- Steps 2 to 7 of R174: the answer to a queued command that is not queued, or the command that is. -/
def State.screened (s : State) (tag : Byte) (parsed : Option Command) : Answer ⊕ Command :=
  if s.rtc.cleaningRun then .inl (.refused .notReady)
  else if tag = 0 then .inl (.refused .tagInvalid)
  else if s.cu.tagInUse tag then .inl (.refused .tagInUse)
  else match parsed with
    | none => .inl (.refused .parameterInvalid)
    | some c =>
      if !s.rtc.permits c then .inl (.refused .notReady)
      else if 4 ≤ s.cu.queue.length then .inl .queueFull
      else .inr c

/-- The arrival of a queued command (R174). -/
def State.arrive (s : State) (tag : Byte) (name : List Byte) (parsed : Option Command) : State :=
  match s.screened tag parsed with
  | .inl a => s.answer tag name a
  | .inr c => (s.onCu (fun u => { u with queue := u.queue ++ [{ tag := tag, command := c, begun := false }] })).answer tag name .deferred

/-! ### Quick commands (R178, R187) -/

/-- A quick command refused during a cleaning run, or for its parameters; otherwise it acts (R178, R190). -/
def State.quick (s : State) (tag : Byte) (name : List Byte) (good : Bool) (act : State → State) : State :=
  if s.rtc.cleaningRun then s.answer tag name (.refused .notReady)
  else if !good then s.answer tag name (.refused .parameterInvalid)
  else act s

/-- A latch cleared with its count (R187). -/
def Eu.clear (e : Eu) (n : Nat) : Eu := { e with latches := e.latches.setIfInBounds n { set := false, count := 0 } }

/-- The latches named are cleared, and ATTN judged again (R187, R188). -/
def Eu.acknowledge (e : Eu) (ns : List Nat) : Eu := (ns.foldl Eu.clear e).judge

/-! ### The event mask (R186) -/

/-- The latches that a new mask reports: set, with their bit clear before and set after, in increasing number. -/
def Eu.newlyReported (e : Eu) (mask : BitVec 32) : List (Fin 32) :=
  (List.finRange 32).filter (fun i => e.latches[i].set && !e.reported i && mask.getLsbD i.val)

/-- A mask installed: its NOTEs, then the mask, and ATTN judged again (R186, R188). -/
def State.installMask (s : State) (mask : BitVec 32) : State :=
  let news := s.eu.newlyReported mask
  let s := s.onEu (fun e => ({ e with mask := mask } : Eu).judge)
  news.foldl (fun s i => s.send (.note i.val s.eu.latches[i].count)) s

/-! ### Tables (R179) -/

/-- A table packet: the checks of R179 in order; `first` is an order-4 or order-5 refusal, `install` the owner's
installation, `none` where its structural checks fail. -/
def State.table (s : State) (tag : Byte) (name : List Byte) (check : BitVec 16) (fields : List Byte) (good : Bool) (first : Option Code)
    (install : Option (State → State)) : State :=
  if !tableCheckGood name check fields then (s.raise .tableCheck).answer tag name (.refused .tableCheck)
  else if s.rtc.cleaningRun then s.answer tag name (.refused .notReady)
  else if !good then s.answer tag name (.refused .tableInvalid)
  else match first, install with
    | some code, _ => s.answer tag name (.refused code)
    | none, none => s.answer tag name (.refused .tableInvalid)
    | none, some f => (f s).answer tag name Answer.ok

/-- SPDT is refused BUSY while the tape is ACCELERATING or STREAMING (R179 step 4, R80). -/
def State.spdtBusy (s : State) : Option Code :=
  if s.rtc.motion == .accelerating || s.rtc.motion == .streaming then some .busy else none

/-- HREC is refused LOCKED while the head record is not armed (R179 step 5, R169). -/
def State.hrecLocked (s : State) : Option Code := if s.hm.armed then none else some .locked

/-- The six tables by name, each with its length check, its own refusal and its installation. -/
def State.tableOf (s : State) (tag : Byte) (name : List Byte) (check : BitVec 16) (fields : List Byte) : State :=
  if name = nameSpdt then
    s.table tag name check fields (spdtLength fields) s.spdtBusy ((parseSpdt fields).map (fun t s => s.installSpdt t))
  else if name = namePpol then
    s.table tag name check fields (ppolLength fields) none
      ((parsePpol fields).map (fun p s => s.onPu (fun u => { u with policy := p })))
  else if name = nameCpol then
    s.table tag name check fields (cpolLength fields) none ((parseCpol fields).map (fun p s => s.installCpol p))
  else if name = nameRpol then
    s.table tag name check fields (rpolLength fields) none
      (some (fun s => s.onCu (fun c => { c with policy := parseRpol fields })))
  else if name = nameHrec then
    s.table tag name check fields (hrecLength fields) s.hrecLocked ((parseHrec fields).map (fun r s => s.installHrec r))
  else if name = nameEvmk then
    s.table tag name check fields (evmkLength fields) none (some (fun s => s.installMask (parseEvmk fields)))
  else s.table tag name check fields false none none

/-! ### Record data and credits (R180, R181) -/

/-- A WDAT packet is credited (R180). -/
def State.credited (s : State) (data : List Byte) : Bool :=
  s.writingRecords && decide (1 ≤ s.spu.credits) && decide (1 ≤ data.length) && decide (data.length ≤ Config.packetBytes)
    && s.cu.deferred.isNone

/-- A WRITE_RECORDS that ends PROTOCOL_ERROR before it takes data leaves its search for the EOD or D (R16, R107, R118, R180). The model's
choice: its trailer scan stops with the position as it is, or its load of D is given up, and either way the read path is discarded, the
direction NEUTRAL, so that no READY slot stays beside a Reader that no longer delivers (log 58). -/
def State.leaveSearch (s : State) : State :=
  if !s.writingRecords then s
  else match s.cu.progress with
    | .scan => s.scanStops.leaveRead
    | .settleD => s.leaveRead.onPu (fun u => { u with cut := none })
    | _ => s

/-- A WDAT packet taken: one credit and one place; or dropped with PROTOCOL_ERROR (R180). -/
def State.recordData (s : State) (flags : Byte) (data : List Byte) : State :=
  if s.credited data then
    let s := s.onSpu (fun x => { x with credits := x.credits - 1 })
    s.onDbm (fun d => { d with staging := d.staging ++ [{ final := flags.getLsbD 0, data := data }] })
  else s.leaveSearch.protocolEnd

/-- A RCRD packet (R181, R190). -/
def State.readCredit (s : State) (n : Nat) : State :=
  if n = 0 ∨ 4096 < n then s.raise .protocolError
  else if 65535 < s.spu.readCredits + n then (s.onSpu (fun x => { x with readCredits := 65535 })).raise .protocolError
  else s.onSpu (fun x => { x with readCredits := x.readCredits + n })

/-- An inbound packet dropped (R171). -/
def State.dropPacket (s : State) : State :=
  (s.onSpu (fun x => { x with linkErrors := satAdd Config.max16 x.linkErrors 1 })).raise .linkError

/-! ### Meanings: queued commands at arrival -/

def execLoad (tag : Byte) (ps : List Byte) (s : State) : Host.Outcome State Fault Refusal :=
  .next (s.arrive tag (Command.name .load) (parseBare .load ps))
def execUnld (tag : Byte) (ps : List Byte) (s : State) : Host.Outcome State Fault Refusal :=
  .next (s.arrive tag (Command.name .unld) (parseBare .unld ps))
def execRwnd (tag : Byte) (ps : List Byte) (s : State) : Host.Outcome State Fault Refusal :=
  .next (s.arrive tag (Command.name .rwnd) (parseBare .rwnd ps))
def execLoct (tag : Byte) (ps : List Byte) (s : State) : Host.Outcome State Fault Refusal :=
  .next (s.arrive tag (Command.name (.loct 0 0)) (parseLoct ps))
def execSpac (tag : Byte) (ps : List Byte) (s : State) : Host.Outcome State Fault Refusal :=
  .next (s.arrive tag (Command.name (.spac .eod 0)) (parseSpac ps))
def execWriteRecords (tag : Byte) (ps : List Byte) (s : State) : Host.Outcome State Fault Refusal :=
  .next (s.arrive tag (Command.name (.wrec 0)) (parseWrec ps))
def execWriteFilemarks (tag : Byte) (ps : List Byte) (s : State) : Host.Outcome State Fault Refusal :=
  .next (s.arrive tag (Command.name (.wfmk 0)) (parseWfmk ps))
def execReadRecords (tag : Byte) (ps : List Byte) (s : State) : Host.Outcome State Fault Refusal :=
  .next (s.arrive tag (Command.name (.rrec 0 0)) (parseRrec ps))
def execSync (tag : Byte) (ps : List Byte) (s : State) : Host.Outcome State Fault Refusal :=
  .next (s.arrive tag (Command.name .sync) (parseBare .sync ps))
def execEras (tag : Byte) (ps : List Byte) (s : State) : Host.Outcome State Fault Refusal :=
  .next (s.arrive tag (Command.name .eras) (parseBare .eras ps))
def execDefinePartitions (tag : Byte) (ps : List Byte) (s : State) : Host.Outcome State Fault Refusal :=
  .next (s.arrive tag (Command.name (.dpar 0 [])) (parseDpar ps))

/-! ### Meanings: quick commands -/

/-- QUERY_STATUS takes the snapshot, in a cleaning run too (R178, R189); parameters are refused (R190). -/
def execQueryStatus (tag : Byte) (ps : List Byte) (s : State) : Host.Outcome State Fault Refusal :=
  .next (s.answer tag nameQsta (if ps.length = 0 then .done .good {} s.snapshot else .refused .parameterInvalid))

/-- READ_POSITION (R103, R178). -/
def execReadPosition (tag : Byte) (ps : List Byte) (s : State) : Host.Outcome State Fault Refusal :=
  .next (s.quick tag nameRpos (decide (ps.length = 0)) (fun s => s.answer tag nameRpos (.done .good {} s.positionReport)))

/-- ACK_EVENTS (R178, R187). -/
def execAckEvents (tag : Byte) (ps : List Byte) (s : State) : Host.Outcome State Fault Refusal :=
  .next (s.quick tag nameAcke (parseAck ps).isSome
    (fun s => (s.onEu (·.acknowledge ((parseAck ps).getD []))).answer tag nameAcke Answer.ok))

/-- ABORT (R182): the DONEs it causes go before its own. -/
def execAbort (tag : Byte) (ps : List Byte) (s : State) : Host.Outcome State Fault Refusal :=
  .next (s.quick tag nameAbrt (decide (ps.length = 0)) (fun s => s.abort.answer tag nameAbrt Answer.ok))

/-- RESET_DEVICE is answered DONE, then the reset takes effect (R178, R183). -/
def execResetDevice (tag : Byte) (ps : List Byte) (x : Sensors) (s : State) : Host.Outcome State Fault Refusal :=
  .next (s.quick tag nameRset (decide (ps.length = 0)) (fun s => (s.answer tag nameRset Answer.ok).deviceReset x))

/-! ### Meanings: tables -/

def execSpdt (tag : Byte) (check : BitVec 16) (fs : List Byte) (s : State) : Host.Outcome State Fault Refusal :=
  .next (s.tableOf tag nameSpdt check fs)
def execPpol (tag : Byte) (check : BitVec 16) (fs : List Byte) (s : State) : Host.Outcome State Fault Refusal :=
  .next (s.tableOf tag namePpol check fs)
def execCpol (tag : Byte) (check : BitVec 16) (fs : List Byte) (s : State) : Host.Outcome State Fault Refusal :=
  .next (s.tableOf tag nameCpol check fs)
def execRpol (tag : Byte) (check : BitVec 16) (fs : List Byte) (s : State) : Host.Outcome State Fault Refusal :=
  .next (s.tableOf tag nameRpol check fs)
def execHrec (tag : Byte) (check : BitVec 16) (fs : List Byte) (s : State) : Host.Outcome State Fault Refusal :=
  .next (s.tableOf tag nameHrec check fs)
def execEvmk (tag : Byte) (check : BitVec 16) (fs : List Byte) (s : State) : Host.Outcome State Fault Refusal :=
  .next (s.tableOf tag nameEvmk check fs)

/-- A table whose name is none of the six (R179 step 3); one that names a table is taken as that table (log 33). -/
def execTblNameInvalid (tag : Byte) (name : List Byte) (check : BitVec 16) (fs : List Byte) (s : State) :
    Host.Outcome State Fault Refusal :=
  .next (s.tableOf tag name check fs)

/-! ### Meanings: record data, credits, dropped packets, unknown commands, resets -/

def execWdat (flags : Byte) (data : List Byte) (s : State) : Host.Outcome State Fault Refusal := .next (s.recordData flags data)
def execRcrd (n : BitVec 16) (s : State) : Host.Outcome State Fault Refusal := .next (s.readCredit n.toNat)

/-- A packet that fails R171's checks is dropped; one that passes them is no such event, and nothing happens: the model's choice holds
also for a body too short for its kind, which no command carries (log 37). -/
def execLinkCheckFailure (packet : List Byte) (s : State) : Host.Outcome State Fault Refusal :=
  .next (if packetGood packet then s else s.dropPacket)

/-- A CMD that names no command is refused UNKNOWN_COMMAND (R174 step 1); one that names a command is no such packet, and
nothing happens (log 33). -/
def execUnknownCommand (tag : Byte) (name _ps : List Byte) (s : State) : Host.Outcome State Fault Refusal :=
  .next (if commandNames.contains name then s else s.answer tag name (.refused .unknownCommand))

def execPowerOnReset (x : Sensors) (s : State) : Host.Outcome State Fault Refusal := .next (s.powerOn x)
def execNreset (x : Sensors) (s : State) : Host.Outcome State Fault Refusal := .next (s.deviceReset x)

end Sys2Proof.Machine
end

