-- ==== Sys2Proof/Machine/Mechanism.lean ====
section
/-!
DEFINITION. Mechanism.lean: the meanings of what the mechanism, its sensors and its timers report (R124 to R142), and of a
queued command beginning execution (R175). An event that the state does not call for changes nothing (log 2).
-/
namespace Sys2Proof.Machine

/-- A step whose outcome is a next state. -/
abbrev Meaning := Host.Outcome State Fault Refusal

/-- COMMAND_BEGINS_EXECUTION (R175). -/
def execCommandBeginsExecution (s : State) : Meaning := .next s.beginsExecution

/-- The seated sensor comes on in an EMPTY drive (R124): nothing is yet known of what is on the tape (log 5). -/
def State.seatedOn (s : State) (t : TypeCode) (tab : Bool) : State :=
  if s.rtc.cartridge ≠ .empty then s
  else
    let s := s.onSensors (fun _ => { seated := true, leader := .home, typeCode := t, tab := tab })
    let s := (s.onRtc (fun r => { r with typeCode := some t, writeProtect := some tab })).onTape (fun _ => [])
    (s.raise .cartridgeSeated).seatedByType t

/-- SEATED_SENSOR_ON (R124). -/
def execSeatedSensorOn (t : TypeCode) (tab : Bool) (s : State) : Meaning := .next (s.seatedOn t tab)

/-- The seated sensor goes off in SEATED or EJECTED (R124). -/
def State.seatedOff (s : State) : State :=
  if s.rtc.cartridge = .seated ∨ s.rtc.cartridge = .ejected then
    let s := s.setCartridge .empty none
    (s.onRtc (fun r => { r with typeCode := none, writeProtect := none })).onSensors (fun x => { x with seated := false })
  else s

/-- SEATED_SENSOR_OFF (R124). -/
def execSeatedSensorOff (s : State) : Meaning := .next s.seatedOff

/-- LEADER_ON_TAKE_UP_REEL (R125). -/
def execLeaderOnTakeUpReel (s : State) : Meaning := .next s.leaderTakenUp

/-- LEADER_HOME (R125, R129, R130). -/
def execLeaderHome (s : State) : Meaning := .next s.leaderIsHome

/-- THREAD_TIMER_EXPIRY (R125, R129). -/
def execThreadTimerExpiry (s : State) : Meaning := .next s.threadExpires

/-- TENSIONING_COMPLETE (R126). -/
def execTensioningComplete (place : Nat) (s : State) : Meaning := .next (s.tensioned place)

/-- TENSION_TIMER_EXPIRY (R126). -/
def execTensionTimerExpiry (s : State) : Meaning := .next s.tensionExpires

/-- Tension leaves the band while the monitor is armed: the fault timer starts (R138). -/
def State.tensionLeaves (s : State) : State :=
  if s.rtc.armed && s.rtc.faultTimer.isNone then s.onRtc (fun r => { r with faultTimer := Timer.start Config.tensionFaultMs }) else s

/-- TENSION_LEAVES_BAND (R138). -/
def execTensionLeavesBand (s : State) : Meaning := .next s.tensionLeaves

/-- TENSION_RETURNS_TO_BAND: the timer is stopped and cleared (R138). -/
def execTensionReturnsToBand (s : State) : Meaning := .next (s.onRtc (fun r => { r with faultTimer := none }))

/-- TENSION_FAULT_TIMER_EXPIRY: the emergency stop (R138, R139). -/
def execTensionFaultTimerExpiry (s : State) : Meaning := .next (s.when s.rtc.faultTimer.isSome State.emergencyStop)

/-- The recovery wind has reached the leader: the threader returns it (R130). -/
def State.windDone (s : State) : State :=
  s.when s.rtc.windTimer.isSome (fun s => (s.onRtc (fun r => { r with windTimer := none })).beginReturn)

/-- RECOVERY_WIND_COMPLETE (R130). -/
def execRecoveryWindComplete (s : State) : Meaning := .next s.windDone

/-- RECOVERY_WIND_TIMER_EXPIRY: THREAD_FAULT, the cartridge still FAULTED (R130). -/
def execRecoveryWindTimerExpiry (s : State) : Meaning := .next (s.when s.rtc.windTimer.isSome State.threadFault)

/-- METRE_TRAVELLED: millimetres of travel (R140, R141). -/
def execMetreTravelled (mm : Nat) (s : State) : Meaning := .next (s.travel mm)

/-- The cleaning run's last metre ends the run (R141). -/
def State.runLength (s : State) : State :=
  if s.rtc.cartridge = .cleaning ∧ s.rtc.phase = some .run ∧ s.rtc.cleanLength ≤ s.rtc.runMetres + 1 then
    (s.onRtc (fun r => { r with runMetres := satAdd Config.max16 r.runMetres 1 })).runCompletes
  else s

/-- RUN_LENGTH_REACHED (R141, R165). -/
def execRunLengthReached (s : State) : Meaning := .next s.runLength

/-- The end marker sensed in phase RUN before the cleaning length (R141). -/
def State.endMarker (s : State) : State :=
  if s.rtc.cartridge = .cleaning ∧ s.rtc.phase = some .run ∧ s.rtc.runMetres < s.rtc.cleanLength then s.runExpires else s

/-- END_MARKER_SENSED (R141, R166). -/
def execEndMarkerSensed (s : State) : Meaning := .next s.endMarker

/-- SETTLE_TIMER_EXPIRY (R133). -/
def execSettleTimerExpiry (s : State) : Meaning :=
  .next (s.when (s.rtc.settleTimer.isSome && s.rtc.motion == .settling) State.settled)

/-- HEAD_STEP_COMPLETE (R133). -/
def execHeadStepComplete (s : State) : Meaning :=
  .next (match s.rtc.stepTo with
    | some w => s.stepped w
    | none => s)

/-- STREAMING_REACHED (R134, R147). -/
def execStreamingReached (s : State) : Meaning := .next (s.when (s.rtc.motion == .accelerating) State.streamingReached)

/-- SHUTTLE_APPROACH (R135). -/
def execShuttleApproach (s : State) : Meaning := .next (s.when (s.rtc.motion == .shuttling) State.approach)

/-- REELS_AT_REST (R133). -/
def execReelsAtRest (place : Nat) (s : State) : Meaning := .next (s.reelsRest place)

end Sys2Proof.Machine
end

