-- ==== Sys2Proof/Machine/Servo.lean ====
section
/-!
DEFINITION. Servo.lean: bursts (R145 to R149), what an announced place brings to the Write Formatter, the Reader, the scan
and the reels (R151), the deviation monitor (R153) and the off-track inhibit (R154).
-/
namespace Sys2Proof.Machine

/-! ### Merging (R145) -/

/-- A lateral reading taken into ±100 % of track width. -/
def clampLateral (x : Int) : Int := if x < -100 then -100 else if 100 < x then 100 else x

/-- The two channels' readings merged: position word and lateral reading; `none` is a failed check. The model's choice: the limit of
±100 % is applied to the mean of the two, not to each channel's (log 66). -/
def mergeReadings : Option ServoReading → Option ServoReading → Option (Nat × Int)
  | some a, some b => some (a.word, clampLateral (Int.tdiv (a.lateral + b.lateral) 2))
  | some a, none => some (a.word, clampLateral a.lateral)
  | none, some b => some (b.word, clampLateral b.lateral)
  | none, none => none

/-- A mid-pitch frame's lateral readings merged (R154), the limit applied to the mean as in `mergeReadings` (log 66). -/
def mergeLateral : Option Int → Option Int → Option Int
  | some a, some b => some (clampLateral (Int.tdiv (a + b) 2))
  | some a, none => some (clampLateral a)
  | none, some b => some (clampLateral b)
  | none, none => none

/-! ### Lateral readings (R154) -/

/-- A lateral reading given while LOCKED: it is held and the inhibit set from it. -/
def State.lateralReading (s : State) (x : Int) : State :=
  s.onSv (fun v => { v with lateral := some x, inhibit := decide (s.cu.policy.offTrack < x.natAbs) })

/-- A mid-pitch frame (R154, R64). -/
def State.lateralFrame (s : State) (a b : Option Int) : State :=
  match mergeLateral a b with
  | some x =>
    if !s.locked then s
    else
      let was := s.sv.inhibit
      let s := s.lateralReading x
      if !was && s.sv.inhibit && s.beingWritten.isSome then s.inhibitCut else s
  | none => s

/-! ### The deviation monitor (R153) -/

/-- An interval joins the history, the oldest of 16 leaving. -/
def joinInterval (h : List Instant) (d : Instant) : List Instant := (h ++ [d]).drop ((h.length + 1) - 16)

/-- The sum of intervals. -/
def sumIntervals (h : List Instant) : Instant := h.foldl Instant.add ⟨0, 1⟩

/-- The measured speed of 16 intervals, rounded down: 24,000,000 over their mean. -/
def measuredSpeed (h : List Instant) : Nat :=
  let t := sumIntervals h
  384000000 * t.den / t.num

/-- The measured speed deviates from the commanded speed beyond a tolerance in percent. -/
def deviates (vm vc t : Nat) : Bool := decide (t * vc < 100 * ((vm : Int) - vc).natAbs)

/-- The monitor after an interval has joined. -/
def State.monitor (s : State) : State :=
  if s.sv.history.length < 16 then s
  else
    let vm := measuredSpeed s.sv.history
    let dev := deviates vm s.sv.speed s.sm.table.tolerance
    let was := s.sv.deviating
    let s := s.onSv (fun v => { v with measured := some vm, deviating := dev })
    s.when (dev && !was) (·.raise .speedDeviation)

/-! ### Announced places (R136, R151) -/

/-- The place after a place in the wrap's order (R148); position words end with the turnaround zones (R145). -/
def placeAfter (pitches wrap : Nat) : TapePlace → TapePlace
  | .pitch p =>
    if p + 1 < pitches then .pitch (p + 1)
    else .turn (if wrap % 2 = 0 then Config.turnaround + pitches else Config.turnaround - 1)
  | .turn w =>
    if wrap % 2 = 0 then placeOf pitches wrap (min (w + 1) (2 * Config.turnaround + pitches - 1)) else placeOf pitches wrap (w - 1)

/-- The position word of a place. -/
def wordOfPlace (pitches wrap : Nat) : TapePlace → Nat
  | .pitch p => wordOf pitches ⟨wrap, p⟩
  | .turn w => w

/-- A wrap turn is asked for. -/
def Rtc.turnAsked (r : Rtc) : Bool :=
  match r.goal with
  | .wrapTurn _ => true
  | _ => false

/-- A turnaround position, which goes to the Reel and Threader Controller alone (R151): past the wrap's end it makes the turn
asked for, or tells that the wrap has ended (R136, log 39). -/
def State.turnaroundAt (s : State) (wrap word : Nat) : State :=
  if !atFarEnd s.pitches wrap word || s.rtc.motion != .streaming then s
  else (s.when (!s.rtc.turnAsked) (·.wrapEnded wrap)).turnIfDue word

/-- A place announced while LOCKED (R151); one beyond the wrap's end shows the separator of a restart at its last pitch written (R52). -/
def State.announce (s : State) (wrap : Nat) (pl : TapePlace) : State :=
  let word := wordOfPlace s.pitches wrap pl
  let s := (s.onSv (fun v => { v with lastPlace := some pl })).tapeAt word
  match pl with
  | .pitch p => ((s.readerAt ⟨wrap, p⟩).scanAt ⟨wrap, p⟩).wfPitch ⟨wrap, p⟩
  | .turn w => s.restartWritten.turnaroundAt wrap w

/-- The tape passes a place while not LOCKED: nothing is announced, and the tape position the reels give is that place (R123,
log 9); a resume due there is missed, a run-up target is behind, and a header read's zone may have ended (R62, R84, R100). -/
def State.passUnlocked (s : State) (wrap : Nat) (pl : TapePlace) : State :=
  let s := s.tapeAt (wordOfPlace s.pitches wrap pl)
  match pl with
  | .pitch p => (((s.readerAt ⟨wrap, p⟩).headerPassed ⟨wrap, p⟩).scanAt ⟨wrap, p⟩).wfUnlocked ⟨wrap, p⟩
  | .turn w => s.turnaroundAt wrap w

/-- A judged burst with a word while not LOCKED: the last pitch is its place (R144), which the tape passes. -/
def State.passWord (s : State) (wrap word : Nat) : State :=
  let pl := placeOf s.pitches wrap word
  (s.onSv (fun v => { v with lastPlace := some pl })).passUnlocked wrap pl

/-- A judged burst without a word while not LOCKED, which stands for one pitch length of travel (R146): the reels' tape position
goes on by one, and the tape passes that place (R84, R123). The last pitch stays the last burst's (R144). The model's choice: a
missing burst during an acceleration, where the tape is slower than the interval reckoned, moves nothing (log 9). -/
def State.passBlind (s : State) : State :=
  match s.rtc.headWrap, s.rtc.place with
  | some w, some x => s.passUnlocked w (placeAfter s.pitches w (placeOf s.pitches w x))
  | _, _ => s

/-! ### Bursts (R146 to R149) -/

/-- The timebase becomes LOST, and the loss is reported; the pitch of that burst passes unannounced (R148, R63, R84). The model's choice:
the last pitch stays the one announced last, whatever word the losing burst gave (log 9); and a block that repositions at the loss
decelerates the tape within this step, so that the timebase leaves LOST at once and no later burst is judged (log 65). -/
def State.lose (s : State) : State :=
  let s := s.onSv (fun v => { v.leaveLocked with timebase := .lost, missCount := 0, lastValid := false })
  ((s.raise .servoLost).wfLost).passBlind

/-- An invalid or missing burst while LOCKED, at an instant (R148). The model's choice: the last pitch is then the place reckoned, also
where the burst's own word passed its check and its interval alone was wrong (R144, log 9). -/
def State.missed (s : State) (at_ : Option Instant) : State :=
  if 2 ≤ s.sv.missCount then (s.onSv (fun v => { v with lastBurst := at_ })).lose
  else
    let s := s.onSv (fun v => { v with missCount := v.missCount + 1, lastBurst := at_, history := [], lastValid := false })
    match s.sv.lastPlace, s.rtc.headWrap with
    | some pl, some w => s.announce w (placeAfter s.pitches w pl)
    | _, _ => s

/-- A valid burst while LOCKED (R148, R153, R154). -/
def State.validBurst (s : State) (at_ : Instant) (wrap : Nat) (word : Nat) (lateral : Int) : State :=
  let joins := s.sv.lastValid
  let s := s.onSv (fun v => { v with
    missCount := 0, lastBurst := some at_, lastValid := true,
    history := match joins, v.lastBurst with
      | true, some t => joinInterval v.history (at_.since t)
      | _, _ => v.history })
  let s := s.when joins State.monitor
  (s.lateralReading lateral).announce wrap (placeOf s.pitches wrap word)

/-- LOST passes to ACQUIRING at the first judged burst after the loss (R149). -/
def Sv.fromLost (v : Sv) : Sv := if v.timebase == .lost then { v with timebase := .acquiring, runCount := 0 } else v

/-- A judged burst in ACQUIRING (R147). -/
def State.acquireBurst (s : State) (at_ : Instant) (valid : Bool) (merged : Option (Nat × Int)) : State :=
  let s := s.onSv (fun v => { v with runCount := if valid then min 64 (v.runCount + 1) else 0, lastBurst := some at_, lastValid := valid })
  match merged, s.rtc.headWrap with
  | some (word, lateral), some w =>
    if s.sv.runCount = 64 ∧ s.rtc.motion = .streaming then
      ((s.onSv Sv.lock).lateralReading lateral).announce w (placeOf s.pitches w word)
    else s.passWord w word
  | _, _ => s.passBlind

/-- A burst is valid: its word passes its check and its interval, when it has one, lies in the window (R146). -/
def Sv.accepts (v : Sv) (at_ : Instant) (checked : Bool) : Bool :=
  checked && (match v.lastBurst with
    | some t => v.inWindow (at_.since t)
    | none => true)

/-- A burst is the 64th valid one in succession in ACQUIRING while STREAMING: it brings LOCKED (R147). -/
def State.locksAt (s : State) (b : Burst) : Bool :=
  s.judged && s.sv.timebase == .acquiring && s.sv.accepts b.time (mergeReadings b.ch0 b.ch1).isSome && decide (63 ≤ s.sv.runCount)
    && s.rtc.motion == .streaming && s.rtc.headWrap.isSome

/-- A servo burst (R145 to R149); one that is not judged changes nothing. While LOCKED a burst whose word passes its check gives
its lateral reading though its interval is wrong (R154). -/
def State.burst (s : State) (b : Burst) : State :=
  if !s.judged then s
  else
    let merged := mergeReadings b.ch0 b.ch1
    let valid := s.sv.accepts b.time merged.isSome
    match s.sv.timebase with
    | .off => s
    | .locked =>
      match valid, merged, s.rtc.headWrap with
      | true, some (word, lateral), some w => s.validBurst b.time w word lateral
      | _, some (_, lateral), _ => (s.lateralReading lateral).missed (some b.time)
      | _, none, _ => s.missed (some b.time)
    | _ => (s.onSv Sv.fromLost).acquireBurst b.time valid merged

/-- A missing burst: the expected instant is taken as the last burst instant (R146, R148, R149). -/
def State.burstMissing (s : State) : State :=
  match s.judged, s.sv.lastBurst with
  | true, some t =>
    let at_ := t.add s.sv.interval
    match s.sv.timebase with
    | .off => s
    | .locked => s.missed (some at_)
    | _ =>
      let s := s.onSv (fun v => { v.fromLost with runCount := 0, lastBurst := some at_, lastValid := false })
      s.when (s.rtc.motion == .streaming) State.passBlind
  | _, _ => s

/-! ### Pitches read (R84, R113) -/

/-- The data pitch under the head as far as it is known: the pitch announced while LOCKED, otherwise the tape position that the
reels give, which each judged burst moves on (R84, R123, R151). -/
def State.pitchHere (s : State) : Option Loc :=
  match s.rtc.headWrap, (if s.locked then s.sv.lastPlace else none), s.rtc.place with
  | some w, some (.pitch p), _ => some ⟨w, p⟩
  | some _, some (.turn _), _ => none
  | some w, none, some x =>
    match placeOf s.pitches w x with
    | .pitch p => some ⟨w, p⟩
    | .turn _ => none
  | _, _, _ => none

/-- The read channels give the content of a pitch (R84): it is classified while LOCKED, and passes unclassified
otherwise. -/
def State.pitchRead (s : State) (c : PitchContent) : State :=
  match s.pitchHere with
  | none => s
  | some l =>
    if s.locked then (s.openLoading.readPitchAt l c).scanPitch l c
    else (s.readUnseen l).scanUnseen l

end Sys2Proof.Machine
end

