-- ==== Sys2Proof/Machine/Tape.lean ====
section
/-!
DEFINITION. Tape.lean: the meanings of what passes under the head (R84, R145 to R154), of the writing's own steps (R48, R51,
R57), of the buffer's and the Record Expander's steps (R5 to R12, R22, R35, R40), and of the windows (R68, R74, R158).
-/
namespace Sys2Proof.Machine

/-! ### The servo -/

/-- SERVO_BURST (R145 to R154). -/
def execServoBurst (b : Burst) (s : State) : Meaning := .next (s.burst b).advance

/-- BURST_MISSING (R146, R148, R149). -/
def execBurstMissing (s : State) : Meaning := .next s.burstMissing.advance

/-- LATERAL_FRAME (R154). -/
def execLateralFrame (a b : Option Int) (s : State) : Meaning := .next (s.lateralFrame a b).advance

/-- The burst that brings LOCKED (R147); a burst that does not bring it is no such event (log 3). Its own announcement may bring a
deceleration, and so the end of LOCKED, within the step (R57, R136, R150). -/
def State.lockingBurst (s : State) (b : Burst) : State := if s.locksAt b then (s.burst b).advance else s

/-- TIMEBASE_LOCKED (R147). -/
def execTimebaseLocked (b : Burst) (s : State) : Meaning := .next (s.lockingBurst b)

/-- The missing burst that brings LOST (R148, log 3). -/
def State.losingBurst (s : State) : State :=
  if s.locked && s.judged && decide (2 ≤ s.sv.missCount) then s.burstMissing.advance else s

/-- TIMEBASE_LOST (R148). -/
def execTimebaseLost (s : State) : Meaning := .next s.losingBurst

/-! ### Reading -/

/-- READ_PITCH (R84 to R100, R113 to R120). -/
def execReadPitch (c : PitchContent) (s : State) : Meaning := .next (s.pitchRead c).advance

/-- OPEN_LOADING_SLOT (R11). -/
def execOpenLoadingSlot (s : State) : Meaning := .next s.openLoading

/-- A paused Reader goes on when the READY count is below H (R96). -/
def State.aheadResumes (s : State) : State :=
  if s.rdr.activity == .paused && s.rdr.readAhead && decide (s.dbm.countIn .ready < s.sm.table.high) then s.readerResumes else s

/-- READ_AHEAD_RESUME (R96). -/
def execReadAheadResume (s : State) : Meaning := .next s.aheadResumes

/-- EXPANDER_TAKES_SLOT (R12, R37, R41): nothing while a slot is EXPANDING. -/
def execExpanderTakesSlot (s : State) : Meaning := .next (s.when ((s.dbm.find .expanding).isNone) State.takeSlot)

/-- EXPAND_ENTRY (R35 to R39, R41). -/
def execExpandEntry (s : State) : Meaning := .next s.expandEntry

/-- RDAT_SEND (R40, R181). -/
def execRdatSend (s : State) : Meaning := .next s.sendPacket

/-! ### Writing -/

/-- VERIFY_RESULT (R48, R49). -/
def execVerifyResult (os : Vector RowOutcome 16) (s : State) : Meaning := .next (s.verify os).advance

/-- DATASET_DONE: the separator pitch is written (R51, R58). -/
def execDatasetDone (s : State) : Meaning := .next s.separatorWritten.advance

/-- EOD_MARK_WRITTEN (R54, R57, R60). -/
def execEodMarkWritten (s : State) : Meaning := .next s.markWritten.advance

/-- SEAL_TIMER_EXPIRY (R7). -/
def execSealTimerExpiry (s : State) : Meaning := .next ((s.when s.dbm.sealTimer.isSome State.sealNow).advance)

/-- The Record Compressor takes the next staging place (R22). -/
def State.takeNext (s : State) : State :=
  match s.canTake, s.dbm.staging with
  | true, p :: _ => s.takePlace p
  | _, _ => s

/-- STAGING_PLACE_TAKEN (R22 to R33). -/
def execStagingPlaceTaken (s : State) : Meaning := .next s.takeNext.advance

/-- The FILLING slot holds 4,096 entries (R6, R30). -/
def State.entryLimit (s : State) : Bool :=
  match s.dbm.filling with
  | some (_, x) => decide (Config.maxEntries ≤ x.entries.getD 0)
  | none => false

/-- ENTRY_LIMIT_SEAL (R6, R30). -/
def execEntryLimitSeal (s : State) : Meaning := .next ((s.when s.entryLimit State.sealNow).advance)

/-- The Record Compressor needs a FILLING slot: for bytes it holds, for the next staging place, or for a filemark (R5). A
packet that is not copied needs none (R22). -/
def State.needsSlot (s : State) : Bool :=
  s.dbm.direction == .write && s.dbm.filling.isNone && decide (0 < s.dbm.free)
    && ((s.rc.record.isSome && !s.rc.lookahead.isEmpty)
      || (s.canTake && !(s.dbm.staging.head?.map s.oversize).getD false)
      || (match s.executing with
          | some (.wfmk n) => s.cu.progress == .filemarks && decide (s.cu.count < n)
          | _ => false))

/-- A FILLING slot opened, and the Record Compressor running on in it (R5, R22). -/
def State.fillOpened (s : State) : State :=
  let s := s.openFilling
  (State.rcRun s.rcFuel s).advance

/-- OPEN_FILLING_SLOT (R5). -/
def execOpenFillingSlot (s : State) : Meaning := .next (s.when s.needsSlot State.fillOpened)

/-! ### Windows -/

/-- WINDOW_EXPIRY (R68 to R75). -/
def execWindowExpiry (s : State) : Meaning := .next (s.when s.sm.window.isSome State.windowExpires)

/-- The pending candidate's last window: it is scheduled (R74, log 3). A candidate that is the index in effect by now is not
confirmed by any window, so the event is not called for (log 2). -/
def Sm.confirmPending (m : Sm) : Sm :=
  match m.pending with
  | some c =>
    if m.window.isSome && c != m.index && decide (m.table.confirm ≤ m.confirmCount + 1) then
      { m with scheduled := some c, pending := none, confirmCount := 0 }
    else m
  | none => m

/-- CONFIRM_REACHED (R74). -/
def execConfirmReached (s : State) : Meaning := .next (s.onSm Sm.confirmPending)

/-- The 256th row of a channel's window (R158 to R161, log 3). -/
def State.closeChannel (s : State) (ch : Fin 16) (failed : Bool) : State :=
  match (s.hm.channels[ch].join failed).2 with
  | some f =>
    let s := s.onHm (fun h => { h with channels := h.channels.set ch (h.channels[ch].join failed).1 })
    (s.closeWindow ch f).recomputeHead
  | none => s

/-- CHANNEL_WINDOW_CLOSE (R158). -/
def execChannelWindowClose (ch : Fin 16) (failed : Bool) (s : State) : Meaning := .next (s.closeChannel ch failed)

end Sys2Proof.Machine
end

