-- ==== Sys2Proof/Machine/Dispatch.lean ====
section
/-! DEFINITION. Dispatch.lean: one arm per command, each a direct call of its meaning. -/
namespace Sys2Proof.Machine

def exec (i : Instr) (s : State) : Host.Outcome State Fault Refusal :=
  match i with
  | .powerOnReset x => Sys2Proof.Machine.execPowerOnReset x s
  | .nreset x => Sys2Proof.Machine.execNreset x s
  | .linkCheckFailure bs => Sys2Proof.Machine.execLinkCheckFailure bs s
  | .load tag ps => Sys2Proof.Machine.execLoad tag ps s
  | .unld tag ps => Sys2Proof.Machine.execUnld tag ps s
  | .rwnd tag ps => Sys2Proof.Machine.execRwnd tag ps s
  | .loct tag ps => Sys2Proof.Machine.execLoct tag ps s
  | .spac tag ps => Sys2Proof.Machine.execSpac tag ps s
  | .writeRecords tag ps => Sys2Proof.Machine.execWriteRecords tag ps s
  | .writeFilemarks tag ps => Sys2Proof.Machine.execWriteFilemarks tag ps s
  | .readRecords tag ps => Sys2Proof.Machine.execReadRecords tag ps s
  | .sync tag ps => Sys2Proof.Machine.execSync tag ps s
  | .eras tag ps => Sys2Proof.Machine.execEras tag ps s
  | .definePartitions tag ps => Sys2Proof.Machine.execDefinePartitions tag ps s
  | .queryStatus tag ps => Sys2Proof.Machine.execQueryStatus tag ps s
  | .readPosition tag ps => Sys2Proof.Machine.execReadPosition tag ps s
  | .ackEvents tag ps => Sys2Proof.Machine.execAckEvents tag ps s
  | .abort tag ps => Sys2Proof.Machine.execAbort tag ps s
  | .resetDevice tag ps x => Sys2Proof.Machine.execResetDevice tag ps x s
  | .spdt tag k fs => Sys2Proof.Machine.execSpdt tag k fs s
  | .ppol tag k fs => Sys2Proof.Machine.execPpol tag k fs s
  | .cpol tag k fs => Sys2Proof.Machine.execCpol tag k fs s
  | .rpol tag k fs => Sys2Proof.Machine.execRpol tag k fs s
  | .hrec tag k fs => Sys2Proof.Machine.execHrec tag k fs s
  | .evmk tag k fs => Sys2Proof.Machine.execEvmk tag k fs s
  | .wdat fl d => Sys2Proof.Machine.execWdat fl d s
  | .rcrd n => Sys2Proof.Machine.execRcrd n s
  | .commandBeginsExecution => Sys2Proof.Machine.execCommandBeginsExecution s
  | .seatedSensorOn ty tab => Sys2Proof.Machine.execSeatedSensorOn ty tab s
  | .seatedSensorOff => Sys2Proof.Machine.execSeatedSensorOff s
  | .leaderOnTakeUpReel => Sys2Proof.Machine.execLeaderOnTakeUpReel s
  | .leaderHome => Sys2Proof.Machine.execLeaderHome s
  | .threadTimerExpiry => Sys2Proof.Machine.execThreadTimerExpiry s
  | .tensioningComplete pl => Sys2Proof.Machine.execTensioningComplete pl s
  | .tensionTimerExpiry => Sys2Proof.Machine.execTensionTimerExpiry s
  | .tensionLeavesBand => Sys2Proof.Machine.execTensionLeavesBand s
  | .tensionReturnsToBand => Sys2Proof.Machine.execTensionReturnsToBand s
  | .tensionFaultTimerExpiry => Sys2Proof.Machine.execTensionFaultTimerExpiry s
  | .recoveryWindComplete => Sys2Proof.Machine.execRecoveryWindComplete s
  | .recoveryWindTimerExpiry => Sys2Proof.Machine.execRecoveryWindTimerExpiry s
  | .metreTravelled mm => Sys2Proof.Machine.execMetreTravelled mm s
  | .runLengthReached => Sys2Proof.Machine.execRunLengthReached s
  | .endMarkerSensed => Sys2Proof.Machine.execEndMarkerSensed s
  | .settleTimerExpiry => Sys2Proof.Machine.execSettleTimerExpiry s
  | .headStepComplete => Sys2Proof.Machine.execHeadStepComplete s
  | .streamingReached => Sys2Proof.Machine.execStreamingReached s
  | .shuttleApproach => Sys2Proof.Machine.execShuttleApproach s
  | .reelsAtRest pl => Sys2Proof.Machine.execReelsAtRest pl s
  | .servoBurst b => Sys2Proof.Machine.execServoBurst b s
  | .burstMissing => Sys2Proof.Machine.execBurstMissing s
  | .lateralFrame ch0 ch1 => Sys2Proof.Machine.execLateralFrame ch0 ch1 s
  | .timebaseLocked b => Sys2Proof.Machine.execTimebaseLocked b s
  | .timebaseLost => Sys2Proof.Machine.execTimebaseLost s
  | .readPitch c => Sys2Proof.Machine.execReadPitch c s
  | .verifyResult os => Sys2Proof.Machine.execVerifyResult os s
  | .datasetDone => Sys2Proof.Machine.execDatasetDone s
  | .eodMarkWritten => Sys2Proof.Machine.execEodMarkWritten s
  | .sealTimerExpiry => Sys2Proof.Machine.execSealTimerExpiry s
  | .stagingPlaceTaken => Sys2Proof.Machine.execStagingPlaceTaken s
  | .entryLimitSeal => Sys2Proof.Machine.execEntryLimitSeal s
  | .openFillingSlot => Sys2Proof.Machine.execOpenFillingSlot s
  | .openLoadingSlot => Sys2Proof.Machine.execOpenLoadingSlot s
  | .readAheadResume => Sys2Proof.Machine.execReadAheadResume s
  | .expanderTakesSlot => Sys2Proof.Machine.execExpanderTakesSlot s
  | .expandEntry => Sys2Proof.Machine.execExpandEntry s
  | .rdatSend => Sys2Proof.Machine.execRdatSend s
  | .windowExpiry => Sys2Proof.Machine.execWindowExpiry s
  | .confirmReached => Sys2Proof.Machine.execConfirmReached s
  | .channelWindowClose ch f => Sys2Proof.Machine.execChannelWindowClose ch f s
  | .unknownCommand tag nm ps => Sys2Proof.Machine.execUnknownCommand tag nm ps s
  | .tblNameInvalid tag nm k fs => Sys2Proof.Machine.execTblNameInvalid tag nm k fs s

end Sys2Proof.Machine
end

