-- ==== Sys2Proof/Machine/Step.lean ====
section
/-!
DEFINITION. Step.lean: one step takes the command at the front of the queue and runs it on the rest; on an empty queue one
millisecond of the reference timebase passes (log 1).
-/
namespace Sys2Proof.Machine

/-- A running timer one millisecond on, held at its period until its expiry is taken. -/
def Timer.tick (t : Timer) : Timer := { t with elapsed := min t.period (t.elapsed + 1) }

/-- One millisecond: the running timers and the window advance, nothing else moves (log 1). -/
def State.tick (s : State) : State :=
  let s := s.onRtc (fun r => { r with settleTimer := r.settleTimer.map Timer.tick, threadTimer := r.threadTimer.map Timer.tick,
                                      tensionTimer := r.tensionTimer.map Timer.tick, faultTimer := r.faultTimer.map Timer.tick,
                                      windTimer := r.windTimer.map Timer.tick })
  let s := s.onDbm (fun d => { d with sealTimer := d.sealTimer.map Timer.tick })
  s.onSm (fun m => { m with window := m.window.map (fun n => min (Config.windowMs - 1) (n + 1)) })

/-- One step: the command at the front of the queue, or a millisecond. -/
def step (s : State) : Host.Outcome State Fault Refusal :=
  match s.pending with
  | [] => .next s.tick
  | c :: rest => exec c (s.setPending rest)

/-- The command a word spells put at the front of the queue; no word spells one. -/
def State.withFetchWord (s : State) (nbits w : Nat) : State :=
  match decodeTableWord nbits w with
  | some c => s.setPending (c :: s.pending)
  | none => s

end Sys2Proof.Machine
end

