-- ==== Sys2Proof/Safety.lean ====
section
/-!
DEFINITION. Safety.lean: what holds of the part between commands (its invariants, one per block that has one), and the
groups of commands that the statements speak of together.
-/
namespace Sys2Proof.Machine

/-! ### Groups of commands -/

/-- A CMD naming a queued command: its tag, its name, and the command its parameters give (R174). -/
def queuedParts : Instr → Option (Byte × List Byte × Option Command)
  | .load tag ps => some (tag, ascii 'L' 'O' 'A' 'D', parseBare .load ps)
  | .unld tag ps => some (tag, ascii 'U' 'N' 'L' 'D', parseBare .unld ps)
  | .rwnd tag ps => some (tag, ascii 'R' 'W' 'N' 'D', parseBare .rwnd ps)
  | .loct tag ps => some (tag, ascii 'L' 'O' 'C' 'T', parseLoct ps)
  | .spac tag ps => some (tag, ascii 'S' 'P' 'A' 'C', parseSpac ps)
  | .writeRecords tag ps => some (tag, ascii 'W' 'R' 'E' 'C', parseWrec ps)
  | .writeFilemarks tag ps => some (tag, ascii 'W' 'F' 'M' 'K', parseWfmk ps)
  | .readRecords tag ps => some (tag, ascii 'R' 'R' 'E' 'C', parseRrec ps)
  | .sync tag ps => some (tag, ascii 'S' 'Y' 'N' 'C', parseBare .sync ps)
  | .eras tag ps => some (tag, ascii 'E' 'R' 'A' 'S', parseBare .eras ps)
  | .definePartitions tag ps => some (tag, ascii 'D' 'P' 'A' 'R', parseDpar ps)
  | _ => none

/-- A CMD naming a quick command other than QUERY_STATUS: its tag, its name, whether its parameters are in range. -/
def quickParts : Instr → Option (Byte × List Byte × Bool)
  | .readPosition tag ps => some (tag, ascii 'R' 'P' 'O' 'S', ps.isEmpty)
  | .ackEvents tag ps => some (tag, ascii 'A' 'C' 'K' 'E', (parseAck ps).isSome)
  | .abort tag ps => some (tag, ascii 'A' 'B' 'R' 'T', ps.isEmpty)
  | .resetDevice tag ps _ => some (tag, ascii 'R' 'S' 'E' 'T', ps.isEmpty)
  | _ => none

/-- A TBL packet: its tag, its name, its table check and its field bytes. -/
def tableParts : Instr → Option (Byte × List Byte × BitVec 16 × List Byte)
  | .spdt tag k fs => some (tag, ascii 'S' 'P' 'D' 'T', k, fs)
  | .ppol tag k fs => some (tag, ascii 'P' 'P' 'O' 'L', k, fs)
  | .cpol tag k fs => some (tag, ascii 'C' 'P' 'O' 'L', k, fs)
  | .rpol tag k fs => some (tag, ascii 'R' 'P' 'O' 'L', k, fs)
  | .hrec tag k fs => some (tag, ascii 'H' 'R' 'E' 'C', k, fs)
  | .evmk tag k fs => some (tag, ascii 'E' 'V' 'M' 'K', k, fs)
  | .tblNameInvalid tag name k fs => some (tag, name, k, fs)
  | _ => none

/-- The body length a table's name calls for, with the counts its fields carry (12.1). -/
def tableLength (name : List Byte) (fs : List Byte) : Bool :=
  (name == ascii 'S' 'P' 'D' 'T' && fs.length == 9 + 4 * (fs.headD 0).toNat)
    || (name == ascii 'P' 'P' 'O' 'L' && fs.length == 1 + 2 * (fs.headD 0).toNat)
    || (name == ascii 'C' 'P' 'O' 'L' && fs.length == 15)
    || (name == ascii 'R' 'P' 'O' 'L' && fs.length == 5)
    || (name == ascii 'H' 'R' 'E' 'C' && fs.length == 17)
    || (name == ascii 'E' 'V' 'M' 'K' && fs.length == 4)

/-- The state with one packet more handed to the Stream Port Unit. -/
def State.sends (s : State) (p : Packet) : State := { s with spu := { s.spu with out := s.spu.out ++ [p] } }

/-- A DONE without results. -/
def doneOk : Answer := .done .good {} []

/-! ### When nothing of the write path follows a step -/

/-- The buffer does not write and no command waits for the writing: a step has no consequence at the Write Formatter. -/
def State.writeIdle (s : State) : Bool :=
  s.dbm.direction != .write && !s.cu.progress.waitsForWriting && s.cu.progress != .filemarks

/-- Nothing is read or sought: the Reader and the trailer scan are at rest. -/
def State.readIdle (s : State) : Bool :=
  s.pu.scan.isNone && !s.rdr.classifies && s.rdr.target.isNone && !s.rdr.wanted

/-! ### The tape passing unlocked -/

/-- The position word that the tape passes next, one pitch length on from where the reels have it (R123, R146, log 9). -/
def State.wordOnward (s : State) : Option Nat :=
  match s.rtc.headWrap, s.rtc.place with
  | some w, some x => some (wordOfPlace s.pitches w (placeAfter s.pitches w (placeOf s.pitches w x)))
  | _, _ => none

/-- A wrap turn is asked for and a position word lies in the far turnaround zone of the wrap the tape streams on (R136). -/
def State.turnsAt (s : State) (word : Option Nat) : Bool :=
  match s.rtc.headWrap, word with
  | some w, some x => s.rtc.turnAsked && s.rtc.motion == .streaming && atFarEnd s.pitches w x
  | _, _ => false

/-! ### Resets -/

/-- The Reel and Threader Controller at the values that R123 gives for a reset, with the type and tab that the sensors show, in a drive whose
reels turned or rested. -/
def rtcAtReset (x : Sensors) (turned : Bool) : Rtc :=
  { cartridge := .empty, phase := none, typeCode := if x.seated then some x.typeCode else none, writeProtect := if x.seated then some x.tab else none,
    attempts := 0, motion := if turned then .settling else .stopped, travel := none, speedIndex := 0, speed := 2000, headWrap := none,
    place := none, goal := .none, settleTimer := if turned then some { elapsed := 0, period := 50 } else none, threadTimer := none,
    tensionTimer := none, faultTimer := none, windTimer := none, remainder := 0, loadMetres := 0, runMetres := 0, armed := false,
    stepTo := none, threader := .idle, tensionFor := .headerRead, cleanLength := 0, moved := false }

/-- What the sensors make of the part at a reset (R123, R124, R128): the drive EMPTY with no cartridge; with the leader home a data cartridge
SEATED, a cleaning cartridge THREADING, an UNKNOWN one pushed out; with the leader anywhere else a data cartridge THREADED_UNKNOWN, any other
tensioned for the rewind of its unloading; LOAD_FAULT for the type UNKNOWN, CARTRIDGE_SEATED for none. -/
def FoundAtReset (x : Sensors) (turned : Bool) (t : State) : Prop :=
  let r := rtcAtReset x turned
  (x.seated = false → t.rtc = r ∧ t.sensors = x)
  ∧ (x.seated = true → x.leader = .home →
      ((x.typeCode = .dataA ∨ x.typeCode = .dataB) → t.rtc = { r with cartridge := .seated } ∧ t.sensors = x)
      ∧ (x.typeCode = .cleaning → t.sensors = { x with leader := .between }
          ∧ t.rtc = { r with cartridge := .threading, attempts := 1, threadTimer := some { elapsed := 0, period := 6000 }, threader := .threading })
      ∧ (x.typeCode = .unknown → t.rtc = { r with cartridge := .ejected } ∧ t.sensors = x))
  ∧ (x.seated = true → x.leader ≠ .home → t.sensors = x
      ∧ ((x.typeCode = .dataA ∨ x.typeCode = .dataB) → t.rtc = { r with cartridge := .threadedUnknown })
      ∧ ((x.typeCode = .cleaning ∨ x.typeCode = .unknown) → t.rtc = { r with
          cartridge := .tensioning, tensionTimer := some { elapsed := 0, period := 2000 }, tensionFor := .rewind, stepTo := some 0 }))
  ∧ t.eu.latches[20] = (if x.seated && x.typeCode == .unknown then { set := true, count := 1 } else { set := false, count := 0 })
  ∧ t.eu.latches[19] = { set := false, count := 0 }

/-- The blocks that a reset returns to fixed values: the Record Compressor and Expander (R21, R34), the Write Formatter (R44), the Speed Matcher
with its built-in table (R67, R79), the Reader (R82), the Position Unit with its built-in policy (R103, R106) and the Servo Unit (R144). -/
def BlocksAtReset (t : State) : Prop :=
  let idle : Vector Tally 16 := Vector.replicate 16 { rows := 0, failed := 0 }
  t.rc = { history := [], sinceReset := 0, lookahead := [], run := [], record := none, segment := none, resetOwed := true, h := 0, s := 0 }
  ∧ t.rx = { history := [], sinceReset := 0, entry := 0, offset := 0, object := 0, assembly := none, sending := none, h := 0, s := 0 }
  ∧ t.wf = { stage := .idle, header := none, writePoint := none, appendPoint := none, spanStart := none, nextSet := 0, rewriteSets := 0,
             planned := false, rowCounts := Vector.replicate 256 0, queue := [], inFlight := none, tallies := idle, eodPending := false,
             misses := 0, backhitches := 0, restarts := 0, earlyWarned := [], volumeFull := none }
  ∧ t.sm = { window := none, rate := 0, ratio := 256, pending := none, confirmCount := 0, scheduled := none, index := 0, zone := .low,
             compressibility := .incompressible, last := { r := 0, q := 0, nreq := 0, candidate := none, fill := 0 },
             table := { entries := [(2000, 80), (2800, 120), (3600, 160), (4400, 200), (5200, 240), (6000, 280)], high := 384, low := 32,
                        confirm := 2, sealTimeout := 2000, tolerance := 5 } }
  ∧ t.rdr = { activity := .idle, expected := none, rows := Vector.replicate 256 .absent, copies := [], copy := none, opened := none,
              copyOpen := false, pass := none, blankRun := 0, blankStart := none, unseen := none, resume := none, tallies := idle,
              readAhead := false, headerErrors := 0, wanted := false, target := none, alone := false, trailerFailed := false }
  ∧ t.pu = { volume := .none, generation := none, header := none, partitions := [], policy := List.replicate 4 { write := .writable, compress := true },
             eod := [], directory := [], partition := 0, object := 0, anchor := none, scan := none, cut := none, eodFilemarks := [],
             lastRead := none, cameFrom := 0 }
  ∧ t.sv = { timebase := .off, runCount := 0, missCount := 0, speed := 2000, lastBurst := none, lastPlace := none, lastValid := false,
             history := [], measured := none, deviating := false, lateral := none, inhibit := false, clock := .reference, kind := .none }

/-! ### Rows of a copy placed -/

/-- A row set's rows of the expected dataset placed in the LOADING slot at an address for a pass and a copy (R88, R98), from given records and
tallies: a good row makes a record that is not GOOD so and its payload stands in the slot, the first where a row comes twice; an uncorrectable
one makes it ERASED; a GOOD record stands. Every row placed is scored on its channel. Nothing else of the DRAM changes. -/
def RowsPlaced (s t : State) (base pass copy : Nat) (row : Nat → RowState) (tallies : Vector Tally 16) (placed : List (Nat × RowRead)) : Prop :=
  let stored (n : Nat) : Option (Nat × RowRead) :=
    if (row n).isGood then none else placed.find? (fun x => x.2.row.toNat == n && goodOutcome x.2.outcome)
  (∀ n : Nat, n < 256 → t.rdr.row n = if (row n).isGood then row n else if (stored n).isSome then .good pass copy
      else if placed.any (fun x => x.2.row.toNat == n) then .erased pass copy else row n)
  ∧ (∀ n k : Nat, n < 256 → k < 8192 → t.dbm.dram.read (base + 8192 * n + k) = match stored n with
      | some x => (Memory.place [] 0 8192 x.2.payload).read k
      | none => s.dbm.dram.read (base + 8192 * n + k))
  ∧ (∀ a : Nat, (a < base ∨ base + 2097152 ≤ a) → t.dbm.dram.read a = s.dbm.dram.read a)
  ∧ (∀ c : Fin 16, t.rdr.tallies[c] = match placed.find? (fun x => x.1 == c.val) with
      | some x => { rows := tallies[c].rows + 1, failed := tallies[c].failed + if goodOutcome x.2.outcome then 0 else 1 }
      | none => tallies[c])

/-! ### Tokens (R26, R36) -/

/-- A token of a compressed segment: a literal run of bytes, or a copy of a length at a distance. -/
inductive Token where
  | literal (bytes : List Byte)
  | copy (length distance : Nat)
  deriving DecidableEq, Repr

/-- The stored bytes of a token. -/
def Token.bytes : Token → List Byte
  | .literal bs => literalToken bs
  | .copy l d => copyToken l d

/-- A token that its bytes can spell: a run of 1 to 128 bytes, a copy of length 3 to 18 at distance 1 to 2,048. -/
def Token.ok : Token → Bool
  | .literal bs => decide (1 ≤ bs.length) && decide (bs.length ≤ 128)
  | .copy l d => decide (3 ≤ l) && decide (l ≤ 18) && decide (1 ≤ d) && decide (d ≤ 2048)

/-- The host bytes a token yields behind the output so far, `since` bytes after the last reset: a copy repeats the bytes from its distance
back, its own output included, and yields zero bytes where it reaches back beyond the reset. -/
def Token.output (out : List Byte) (since : Nat) : Token → List Byte
  | .literal bs => bs
  | .copy l d => if since < d then List.replicate l 0 else (List.range l).map (fun i => out.getD (out.length - d + i % d) 0)

/-- The host bytes a run of tokens yields. -/
def outputOf : List Byte → Nat → List Token → List Byte
  | _, _, [] => []
  | out, since, t :: ts => t.output out since ++ outputOf (out ++ t.output out since) (since + (t.output out since).length) ts

/-- A copy of a run of tokens reaches back beyond the last reset. -/
def copiesFar : Nat → List Token → Bool
  | _, [] => false
  | since, .literal bs :: ts => copiesFar (since + bs.length) ts
  | since, .copy l d :: ts => decide (since < d) || copiesFar (since + l) ts

/-- How many host bytes a token stands for. -/
def Token.hostLength : Token → Nat
  | .literal bs => bs.length
  | .copy l _ => l

/-- Tokens with the host position each begins at. -/
def placedFrom : Nat → List Token → List (Nat × Token)
  | _, [] => []
  | i, t :: ts => (i, t) :: placedFrom (i + t.hostLength) ts

/-- A copy of length `l` at distance `d` is a candidate at position `i` of host bytes that follow a history, `since` bytes of it after the last
reset (R24). -/
def CopyAt (history : List Byte) (since : Nat) (data : List Byte) (i l d : Nat) : Prop :=
  3 ≤ l ∧ l ≤ 18 ∧ 1 ≤ d ∧ d ≤ 2048 ∧ d ≤ since + i ∧ i + l ≤ data.length
  ∧ ∀ k : Nat, k < l → data.getD (i + k) 0 = (history ++ data).getD (history.length + i + k - d) 0

/-- The tokens of R24 and R25 for host bytes: at each position the longest candidate, the nearest of that length, else a literal; a run of
literals goes on to 128 bytes. -/
def GreedyTokens (history : List Byte) (since : Nat) (data : List Byte) (ts : List Token) : Prop :=
  (∀ t ∈ ts, t.ok = true) ∧ (ts.map Token.hostLength).sum = data.length
  ∧ (∀ i l d : Nat, (i, Token.copy l d) ∈ placedFrom 0 ts → CopyAt history since data i l d
      ∧ ∀ l' d' : Nat, CopyAt history since data i l' d' → l' < l ∨ (l' = l ∧ d ≤ d'))
  ∧ (∀ (i : Nat) (bs : List Byte), (i, Token.literal bs) ∈ placedFrom 0 ts → bs = (data.drop i).take bs.length
      ∧ ∀ j l d : Nat, j < bs.length → ¬ CopyAt history since data (i + j) l d)
  ∧ (∀ (k : Nat) (bs cs : List Byte), ts[k]? = some (.literal bs) → ts[k + 1]? = some (.literal cs) → bs.length = 128)

/-! ### The write path given up -/

/-- The deferred write error record once a cause gives the write path up (R10, R55): the first object of the oldest slot left by the cut-back
of R8, else the position, with the objects of every slot; a record set already keeps all but its count, which goes up. -/
def State.deferredBy (s : State) (cause : DeferredCause) : Deferred :=
  let kept := s.cutBack.dbm.slots
  let objects := (kept.map Slot.objects).sum
  match s.cu.deferred with
  | some d => { d with objects := min 4294967295 (d.objects + objects) }
  | none => { cause := cause, partition := s.pu.partition, first := (kept.head?.bind Slot.first).getD s.pu.object, objects := objects }

/-! ### Invariants -/

/-- A latch's count is 0 while it is clear, and 1..255 while it is set (R184, R185). -/
def Latch.sound (l : Latch) : Bool := if l.set then decide (1 ≤ l.count) && decide (l.count ≤ 255) else l.count == 0

/-- The Event Unit: its latches, the unassigned ones clear, ATTN at its level (R184, R185, R188). -/
def Eu.Sound (e : Eu) : Prop :=
  (∀ i : Fin 32, e.latches[i].sound) ∧ (∀ i : Fin 32, 27 ≤ i.val → e.latches[i].set = false) ∧ e.attn = e.attnLevel

/-- The command queue: at most 4 commands, their tags distinct and none 0, none but the head begun (R174, R175). -/
def Cu.Sound (c : Cu) : Prop :=
  c.queue.length ≤ 4 ∧ (c.queue.map Queued.tag).Nodup ∧ (∀ q ∈ c.queue, q.tag ≠ 0) ∧ (∀ q ∈ c.queue.tail, q.begun = false)

/-- The Head Monitor: the head state is the greater of the derived state and the floor, CLEAN_REQ is asserted exactly while
it is REQUIRED (R161, R162). -/
def Hm.Sound (h : Hm) : Prop := h.head = h.judged ∧ h.cleanReq = (h.head == .required)

/-- The Servo Unit: the write clock is SERVO exactly while LOCKED, the inhibit stands only while LOCKED, the counts in their
ranges (R144, R147, R148, R152, R154). -/
def Sv.Sound (v : Sv) : Prop :=
  (v.clock = .servo ↔ v.timebase = .locked) ∧ (v.inhibit = true → v.timebase = .locked) ∧ v.runCount ≤ 64 ∧ v.missCount ≤ 2

/-- The settle timer runs exactly while SETTLING (R133). -/
def Rtc.Sound (r : Rtc) : Prop := r.motion = .settling ↔ r.settleTimer.isSome = true

/-- The Stream Port's counts and the staging area: credits and occupied places never pass 256, the balance and the error
count stay within 65,535 (R17, R171, R181). -/
def State.PortSound (s : State) : Prop :=
  s.spu.credits + s.dbm.staging.length ≤ 256 ∧ s.spu.readCredits ≤ 65535 ∧ s.spu.linkErrors ≤ 65535

/-- The ring of slots (R3, R4, R13): at most 512 occupied slots from the drain pointer on; direction NEUTRAL with none, WRITE with
the WRITING slot if any, then SEALED slots, then the FILLING slot if any, READ with the EXPANDING slot if any, then READY slots,
then at most one LOADING or FAILED slot. -/
def Dbm.RingSound (d : Dbm) : Prop :=
  d.drain < 512 ∧ d.slots.length ≤ 512
  ∧ (d.direction = .neutral → d.slots = [])
  ∧ (d.direction = .write → ∃ (front back : List SlotState) (n : Nat),
      d.slots.map Slot.state = front ++ List.replicate n .sealed ++ back
      ∧ (front = [] ∨ front = [.writing]) ∧ (back = [] ∨ back = [.filling]))
  ∧ (d.direction = .read → ∃ (front back : List SlotState) (n : Nat),
      d.slots.map Slot.state = front ++ List.replicate n .ready ++ back
      ∧ (front = [] ∨ front = [.expanding]) ∧ (back = [] ∨ back = [.loading] ∨ back = [.failed]))

/-- The Reader asks for no slot, has the tape in motion for none, waits at no pause and, but for a header read, goes to no place. -/
def Rdr.calm (r : Rdr) : Bool :=
  !r.wanted && !r.moving && r.activity != .paused && (r.target.isNone || r.activity == .header)

/-- While a slot is FAILED the Reader is calm, and nothing is under way that would hand it another dataset (R12, R94). A scan that locates
before a read is its READ_RECORDS's own work, with the Reader calm (R104). -/
def State.ReaderSound (s : State) : Prop :=
  ((∃ x ∈ s.dbm.slots, x.state = .failed) → s.rdr.calm = true ∧ ∀ c : Scan, s.pu.scan = some c → c.purpose ≠ .read)
  ∧ (∀ c : Scan, s.pu.scan = some c → c.purpose = .read →
      s.rdr.calm = true ∧ s.cu.progress = .scan ∧ ∃ n limit : Nat, s.executing = some (.rrec n limit))

end Sys2Proof.Machine
end

