-- ==== Sys2Proof/Certificates/Slice0/Obligations.lean ====
section
/-!
DEFINITION. Obligations.lean: the statements for the provers, from the numbered rules of spec/. Each docstring names the
rules it rests on; a clause that is the model's own choice says so and names its log entry.
-/
section
open Sys2Proof Sys2Proof.Machine

/-! ### The queue of commands -/

/-- A step takes the command at the front of the queue and runs it on the queue's rest. -/
def Obligations.StepRunsFrontCommand : Prop :=
  ∀ (c : Instr) (rest : List Instr) (s : State), s.pending = c :: rest → step s = exec c { s with pending := rest }

/-- With no command waiting a step is one millisecond: the running timers and the window go on, held before their expiry is
taken, and nothing else changes. The model's choice (log 1). -/
def Obligations.IdleStepPassesOneMillisecond : Prop :=
  ∀ s : State, s.pending = [] →
    let on (t : Option Timer) : Option Timer := t.map (fun x => { x with elapsed := min x.period (x.elapsed + 1) })
    step s = .next { s with
      rtc := { s.rtc with settleTimer := on s.rtc.settleTimer, threadTimer := on s.rtc.threadTimer, tensionTimer := on s.rtc.tensionTimer,
                          faultTimer := on s.rtc.faultTimer, windTimer := on s.rtc.windTimer },
      dbm := { s.dbm with sealTimer := on s.dbm.sealTimer },
      sm := { s.sm with window := s.sm.window.map (fun n => min 199 (n + 1)) } }

/-! ### Queued commands at arrival -/

/-- The parameters of the queued commands: their lengths (12.1, R190), their fields least significant byte first, and the
ranges of R174 step 5; `none` is PARAMETER_INVALID. -/
def Obligations.QueuedParametersRead : Prop :=
  (∀ (c : Command) (ps : List Byte), parseBare c ps = if ps.isEmpty then some c else none)
  ∧ (∀ p a b c d : Byte,
      parseLoct [p, a, b, c, d] = some (.loct p.toNat (a.toNat + 256 * b.toNat + 65536 * c.toNat + 16777216 * d.toNat)))
  ∧ (∀ k a b c d : Byte,
      let u : Nat := a.toNat + 256 * b.toNat + 65536 * c.toNat + 16777216 * d.toNat
      let n : Int := if u < 2147483648 then u else (u : Int) - 4294967296
      parseSpac [k, a, b, c, d]
        = if n < -65535 ∨ 65535 < n then none
          else if k.toNat = 0 then some (.spac .records n)
          else if k.toNat = 1 then some (.spac .filemarks n)
          else if k.toNat = 2 then some (.spac .eod n) else none)
  ∧ (∀ a b : Byte, parseWrec [a, b] = if a.toNat + 256 * b.toNat = 0 then none else some (.wrec (a.toNat + 256 * b.toNat)))
  ∧ (∀ a b : Byte, parseWfmk [a, b] = some (.wfmk (a.toNat + 256 * b.toNat)))
  ∧ (∀ a b c d e f : Byte,
      let n : Nat := a.toNat + 256 * b.toNat
      let limit : Nat := c.toNat + 256 * d.toNat + 65536 * e.toNat + 16777216 * f.toNat
      parseRrec [a, b, c, d, e, f] = if n = 0 ∨ limit = 0 ∨ 1048576 < limit then none else some (.rrec n limit))
  ∧ (∀ k a b c d : Byte, parseDpar [k, a, b, c, d] = some (.dpar k.toNat [a.toNat, b.toNat, c.toNat, d.toNat]))
  ∧ (∀ ps : List Byte, (ps.length ≠ 5 → parseLoct ps = none ∧ parseSpac ps = none ∧ parseDpar ps = none)
      ∧ (ps.length ≠ 2 → parseWrec ps = none ∧ parseWfmk ps = none) ∧ (ps.length ≠ 6 → parseRrec ps = none))

/-- A queued command that no check of R174 turns away joins the tail of the queue and is answered DEFERRED; nothing else changes
(R174 step 8). One that a check turns away gets that check's answer, the first that applies, and changes no state (R174 steps 2
to 7). -/
def Obligations.QueuedCommandAtArrival : Prop :=
  (∀ (i : Instr) (s : State) (tag : Byte) (name : List Byte) (c : Command), queuedParts i = some (tag, name, some c) →
      s.rtc.cleaningRun = false → tag ≠ 0 → (∀ q ∈ s.cu.queue, q.tag ≠ tag) → s.rtc.permits c = true → s.cu.queue.length < 4 →
      exec i s = .next { s with
        cu := { s.cu with queue := s.cu.queue ++ [{ tag := tag, command := c, begun := false }] },
        spu := { s.spu with out := s.spu.out ++ [.resp tag name .deferred] } })
  ∧ (∀ (i : Instr) (s : State) (tag : Byte) (name : List Byte) (parsed : Option Command), queuedParts i = some (tag, name, parsed) →
      (s.rtc.cleaningRun = true → exec i s = .next (s.sends (.resp tag name (.refused .notReady))))
      ∧ (s.rtc.cleaningRun = false → tag = 0 → exec i s = .next (s.sends (.resp tag name (.refused .tagInvalid))))
      ∧ (s.rtc.cleaningRun = false → tag ≠ 0 → (∃ q ∈ s.cu.queue, q.tag = tag) →
          exec i s = .next (s.sends (.resp tag name (.refused .tagInUse))))
      ∧ (s.rtc.cleaningRun = false → tag ≠ 0 → (∀ q ∈ s.cu.queue, q.tag ≠ tag) →
          (parsed = none → exec i s = .next (s.sends (.resp tag name (.refused .parameterInvalid))))
          ∧ (∀ c : Command, parsed = some c →
              (s.rtc.permits c = false → exec i s = .next (s.sends (.resp tag name (.refused .notReady))))
              ∧ (s.rtc.permits c = true → 4 ≤ s.cu.queue.length → exec i s = .next (s.sends (.resp tag name .queueFull))))))

/-- The permission table, outside a cleaning run and the recovery of a cartridge of type UNKNOWN; in these no queued command
is permitted (R176). That the recovery of a cartridge of type UNKNOWN is over once it has ended FAULTED, so that the table's FAULTED row
permits UNLD for that type too, is the model's choice (log 30). -/
def Obligations.PermissionTable : Prop :=
  ∀ r : Rtc,
    ((r.cleaningRun = true ∨ r.unknownRecovering = true) → ∀ c : Command, r.permits c = false)
    ∧ (r.cleaningRun = false → r.unknownRecovering = false →
        (r.permits .load = true ↔ r.cartridge ∈ [.seated, .threadedUnknown, .threading, .tensioning, .headerRead, .ready, .unloading])
        ∧ (r.permits .unld = true ↔ r.cartridge ∈ [.seated, .threadedUnknown, .threading, .tensioning, .headerRead, .ready,
            .unloading, .ejected, .faulted])
        ∧ ∀ c : Command, c ≠ .load → c ≠ .unld →
            (r.permits c = true ↔ r.cartridge ∈ [.threading, .tensioning, .headerRead, .ready, .unloading]))

/-- A cleaning run by the cartridge's type and state (R173). -/
def Obligations.CleaningRunByTypeAndState : Prop :=
  ∀ r : Rtc, r.cleaningRun = true ↔
    r.typeCode = some .cleaning
      ∧ (r.cartridge = .threadedUnknown ∨ r.cartridge = .threading ∨ r.cartridge = .tensioning ∨ r.cartridge = .cleaning)

/-- A CMD of a name outside the sixteen is refused UNKNOWN_COMMAND (R174 step 1); a TBL of a name outside the six, its check
good and no cleaning run in progress, is refused TABLE_INVALID (R179 step 3). READ_POSITION, ACK_EVENTS, ABORT and RESET_DEVICE
are refused NOT_READY in a cleaning run, and PARAMETER_INVALID for parameters out of range; a QUERY_STATUS with parameters is refused
PARAMETER_INVALID in every state. Each then does nothing (R178, R190). -/
def Obligations.NamesAndQuickCommandsRefused : Prop :=
  ((∀ (tag : Byte) (name ps : List Byte) (s : State),
      name ∉ [ascii 'L' 'O' 'A' 'D', ascii 'U' 'N' 'L' 'D', ascii 'R' 'W' 'N' 'D', ascii 'L' 'O' 'C' 'T', ascii 'S' 'P' 'A' 'C',
        ascii 'W' 'R' 'E' 'C', ascii 'W' 'F' 'M' 'K', ascii 'R' 'R' 'E' 'C', ascii 'S' 'Y' 'N' 'C', ascii 'E' 'R' 'A' 'S',
        ascii 'D' 'P' 'A' 'R', ascii 'Q' 'S' 'T' 'A', ascii 'R' 'P' 'O' 'S', ascii 'A' 'C' 'K' 'E', ascii 'A' 'B' 'R' 'T',
        ascii 'R' 'S' 'E' 'T'] →
      exec (.unknownCommand tag name ps) s = .next (s.sends (.resp tag name (.refused .unknownCommand))))
    ∧ (∀ (tag : Byte) (name : List Byte) (k : BitVec 16) (fs : List Byte) (s : State),
      name ∉ [ascii 'S' 'P' 'D' 'T', ascii 'P' 'P' 'O' 'L', ascii 'C' 'P' 'O' 'L', ascii 'R' 'P' 'O' 'L', ascii 'H' 'R' 'E' 'C',
        ascii 'E' 'V' 'M' 'K'] →
      crc16 (name ++ fs) = k → s.rtc.cleaningRun = false →
      exec (.tblNameInvalid tag name k fs) s = .next (s.sends (.resp tag name (.refused .tableInvalid)))))
  ∧ (∀ (i : Instr) (s : State) (tag : Byte) (name : List Byte) (good : Bool), quickParts i = some (tag, name, good) →
      (s.rtc.cleaningRun = true → exec i s = .next (s.sends (.resp tag name (.refused .notReady))))
      ∧ (s.rtc.cleaningRun = false → good = false → exec i s = .next (s.sends (.resp tag name (.refused .parameterInvalid)))))
  ∧ (∀ (tag : Byte) (ps : List Byte) (s : State), ps ≠ [] →
      exec (.queryStatus tag ps) s = .next (s.sends (.resp tag (ascii 'Q' 'S' 'T' 'A') (.refused .parameterInvalid))))

/-! ### Quick commands -/

/-- QUERY_STATUS is answered with the snapshot in every state, a cleaning run included, and changes no state; READ_POSITION is
answered with the position fields outside a cleaning run (R103, R178, R189). The bytes of the position fields, their order, a flag as 1
and FFh for fields absent, are 12.1's layout as the model takes it, in part its choice (log 31). -/
def Obligations.StatusAndPositionReported : Prop :=
  ∀ (tag : Byte) (s : State),
    exec (.queryStatus tag []) s = .next (s.sends (.resp tag (ascii 'Q' 'S' 'T' 'A') (.done .good {} s.snapshot)))
    ∧ (s.rtc.cleaningRun = false →
        exec (.readPosition tag []) s = .next (s.sends (.resp tag (ascii 'R' 'P' 'O' 'S') (.done .good {} s.positionReport))))
    ∧ (s.pu.volume = .none → s.positionReport = 0 :: List.replicate 25 255)
    ∧ (s.pu.volume ≠ .none → s.positionReport = [BitVec.ofNat 8 s.pu.volume.code, BitVec.ofNat 8 s.pu.partition]
        ++ leBytes 4 s.pu.object ++ anchorSnap s.pu.anchor ++ eodSnap s.eodHere)

/-- ACK_EVENTS clears the latches named with their counts, leaves the others and the mask, judges ATTN again, sends no NOTE,
and is answered DONE (R187, R188). -/
def Obligations.AcknowledgeClearsNamed : Prop :=
  ∀ (tag : Byte) (es : List Byte) (s : State), s.rtc.cleaningRun = false → es.length ≤ 32 → (∀ e ∈ es, e.toNat ≤ 31) →
    ∃ e' : Eu,
      exec (.ackEvents tag (BitVec.ofNat 8 es.length :: es)) s = .next { s with
        eu := e', spu := { s.spu with out := s.spu.out ++ [.resp tag (ascii 'A' 'C' 'K' 'E') doneOk] } }
      ∧ e'.mask = s.eu.mask
      ∧ (∀ i : Fin 32, (∃ e ∈ es, e.toNat = i.val) → e'.latches[i] = { set := false, count := 0 })
      ∧ (∀ i : Fin 32, (∀ e ∈ es, e.toNat ≠ i.val) → e'.latches[i] = s.eu.latches[i])
      ∧ (e'.attn = true ↔ ∃ i : Fin 32, e'.latches[i].set = true ∧ e'.mask.getLsbD i.val = true)

/-- ABORT outside a cleaning run answers each queued command ABORTED in order, empties the queue, the credits, the read-credit balance, the
staging places and the seal timer, keeps every table in force, gives up the record in progress, and hands over its own DONE last. While a
span is written, in a sound ring, it cuts the FILLING slot back to its last entry and seals it (a slot with none is freed); a read path and
its direction it discards. The Reader is stopped wherever it stands, ENDED after a fault with no read path included: IDLE, read-ahead OFF, the row
map empty, its tallies dropped (R4, R8, R19, R97, R98, R182). That the header read of a load goes on untouched, to READY, is the model's reading
of R143 beside R97 (log 72). -/
def Obligations.AbortEmptiesTheQueue : Prop :=
  ∀ (tag : Byte) (s : State), s.rtc.cleaningRun = false →
    ∃ (t : State) (answers notes : List Packet), exec (.abort tag []) s = .next t
      ∧ t.spu.out = s.spu.out ++ answers ++ notes ++ [.resp tag (ascii 'A' 'B' 'R' 'T') doneOk]
      ∧ answers.length = s.cu.queue.length
      ∧ (∀ (i : Nat) (q : Queued), s.cu.queue[i]? = some q →
          ∃ r : Results, answers[i]? = some (.resp q.tag q.command.name (.done .aborted r [])))
      ∧ t.cu.queue = [] ∧ t.spu.credits = 0 ∧ t.spu.readCredits = 0 ∧ t.dbm.staging = [] ∧ t.dbm.sealTimer = none
      ∧ t.rc.record = none ∧ t.rc.segment = none ∧ t.rc.run = [] ∧ t.rc.lookahead = []
      ∧ t.cu.policy = s.cu.policy ∧ t.sm.table = s.sm.table ∧ t.pu.policy = s.pu.policy ∧ t.hm.policy = s.hm.policy
      ∧ t.eu.mask = s.eu.mask ∧ t.spu.linkErrors = s.spu.linkErrors
      ∧ (s.dbm.direction = .read → t.dbm.slots = [] ∧ t.dbm.direction = .neutral)
      ∧ ((s.rdr.activity ≠ .header ∨ s.dbm.direction = .read) → t.rdr.activity = .idle ∧ t.rdr.readAhead = false ∧ t.rdr.expected = none
          ∧ t.rdr.rows = Vector.replicate 256 .absent ∧ t.rdr.copies = [] ∧ (∀ c : Fin 16, t.rdr.tallies[c] = { rows := 0, failed := 0 }))
      ∧ (s.rdr.activity = .header → s.dbm.direction ≠ .read → t.rdr = s.rdr)
      ∧ (∀ (x : Slot) (older : List Slot), s.dbm.RingSound → s.dbm.direction = .write → s.dbm.slots = older ++ [x] → x.state = .filling →
          s.wf.stage = .span → t.dbm.slots = older ++ (if x.entries.getD 0 = 0 then []
            else [{ x with state := .sealed, payload := (s.rc.segment.map Segment.start).or x.payload }]))

/-! ### Resets -/

/-- Power-on reset, nRESET and RESET_DEVICE outside a cleaning run: every slot FREE, the pointers 0, the direction NEUTRAL,
the staging empty, no credit, no seal timer, no recovered row, no deferred write error; the DRAM is left as it is (R20). That what the
tape's trace holds stays in it, at a power-on reset too, is the model's choice (log 5). -/
def Obligations.ResetsEmptyTheBuffer : Prop :=
  ∀ (i : Instr) (s : State),
    ((∃ x, i = .powerOnReset x) ∨ (∃ x, i = .nreset x) ∨ (∃ tag x, i = .resetDevice tag [] x ∧ s.rtc.cleaningRun = false)) →
    ∃ t : State, exec i s = .next t
      ∧ t.dbm = { slots := [], drain := 0, direction := .neutral, staging := [], sealTimer := none, recovered := 0, dram := s.dbm.dram }
      ∧ t.dbm.take = 0 ∧ t.spu.credits = 0 ∧ t.cu.deferred = none ∧ s.tape <+: t.tape

/-- A device reset keeps the channel records, the floor, the counters and the armed flag, returns the cleaning policy to its default and
recomputes the head state; a state that does not change raises no event and keeps CLEAN_REQ. The Stream Port's fields, the queue and the
recovery policy take their reset values (R170, R171, R183). A row set, separator or mark pattern being written is cut off, and nothing more
is written (R66); that a power-on reset cuts it off too is the model's choice (log 5). The Record Compressor and Expander, the Write
Formatter, the Speed Matcher, the Reader, the Position Unit and the Servo Unit take the values that R21, R34, R44, R67, R82, R103 and R144
give. The cartridge state, its type and its tab follow from the sensors, with what that begins; where the reels turned a device reset leaves
them SETTLING with the settle timer at 50 ms, at rest otherwise and after power-on (R123, R124, R128, R133). That a recovery wind and
TENSIONING count as turning, and that a recovery begins in the step of the reset, is the model's reading (logs 36, 30), as is that a cleaning run begun there
has the leader between the reels (log 8); that LOAD_FAULT for a cartridge of type UNKNOWN found threaded is latched there is its choice (log 54), and so is that the packets handed over before stay across a
device reset, where R185 loses a NOTE not yet sent (log 4). At power-on the Head Monitor takes the values of R156.
RESET_DEVICE outside a cleaning run is answered DONE, and then acts exactly as a pulse on nRESET (R178, R183). -/
def Obligations.DeviceReset : Prop :=
  (∀ (x : Sensors) (s : State), ∃ t : State, exec (.nreset x) s = .next t
      ∧ t.hm.channels = s.hm.channels ∧ t.hm.floor = s.hm.floor ∧ t.hm.metres = s.hm.metres ∧ t.hm.total = s.hm.total
      ∧ t.hm.cleanings = s.hm.cleanings ∧ t.hm.loads = s.hm.loads ∧ t.hm.armed = s.hm.armed
      ∧ t.hm.policy = CleaningPolicy.default ∧ t.hm.head = t.hm.judged
      ∧ (t.hm.head = s.hm.head → t.hm.cleanReq = s.hm.cleanReq ∧ t.eu.latches[15].set = false ∧ t.eu.latches[16].set = false)
      ∧ (t.hm.head ≠ s.hm.head → t.hm.cleanReq = (t.hm.head == .required)
          ∧ (t.hm.head = .advised → t.eu.latches[15] = { set := true, count := 1 })
          ∧ (t.hm.head = .required → t.eu.latches[16] = { set := true, count := 1 }))
      ∧ t.spu.credits = 0 ∧ t.spu.readCredits = 0 ∧ t.spu.linkErrors = 0 ∧ t.cu = Cu.reset
      ∧ t.eu.mask = 0xFFFFFFFF
      ∧ t.tape = s.tape ++ (s.beingWritten.toList.map .cutOff)
      ∧ BlocksAtReset t ∧ t.dbm.dram = s.dbm.dram ∧ s.spu.out <+: t.spu.out
      ∧ FoundAtReset x ([Motion.accelerating, .streaming, .decelerating, .shuttling].contains s.rtc.motion || s.rtc.windTimer.isSome
          || s.rtc.cartridge == .tensioning) t)
  ∧ (∀ (x : Sensors) (s : State), ∃ t : State, exec (.powerOnReset x) s = .next t
      ∧ t.tape = s.tape ++ (s.beingWritten.toList.map .cutOff)
      ∧ BlocksAtReset t ∧ FoundAtReset x false t ∧ t.cu = Cu.reset ∧ t.eu.mask = 0xFFFFFFFF
      ∧ t.hm = { channels := Vector.replicate 16 { state := .good, n := 0, f := 0, deadRun := 0, lastF := none }, head := .clean,
                 floor := .clean, metres := 0, total := 0, cleanings := 0, loads := 0, armed := true, policy := CleaningPolicy.default,
                 cleanReq := false })
  ∧ (∀ (tag : Byte) (x : Sensors) (s : State), s.rtc.cleaningRun = false →
      exec (.resetDevice tag [] x) s = exec (.nreset x) (s.sends (.resp tag (ascii 'R' 'S' 'E' 'T') doneOk)))

/-! ### Tables -/

/-- A table packet that a check of R179 turns away gets that check's answer, the first that applies; the table in force stands.
Only a failed table check does more: it latches TABLE_CHECK. -/
def Obligations.TablesRefusedInOrder : Prop :=
  ∀ (i : Instr) (s : State) (tag : Byte) (name : List Byte) (k : BitVec 16) (fs : List Byte), tableParts i = some (tag, name, k, fs) →
    (crc16 (name ++ fs) ≠ k → exec i s = .next ((s.raise .tableCheck).sends (.resp tag name (.refused .tableCheck))))
    ∧ (crc16 (name ++ fs) = k → s.rtc.cleaningRun = true → exec i s = .next (s.sends (.resp tag name (.refused .notReady))))
    ∧ (crc16 (name ++ fs) = k → s.rtc.cleaningRun = false →
        (tableLength name fs = false → exec i s = .next (s.sends (.resp tag name (.refused .tableInvalid))))
        ∧ (tableLength name fs = true → name = ascii 'S' 'P' 'D' 'T' → (s.rtc.motion = .accelerating ∨ s.rtc.motion = .streaming) →
            exec i s = .next (s.sends (.resp tag name (.refused .busy))))
        ∧ (tableLength name fs = true → name = ascii 'H' 'R' 'E' 'C' → s.hm.armed = false →
            exec i s = .next (s.sends (.resp tag name (.refused .locked)))))

/-- RPOL: each field clamped and installed. PPOL: one to four records installed, the partitions beyond them at their defaults,
another count refused TABLE_INVALID (R106, R179). Nothing else changes. -/
def Obligations.PoliciesInstalled : Prop :=
  (∀ (tag a b c d e : Byte) (s : State), s.rtc.cleaningRun = false →
    exec (.rpol tag (crc16 (ascii 'R' 'P' 'O' 'L' ++ [a, b, c, d, e])) [a, b, c, d, e]) s = .next { s with
      cu := { s.cu with policy := { margin := min 12 a.toNat, restartLimit := min 3 b.toNat, missLimit := max 1 (min 5 c.toNat),
                                    retries := min 8 d.toNat, offTrack := max 5 (min 40 e.toNat) } },
      spu := { s.spu with out := s.spu.out ++ [.resp tag (ascii 'R' 'P' 'O' 'L') doneOk] } })
  ∧ (∀ (tag : Byte) (rs : List (Byte × Byte)) (s : State), s.rtc.cleaningRun = false → rs.length < 256 →
      let fs : List Byte := BitVec.ofNat 8 rs.length :: rs.flatMap (fun r => [r.1, r.2])
      let name : List Byte := ascii 'P' 'P' 'O' 'L'
      ((rs.length = 0 ∨ 4 < rs.length) →
        exec (.ppol tag (crc16 (name ++ fs)) fs) s = .next (s.sends (.resp tag name (.refused .tableInvalid))))
      ∧ (1 ≤ rs.length → rs.length ≤ 4 →
        exec (.ppol tag (crc16 (name ++ fs)) fs) s = .next { s with
          pu := { s.pu with policy := rs.map (fun r =>
              { write := if r.1 = 0 then .writable else if r.1 = 1 then .appendOnly else .readOnly, compress := r.2 != 0 })
            ++ List.replicate (4 - rs.length) { write := .writable, compress := true } },
          spu := { s.spu with out := s.spu.out ++ [.resp tag name doneOk] } }))

/-- SPDT: the values a table carries are its field bytes, clamped into their ranges, where it has 1 to 8 entries that rise once clamped, and no
table otherwise (12.1, R79); so those an accepted table holds lie in their ranges. Installed, index 0 takes effect with its speed and the schedule
and pending candidate are cleared (R80); a table of bad structure is refused. -/
def Obligations.SpeedTableInstalled : Prop :=
  (∀ fs : List Byte, tableLength (ascii 'S' 'P' 'D' 'T') fs = true →
    let n := (fs.headD 0).toNat
    let byte (o : Nat) : Nat := (fs.getD o 0).toNat
    let word (o : Nat) : Nat := byte o + 256 * byte (o + 1)
    let entries := (List.range n).map (fun i => (max 1000 (min 6000 (word (1 + 4 * i))), max 20 (min 600 (word (3 + 4 * i)))))
    let o := 1 + 4 * n
    let high := max 2 (min 510 (word o))
    parseSpdt fs = if 1 ≤ n ∧ n ≤ 8 ∧ entries.Pairwise (fun a b => a.1 < b.1 ∧ a.2 < b.2) then
        some { entries := entries, high := high, low := min (high - 2) (word (o + 2)), confirm := max 1 (min 8 (byte (o + 4))),
               sealTimeout := max 100 (min 60000 (word (o + 5))), tolerance := max 1 (min 10 (byte (o + 7))) }
      else none)
  ∧ (∀ (fs : List Byte) (t : SpeedTable), parseSpdt fs = some t →
    1 ≤ t.entries.length ∧ t.entries.length ≤ 8
    ∧ (∀ e ∈ t.entries, 1000 ≤ e.1 ∧ e.1 ≤ 6000 ∧ 20 ≤ e.2 ∧ e.2 ≤ 600)
    ∧ t.entries.Pairwise (fun a b => a.1 < b.1 ∧ a.2 < b.2)
    ∧ 2 ≤ t.high ∧ t.high ≤ 510 ∧ t.low + 2 ≤ t.high ∧ 1 ≤ t.confirm ∧ t.confirm ≤ 8
    ∧ 100 ≤ t.sealTimeout ∧ t.sealTimeout ≤ 60000 ∧ 1 ≤ t.tolerance ∧ t.tolerance ≤ 10)
  ∧ (∀ (tag : Byte) (fs : List Byte) (s : State), s.rtc.cleaningRun = false → tableLength (ascii 'S' 'P' 'D' 'T') fs = true →
      s.rtc.motion ≠ .accelerating → s.rtc.motion ≠ .streaming →
      let name : List Byte := ascii 'S' 'P' 'D' 'T'
      (parseSpdt fs = none → exec (.spdt tag (crc16 (name ++ fs)) fs) s = .next (s.sends (.resp tag name (.refused .tableInvalid))))
      ∧ (∀ t : SpeedTable, parseSpdt fs = some t →
          let v := (t.entries.headD (0, 0)).1
          exec (.spdt tag (crc16 (name ++ fs)) fs) s = .next { s with
            sm := { s.sm with table := t, index := 0, scheduled := none, pending := none, confirmCount := 0 },
            rtc := { s.rtc with speedIndex := 0, speed := v }, sv := { s.sv with speed := v },
            spu := { s.spu with out := s.spu.out ++ [.resp tag name doneOk] } }))

/-- CPOL: the policy a table carries is its field bytes, clamped into their ranges, where they then satisfy the conditions of R164, and none
otherwise (12.1, R163); so an accepted policy's fields lie in their ranges. Installed, the head state is the one it gives, the channel records,
counters and floor stand; a table that carries none is refused TABLE_INVALID; the default is in force after a reset (R163, R164). -/
def Obligations.CleaningPolicyInstalled : Prop :=
  (∀ fs : List Byte, fs.length = 15 →
    let byte (o : Nat) : Nat := (fs.getD o 0).toNat
    let word (o : Nat) : Nat := byte o + 256 * byte (o + 1)
    let p : CleaningPolicy := { tripUp := max 1 (min 256 (word 0)), tripDown := min 255 (word 2), dead := max 1 (min 256 (word 4)),
                                adviseCount := max 1 (min 16 (byte 6)), requiredCount := max 1 (min 16 (byte 7)),
                                metreLimit := max 1000 (min 1000000 (word 8 + 65536 * word 10)), cap := min 7 (byte 12),
                                length := max 10 (min 500 (word 13)) }
    parseCpol fs = if p.tripDown < p.tripUp ∧ p.tripUp ≤ p.dead ∧ p.adviseCount ≤ p.requiredCount then some p else none)
  ∧ (∀ (fs : List Byte) (p : CleaningPolicy), parseCpol fs = some p →
    1 ≤ p.tripUp ∧ p.tripUp ≤ 256 ∧ p.tripDown ≤ 255 ∧ 1 ≤ p.dead ∧ p.dead ≤ 256 ∧ 1 ≤ p.adviseCount ∧ p.adviseCount ≤ 16
    ∧ 1 ≤ p.requiredCount ∧ p.requiredCount ≤ 16 ∧ 1000 ≤ p.metreLimit ∧ p.metreLimit ≤ 1000000 ∧ p.cap ≤ 7
    ∧ 10 ≤ p.length ∧ p.length ≤ 500 ∧ p.tripDown < p.tripUp ∧ p.tripUp ≤ p.dead ∧ p.adviseCount ≤ p.requiredCount)
  ∧ (∀ (tag : Byte) (fs : List Byte) (p : CleaningPolicy) (s : State), s.rtc.cleaningRun = false → fs.length = 15 → parseCpol fs = some p →
      ∃ (t : State) (before : List Packet),
        exec (.cpol tag (crc16 (ascii 'C' 'P' 'O' 'L' ++ fs)) fs) s = .next t
        ∧ t.spu.out = before ++ [.resp tag (ascii 'C' 'P' 'O' 'L') doneOk]
        ∧ t.hm.policy = p ∧ t.hm.head = t.hm.judged ∧ t.hm.channels = s.hm.channels ∧ t.hm.metres = s.hm.metres
        ∧ t.hm.total = s.hm.total ∧ t.hm.cleanings = s.hm.cleanings ∧ t.hm.loads = s.hm.loads ∧ t.hm.floor = s.hm.floor
        ∧ t.hm.armed = s.hm.armed ∧ t.dbm = s.dbm ∧ t.cu = s.cu ∧ t.pu = s.pu ∧ t.rtc = s.rtc ∧ t.wf = s.wf ∧ t.rdr = s.rdr)
  ∧ (∀ (tag : Byte) (fs : List Byte) (s : State), s.rtc.cleaningRun = false → fs.length = 15 → parseCpol fs = none →
      exec (.cpol tag (crc16 (ascii 'C' 'P' 'O' 'L' ++ fs)) fs) s
        = .next (s.sends (.resp tag (ascii 'C' 'P' 'O' 'L') (.refused .tableInvalid))))
  ∧ (∀ (x : Sensors) (s t : State), exec (.powerOnReset x) s = .next t ∨ exec (.nreset x) s = .next t →
      t.hm.policy = { tripUp := 8, tripDown := 2, dead := 128, adviseCount := 1, requiredCount := 4, metreLimit := 100000, cap := 1,
                      length := 60 })

/-- HREC while armed: counters that agree and a floor of NONE, ADVISED or REQUIRED are installed, the flag is cleared, the head
state recomputed and the channel records left; other values are refused TABLE_INVALID (R169). -/
def Obligations.HeadRecordInstalled : Prop :=
  ∀ (tag : Byte) (fs : List Byte) (s : State), s.rtc.cleaningRun = false → fs.length = 17 → s.hm.armed = true →
    let metres := leNat (fs.take 4)
    let total := leNat ((fs.drop 4).take 4)
    let floor := leNat ((fs.drop 16).take 1)
    let name : List Byte := ascii 'H' 'R' 'E' 'C'
    ((total < metres ∨ 2 < floor) → exec (.hrec tag (crc16 (name ++ fs)) fs) s = .next (s.sends (.resp tag name (.refused .tableInvalid))))
    ∧ (metres ≤ total → floor ≤ 2 → ∃ (t : State) (before : List Packet),
        exec (.hrec tag (crc16 (name ++ fs)) fs) s = .next t ∧ t.spu.out = before ++ [.resp tag name doneOk]
        ∧ t.hm.metres = metres ∧ t.hm.total = total ∧ t.hm.cleanings = leNat ((fs.drop 8).take 4)
        ∧ t.hm.loads = leNat ((fs.drop 12).take 4) ∧ t.hm.floor.rank = floor ∧ t.hm.armed = false
        ∧ t.hm.head = t.hm.judged ∧ t.hm.channels = s.hm.channels ∧ t.hm.policy = s.hm.policy
        ∧ t.dbm = s.dbm ∧ t.cu = s.cu ∧ t.pu = s.pu ∧ t.rtc = s.rtc ∧ t.wf = s.wf ∧ t.rdr = s.rdr)

/-- EVMK: the mask replaced, one NOTE with its count for each set latch whose bit goes from clear to set, in increasing number
and before the DONE, ATTN judged again; no latch changes (R186, R188). -/
def Obligations.EventMaskInstalled : Prop :=
  ∀ (tag a b c d : Byte) (s : State), s.rtc.cleaningRun = false →
    let mask : BitVec 32 := d ++ c ++ b ++ a
    let news := (List.finRange 32).filter (fun i => s.eu.latches[i].set && !s.eu.mask.getLsbD i.val && mask.getLsbD i.val)
    ∃ level : Bool,
      exec (.evmk tag (crc16 (ascii 'E' 'V' 'M' 'K' ++ [a, b, c, d])) [a, b, c, d]) s = .next { s with
        eu := { latches := s.eu.latches, mask := mask, attn := level },
        spu := { s.spu with out := s.spu.out ++ news.map (fun i => .note i.val s.eu.latches[i].count)
                                    ++ [.resp tag (ascii 'E' 'V' 'M' 'K') doneOk] } }
      ∧ (level = true ↔ ∃ i : Fin 32, s.eu.latches[i].set = true ∧ mask.getLsbD i.val = true)

/-! ### Record data, credits, dropped packets, events -/

/-- A WDAT packet is credited, taking one credit and one staging place, while a WRITE_RECORDS executes with credit and no
deferred error; otherwise it is dropped with PROTOCOL_ERROR, and an executing WRITE_RECORDS ends with it, its credits lapsing and
its staging emptied (R180). -/
def Obligations.RecordDataCreditedOrDropped : Prop :=
  ∀ (flags : Byte) (data : List Byte) (s : State),
    let credited := 1 ≤ s.spu.credits ∧ 1 ≤ data.length ∧ data.length ≤ 4096 ∧ s.cu.deferred = none
    (s.writingRecords = true → credited → exec (.wdat flags data) s = .next { s with
        spu := { s.spu with credits := s.spu.credits - 1 },
        dbm := { s.dbm with staging := s.dbm.staging ++ [{ final := flags.getLsbD 0, data := data }] } })
    ∧ (s.writingRecords = false → exec (.wdat flags data) s = .next (s.raise .protocolError))
    ∧ (s.writingRecords = true → ¬ credited → ∃ (t : State) (q : Queued) (before : List Packet) (res : Results),
        exec (.wdat flags data) s = .next t ∧ s.cu.queue.head? = some q ∧ t.cu.queue = s.cu.queue.tail
        ∧ t.spu.out = before ++ [.resp q.tag (ascii 'W' 'R' 'E' 'C') (.done .protocolError res [])]
        ∧ res.count = s.cu.count ∧ t.spu.credits = 0 ∧ t.dbm.staging = [] ∧ t.eu.latches[25].set = true)

/-- A RCRD adds its count to the balance, which stops at 65,535 with PROTOCOL_ERROR; a count of 0 or above 4,096 adds nothing and
latches PROTOCOL_ERROR (R181, R190). A packet that fails R171's checks adds 1 to the link check error count, stopping at 65,535, and
latches LINK_ERROR; it is passed to no block. Every packet handed over carries the link check that R171 asks of a received one (R171,
R190). -/
def Obligations.ReadCreditsAndLinkErrors : Prop :=
  (∀ (n : BitVec 16) (s : State),
      ((n.toNat = 0 ∨ 4096 < n.toNat) → exec (.rcrd n) s = .next (s.raise .protocolError))
      ∧ (1 ≤ n.toNat → n.toNat ≤ 4096 →
          (s.spu.readCredits + n.toNat ≤ 65535 →
            exec (.rcrd n) s = .next { s with spu := { s.spu with readCredits := s.spu.readCredits + n.toNat } })
          ∧ (65535 < s.spu.readCredits + n.toNat →
            exec (.rcrd n) s = .next (State.raise { s with spu := { s.spu with readCredits := 65535 } } .protocolError))))
  ∧ (∀ (packet : List Byte) (s : State), packetGood packet = false →
      exec (.linkCheckFailure packet) s
        = .next (State.raise { s with spu := { s.spu with linkErrors := min 65535 (s.spu.linkErrors + 1) } } .linkError))
  ∧ (∀ p : Packet, let n := p.wire.length - 2
      2 ≤ p.wire.length ∧ leNat (p.wire.drop n) = (crc16 (p.wire.take n)).toNat)

/-- An occurrence of an event sets a clear latch with count 1, judges ATTN, and hands over one NOTE if its mask bit is set; at a
set latch it counts, to 255 at most, and sends nothing (R185, R188). -/
def Obligations.EventOccurrence : Prop :=
  ∀ (ev : Event) (s : State),
    (s.eu.latches[ev.num].set = false → ∃ level : Bool,
      s.raise ev = { s with
        eu := { s.eu with latches := s.eu.latches.set ev.num { set := true, count := 1 }, attn := level },
        spu := { s.spu with out := s.spu.out ++ if s.eu.mask.getLsbD ev.num.val then [.note ev.num.val 1] else [] } }
      ∧ (level = true ↔ ∃ i : Fin 32, (i = ev.num ∨ s.eu.latches[i].set = true) ∧ s.eu.mask.getLsbD i.val = true))
    ∧ (s.eu.latches[ev.num].set = true →
      s.raise ev = { s with
        eu := { s.eu with latches := s.eu.latches.set ev.num { set := true, count := min 255 (s.eu.latches[ev.num].count + 1) } } })

/-- A command at the head waits in THREADING, TENSIONING, HEADER_READ and UNLOADING; else it reports a set deferred write error,
which clears the record and sets the position; else it completes NOT_READY where the permission table says so; a SYNC that runs
while the direction is not WRITE completes GOOD at once (R15, R56, R175). With direction WRITE, a FILLING slot at the newest end and the Write
Formatter busy: a RWND, SPAC, READ_RECORDS, LOCT of a partition there is, UNLD in READY, ERAS and DEFINE_PARTITIONS that pass their checks begin
the flush, as a SYNC and a WRITE_FILEMARKS with count 0 begin theirs in place: the slot is SEALED, its trailer written with the continues flag its
first entry gives, the payload padded with zero bytes, every other byte of the DRAM as before, or it is freed where it has no entry, the DRAM
untouched; the seal timer stops, and the command waits begun, nothing else changed (R6, R14, R15). A WRITE_RECORDS at EOD goes on with the write path as
it stands and takes credits (R17, R118); a WRITE_FILEMARKS places its entries in the FILLING slot and completes GOOD (R30, R32, R104). A write
command's flags byte carries the early-warning flag, the model's choice for its statuses other than GOOD (R59, log 40); that the checks of ERAS and
of the write commands take a position past the EOD object as at it is the model's reading (log 16). -/
def Obligations.CommandBegins : Prop :=
  ∀ (s : State) (q : Queued) (rest : List Queued), s.cu.queue = q :: rest → q.begun = false →
    (s.rtc.cartridge ∈ [.threading, .tensioning, .headerRead, .unloading] → exec .commandBeginsExecution s = .next s)
    ∧ (s.rtc.cartridge ∉ [.threading, .tensioning, .headerRead, .unloading] →
        (∀ d : Deferred, s.cu.deferred = some d → ∃ (t : State) (flags : Nat),
          exec .commandBeginsExecution s = .next t ∧ t.cu.queue = rest ∧ t.cu.deferred = none
          ∧ t.pu = { s.pu with partition := d.partition, object := d.first, anchor := none }
          ∧ t.spu.out = s.spu.out ++ [.resp q.tag q.command.name (.done .deferredError
              { count := d.objects, object := d.first, flags := flags,
                deferred := (match d.cause with | .writeError => 0 | .volumeOverflow => 1 | .tensionFault => 2) + 16 * d.partition } [])]
          ∧ t.dbm = s.dbm ∧ t.rtc = s.rtc ∧ t.wf = s.wf ∧ t.rdr = s.rdr)
        ∧ (s.cu.deferred = none → s.rtc.permits q.command = false → ∃ (t : State) (flags : Nat),
          exec .commandBeginsExecution s = .next t ∧ t.cu.queue = rest
          ∧ t.spu.out = s.spu.out ++ [.resp q.tag q.command.name (.done .notReady { flags := flags } [])]
          ∧ t.dbm = s.dbm ∧ t.rtc = s.rtc ∧ t.wf = s.wf ∧ t.rdr = s.rdr ∧ t.pu = s.pu)
        ∧ (s.cu.deferred = none → s.rtc.permits q.command = true → q.command = .sync → s.dbm.direction ≠ .write →
          exec .commandBeginsExecution s = .next { s with
            cu := { s.cu with queue := rest, progress := .none, count := 0, finals := 0 },
            spu := { s.spu with out := s.spu.out ++ [.resp q.tag (ascii 'S' 'Y' 'N' 'C') doneOk] } })
        ∧ (∀ (x : Slot) (older : List Slot), s.cu.deferred = none → s.rtc.permits q.command = true → s.dbm.direction = .write →
            s.dbm.slots = older ++ [x] → x.state = .filling → s.rc.segment = none → s.wf.stage = .span →
          let here := s.pu.partition
          let eod (p : Nat) : Option EodKnown := s.pu.eod.getD p none
          let policy (p : Nat) : WritePolicy := (s.pu.policy.getD p { write := .writable, compress := true }).write
          let writable (p : Nat) : Prop := s.rtc.writeProtect ≠ some true ∧ policy p ≠ .readOnly
          let entries := x.entries.getD 0
          let base := 2097152 * ((s.dbm.drain + older.length) % 512)
          let payload := x.payload.getD 0
          let index := 1966016 - 16 * entries
          let early := if s.wf.earlyWarned.contains here then 1 else 0
          let begun (p : Progress) : Cu :=
            { s.cu with queue := { q with begun := true } :: rest, progress := p, count := 0, finals := 0 }
          let flushes (p : Progress) : Prop := ∃ t : State, exec .commandBeginsExecution s = .next t
            ∧ t = { s with cu := begun p, dbm := { s.dbm with
                slots := older ++ (if entries = 0 then [] else [{ x with state := .sealed }]), sealTimer := none, dram := t.dbm.dram } }
            ∧ (entries = 0 → t.dbm.dram = s.dbm.dram)
            ∧ (1 ≤ entries → entries ≤ 4096 → payload ≤ index → s.dbm.dram.wf = true →
                (∀ a : Nat, base + payload ≤ a → a < base + index → t.dbm.dram.read a = 0)
                ∧ (∀ k : Nat, k < 64 → t.dbm.dram.read (base + 1966016 + k)
                    = (x.trailer (s.dbm.dram.entry base 0).kind.continues).bytes.getD k 0)
                ∧ (∀ a : Nat, (a < base + payload ∨ (base + index ≤ a ∧ a < base + 1966016) ∨ base + 1966080 ≤ a) →
                    t.dbm.dram.read a = s.dbm.dram.read a))
          ((q.command = .rwnd ∨ (∃ k n, q.command = .spac k n) ∨ (∃ n limit, q.command = .rrec n limit)
              ∨ (∃ p o, q.command = .loct p o ∧ p < s.pu.partitions.length) ∨ (q.command = .unld ∧ s.rtc.cartridge = .ready)
              ∨ (q.command = .eras ∧ writable here ∧ s.pu.volume ≠ .headerFault ∧ (∀ e, eod here = some e →
                  (policy here = .appendOnly → e.object ≤ s.pu.object) ∧ (s.wf.volumeFull = some here → s.pu.object < e.object)))
              ∨ (∃ n sizes zs, q.command = .dpar n sizes ∧ here = 0 ∧ s.pu.object = 0 ∧ writable 0
                  ∧ (policy 0 = .appendOnly → ∀ e, eod 0 = some e → e.object = 0) ∧ dparSizes s.generation.wraps n sizes = some zs)) →
            flushes .flushing)
          ∧ ((q.command = .sync ∨ q.command = .wfmk 0) → flushes .flushInPlace)
          ∧ (∀ e : EodKnown, eod here = some e → e.object ≤ s.pu.object → writable here → s.pu.volume ≠ .headerFault →
              s.wf.volumeFull ≠ some here →
            (∀ n : Nat, q.command = .wrec n → s.dbm.staging = [] → s.spu.credits = 0 → s.dbm.slots.length < 510 →
              exec .commandBeginsExecution s = .next { s with
                cu := begun .writing, spu := { s.spu with credits := 256, out := s.spu.out ++ [.wcrd 256] } })
            ∧ (∀ n : Nat, q.command = .wfmk n → 1 ≤ n → entries + n < 4096 → x.payload.getD 0 + 16 * (entries + n) ≤ 1966016 → ∃ t : State,
                exec .commandBeginsExecution s = .next t ∧ t.cu.queue = rest
                ∧ t.spu.out = s.spu.out ++ [.resp q.tag q.command.name (.done .good { count := n, flags := early } [])]
                ∧ t.dbm.slots = older ++ [{ x with entries := some (entries + n), objects := x.objects + n, filemarks := x.filemarks + n }]
                ∧ t.dbm.sealTimer.isSome = true ∧ t.dbm.direction = .write ∧ t.pu = { s.pu with object := s.pu.object + n, anchor := none }
                ∧ t.rc.history = [] ∧ t.rc.resetOwed = true ∧ t.wf = s.wf ∧ t.rtc = s.rtc ∧ t.eu = s.eu))))

/-- What a command at the head begins, once its turn has come and with no flush to make (direction not WRITE): it completes at once with the
status that R107, R115, R116, R121 or R177 names, its checks in their order, or it goes on with its own work. LOAD threads, or tensions a tape
found threaded; UNLD ejects, recovers, or rewinds for the unloading; RWND, LOCT and SPAC send the tape to a known place or start the trailer
scan; WRITE_RECORDS takes direction WRITE and its credits at EOD, or resolves the EOD, or seeks dataset D; WRITE_FILEMARKS places its entry;
READ_RECORDS goes on with what is buffered or under way, hands over to the Reader, or locates first; ERAS finds its mark standing or begins to
write it; DEFINE_PARTITIONS sets its tables and begins the header span (R17, R45, R83, R101, R104, R107, R113, R115, R116, R118, R119, R121, R125,
R128 to R130, R177). Of these the model's choices are: a LOCT or SPAC that goes to a known EOD moves the position when the shuttle ends, not as it
begins (log 28); a position past the EOD counts as at it in the checks and searches (log 16); a write command's flags byte carries the
early-warning flag with every status (log 40); the residual of a space that ends at BOP is a magnitude (log 34), and its anchor, with no copy met, dataset 0 at
the partition's first data pitch, where the EOD lies above object 0 (log 69); each refusal carries the
position in its object field, for which R107, R115 and R121 name no result (log 57); and an UNLD in FAULTED that finds a recovery still running
begins it anew, its timers stopped (log 54). -/
def Obligations.CommandsOwnWork : Prop :=
  ∀ (s : State) (q : Queued) (rest : List Queued), s.cu.queue = q :: rest → q.begun = false →
    s.rtc.cartridge ∉ [.threading, .tensioning, .headerRead, .unloading] → s.cu.deferred = none → s.rtc.permits q.command = true →
    s.dbm.direction ≠ .write → s.dbm.RingSound →
    let here := s.pu.partition
    let early (r : Results) : Results := { r with flags := if s.wf.earlyWarned.contains here then 1 else 0 }
    let flagged (r : Results) : Results := match q.command with
      | .wrec _ => early r
      | .wfmk _ => early r
      | _ => r
    let ends (code : Code) (r : Results) (more : State → Prop) : Prop := ∃ t : State, exec .commandBeginsExecution s = .next t
      ∧ t.cu.queue = rest ∧ t.spu.out = s.spu.out ++ [.resp q.tag q.command.name (.done code (flagged r) [])] ∧ more t
    let refused (code : Code) : Prop := ends code { object := s.pu.object } (fun t =>
      t.dbm = s.dbm ∧ t.rtc = s.rtc ∧ t.pu = s.pu ∧ t.wf = s.wf ∧ t.rdr = s.rdr ∧ t.hm = s.hm)
    let begins (p : Progress) (more : State → Prop) : Prop := ∃ t : State, exec .commandBeginsExecution s = .next t
      ∧ t.cu.queue = { q with begun := true } :: rest ∧ t.cu.progress = p ∧ more t
    let scans (purpose : ScanFor) (partition : Nat) : Prop := begins .scan (fun t => t.pu.partition = partition ∧ t.pu.object = s.pu.object
      ∧ ∃ c : Scan, t.pu.scan = some c ∧ c.purpose = purpose ∧ c.reached = false ∧ c.pass = 1 ∧ c.proven = []
        ∧ ((∀ d, s.pu.directory[partition]? = some d → d.state = .invalid) → c.fromStart = true ∧ c.seek = firstDataPitch (s.partitionWraps partition).1))
    let eod (p : Nat) : Option EodKnown := s.pu.eod.getD p none
    let policy (p : Nat) : WritePolicy := (s.pu.policy.getD p { write := .writable, compress := true }).write
    let writeBarred (p : Nat) : Prop := s.rtc.writeProtect = some true ∨ policy p = .readOnly
    let at_ (e : EodKnown) : Prop := e.object ≤ s.pu.object
    let filemarks (e : EodKnown) : Option Nat := (s.pu.eodFilemarks.getD here none).or (if e.last.isNone then some 0 else none)
    let kept : Prop := s.dbm.direction = .read ∧ (s.dbm.slots ≠ [] ∨ s.rdr.moving = true ∨ s.rdr.activity = .paused)
    (q.command = .load →
      (s.rtc.cartridge = .ready → ends .good
          { flags := (if s.rtc.writeProtect = some true then 2 else 0)
              + 4 * (match s.pu.volume with | .blank => 1 | .headerFault => 2 | _ => 0) + (if s.pu.generation = some .b then 16 else 0) }
          (fun t => t.dbm = s.dbm ∧ t.rtc = s.rtc ∧ t.pu = s.pu ∧ t.hm = s.hm))
      ∧ (s.rtc.cartridge = .seated → begins .sequence (fun t => t.rtc.cartridge = .threading ∧ t.rtc.attempts = 1
          ∧ t.rtc.threadTimer = some { elapsed := 0, period := 6000 } ∧ t.rtc.loadMetres = 0 ∧ t.hm.armed = false ∧ t.dbm = s.dbm))
      ∧ (s.rtc.cartridge = .threadedUnknown → begins .sequence (fun t => t.rtc.cartridge = .tensioning ∧ t.rtc.tensionFor = .headerRead
          ∧ t.rtc.tensionTimer = some { elapsed := 0, period := 2000 } ∧ t.rtc.loadMetres = 0 ∧ t.hm.armed = false ∧ t.dbm = s.dbm)))
    ∧ (q.command = .unld →
      ((s.rtc.cartridge = .seated ∨ s.rtc.cartridge = .ejected ∨ (s.rtc.cartridge = .faulted ∧ s.sensors.leader = .home)) →
        ends .good {} (fun t => t.rtc.cartridge = .ejected ∧ t.pu = { Pu.reset with policy := s.pu.policy } ∧ t.wf.volumeFull = none))
      ∧ (s.rtc.cartridge = .faulted → s.sensors.leader ≠ .home → begins .sequence (fun t => t.rtc.cartridge = .faulted
          ∧ t.rtc.windTimer = some { elapsed := 0, period := 180000 } ∧ t.rtc.travel = some .reverse ∧ t.rtc.threadTimer = none))
      ∧ (s.rtc.cartridge = .threadedUnknown → begins .sequence (fun t => t.rtc.cartridge = .tensioning ∧ t.rtc.tensionFor = .rewind))
      ∧ (s.rtc.cartridge = .ready → begins .sequence (fun t => t.rtc.cartridge = .unloading ∧ t.rtc.phase = some .rewind
          ∧ t.dbm.slots = [] ∧ t.dbm.direction = .neutral ∧ t.wf.volumeFull = none)))
    ∧ (q.command = .rwnd → begins (.shuttle .good) (fun t => t.pu.partition = 0 ∧ t.pu.object = 0 ∧ t.pu.anchor = some (0, ⟨0, 64⟩)
        ∧ t.dbm.slots = [] ∧ t.dbm.direction = .neutral))
    ∧ (∀ p o : Nat, q.command = .loct p o →
        (s.pu.partitions.length ≤ p → refused .parameterInvalid)
        ∧ (p < s.pu.partitions.length → (∀ e, eod p = some e → e.object ≤ o → begins (.shuttle .eod) (fun t => t.pu.partition = p
            ∧ t.pu.object = s.pu.object ∧ t.dbm.slots = [] ∧ t.dbm.direction = .neutral))
          ∧ ((∀ e, eod p = some e → o < e.object) → scans (.locate o) p)))
    ∧ (∀ (k : SpaceKind) (n : Int), q.command = .spac k n →
        (k = .eod → (∀ e, eod here = some e → begins (.shuttle .good) (fun t => t.pu.object = s.pu.object ∧ t.dbm.slots = []))
          ∧ (eod here = none → scans (.place s.pu.object) here))
        ∧ (k ≠ .eod → n = 0 → ends .good { object := s.pu.object } (fun t => t.pu.object = s.pu.object ∧ t.pu.partition = here))
        ∧ (k ≠ .eod → 0 < n → ∀ e, eod here = some e → at_ e → begins (.shuttle .eod) (fun t => t.pu.object = s.pu.object ∧ t.dbm.slots = []))
        ∧ (k ≠ .eod → n ≠ 0 → (∀ e, eod here = some e → ¬ at_ e) → scans (.place s.pu.object) here)
        ∧ (k ≠ .eod → n < 0 → ∀ e, eod here = some e → at_ e →
          let begun (t : State) : Prop := t.pu.object = 0
            ∧ t.pu.anchor = some (if e.object = 0 then e.anchor else (0, firstDataPitch (s.partitionWraps here).1))
          (filemarks e = none → scans (.place s.pu.object) here)
          ∧ (∀ fm, filemarks e = some fm →
            (k = .records → e.last ≠ none → scans (.spaceRecords (s.pu.object - n.natAbs) s.pu.object) here)
            ∧ (k = .records → e.last = none → s.pu.object = 0 → ends .bop { count := n.natAbs, object := 0 } begun)
            ∧ (k = .filemarks → fm < n.natAbs → ends .bop { count := n.natAbs - fm, object := 0 } begun)
            ∧ (k = .filemarks → n.natAbs ≤ fm → e.last ≠ none → scans (.spaceFilemark (fm + 1 - n.natAbs) fm) here))))
    ∧ (((∃ n, q.command = .wrec n) ∨ (∃ n, q.command = .wfmk n ∧ n ≠ 0) ∨ q.command = .eras) →
        (writeBarred here → refused .writeProtected)
        ∧ (¬ writeBarred here → s.pu.volume = .headerFault → refused .volumeFault)
        ∧ (¬ writeBarred here → s.pu.volume ≠ .headerFault →
          (∀ e, eod here = some e →
            (policy here = .appendOnly → ¬ at_ e → refused .appendViolation)
            ∧ (s.wf.volumeFull = some here → at_ e → refused .volumeFull)
            ∧ (policy here ≠ .appendOnly → ¬ at_ e → scans .truncate here)
            ∧ (s.wf.volumeFull ≠ some here → at_ e →
              (∀ n, q.command = .wrec n → s.dbm.staging = [] → s.spu.credits = 0 → begins .writing (fun t => t.dbm.direction = .write
                ∧ t.dbm.slots = [] ∧ t.wf.appendPoint = some e.mark ∧ t.spu.credits = 256 ∧ t.spu.out = s.spu.out ++ [.wcrd 256]))
              ∧ (∀ n, q.command = .wfmk n → n < 4096 → ends .good { count := n } (fun t => t.dbm.direction = .write
                ∧ t.pu.object = s.pu.object + n ∧ t.dbm.slots.map (fun x => (x.state, x.first, x.entries, x.objects, x.filemarks))
                    = [(.filling, some s.pu.object, some n, n, n)]))
              ∧ (q.command = .eras → e.onTape = false →
                (s.pu.header = some .sealed → begins .erasing (fun t => t.wf.header = some { purpose := .unseal, attempt := 1 }
                  ∧ t.wf.stage = .runUp ⟨0, 0⟩ .span false ∧ t.wf.appendPoint = some e.mark))
                ∧ (s.pu.header ≠ some .sealed → e.mark.pitch + 2 ≤ s.pitches → begins .erasing (fun t => t.wf.eodPending = true
                  ∧ t.wf.stage = .runUp e.mark (.mark .flush) false ∧ t.wf.writePoint = some (here, e.mark) ∧ t.wf.appendPoint = some e.mark)))
              ∧ (q.command = .eras → e.onTape = true → ends .good { object := s.pu.object } (fun t => t.dbm.slots = []
                ∧ t.pu.object = s.pu.object ∧ t.pu.eod = s.pu.eod ∧ t.tape = s.tape))))
          ∧ (eod here = none → scans .resolve here)))
    ∧ (q.command = .wfmk 0 → ends .good {} (fun t => t.dbm = s.dbm ∧ t.pu = s.pu ∧ t.wf = s.wf))
    ∧ (∀ n limit : Nat, q.command = .rrec n limit →
        (kept → begins .reading (fun t => t.dbm = s.dbm ∧ t.pu = s.pu ∧ t.rdr = { s.rdr with readAhead := true }))
        ∧ (¬ kept → (∀ e, eod here = some e → at_ e → ends .eod { object := s.pu.object } (fun t => t.pu = s.pu))
          ∧ ((∀ e, eod here = some e → ¬ at_ e) →
            (s.pu.anchor = none → scans .read here)
            ∧ (∀ (d : Nat) (seek : Loc), s.pu.anchor = some (d, seek) → seek.pitch < s.pitches →
                (∀ e, eod here = some e → ∃ last, e.last = some last ∧ d ≤ last) → begins .reading (fun t => t.dbm.direction = .read
                ∧ t.rdr.activity = .repositioning ∧ t.rdr.expected = some (d, here) ∧ t.rdr.target = some seek ∧ t.rdr.readAhead = true
                ∧ t.dbm.slots.map (fun x => (x.state, x.dataset, x.partition)) = [(.loading, d, here)])))))
    ∧ (∀ (count : Nat) (sizes : List Nat), q.command = .dpar count sizes →
        ((here ≠ 0 ∨ s.pu.object ≠ 0) → refused .notAtBop)
        ∧ (here = 0 → s.pu.object = 0 →
          (writeBarred 0 → refused .writeProtected)
          ∧ (¬ writeBarred 0 →
            (policy 0 = .appendOnly → (∃ e, eod 0 = some e ∧ 0 < e.object) → refused .appendViolation)
            ∧ ((policy 0 ≠ .appendOnly ∨ ∀ e, eod 0 = some e → e.object = 0) →
              (dparSizes s.generation.wraps count sizes = none → refused .parameterInvalid)
              ∧ (∀ zs : List Nat, dparSizes s.generation.wraps count sizes = some zs → begins .header (fun t =>
                  t.pu.partitions = partitionsOf 0 zs ∧ t.pu.header = some .sealed ∧ t.pu.partition = 0 ∧ t.pu.object = 0
                  ∧ t.pu.eod = (partitionsOf 0 zs).map (fun p => some { object := 0, last := none, mark := firstDataPitch p.1, onTape := false })
                  ∧ t.pu.directory = (partitionsOf 0 zs).map (fun _ => { state := .valid, through := none, entries := [] })
                  ∧ t.wf.header = some { purpose := .dpar, attempt := 1 } ∧ t.wf.volumeFull = none ∧ t.wf.earlyWarned = [] ∧ t.dbm.slots = []))))))

/-! ### The cartridge, the threader, the reels -/

/-- The seated sensor in an EMPTY drive: type and tab are held and CARTRIDGE_SEATED latched; a data cartridge is SEATED, a
cleaning cartridge starts THREADING, an UNKNOWN one is EJECTED with LOAD_FAULT. Going off in SEATED or EJECTED empties the drive. In
other states the sensor changes nothing, the model's choice (R124, log 2). -/
def Obligations.SeatedSensor : Prop :=
  (∀ (ty : TypeCode) (tab : Bool) (s : State), s.rtc.cartridge = .empty → ∃ t : State,
    exec (.seatedSensorOn ty tab) s = .next t ∧ t.rtc.typeCode = some ty ∧ t.rtc.writeProtect = some tab ∧ t.eu.latches[19].set = true
    ∧ ((ty = .dataA ∨ ty = .dataB) → t.rtc = { s.rtc with cartridge := .seated, phase := none, typeCode := some ty, writeProtect := some tab })
    ∧ (ty = .cleaning → t.rtc.cartridge = .threading ∧ t.rtc.attempts = 1 ∧ t.rtc.threadTimer = some { elapsed := 0, period := 6000 })
    ∧ (ty = .unknown → t.rtc.cartridge = .ejected ∧ t.eu.latches[20].set = true)
    ∧ t.dbm = s.dbm ∧ t.cu = s.cu ∧ t.hm = s.hm ∧ t.pu = s.pu ∧ t.wf = s.wf ∧ t.rdr = s.rdr)
  ∧ (∀ s : State, (s.rtc.cartridge = .seated ∨ s.rtc.cartridge = .ejected) → ∃ t : State,
    exec .seatedSensorOff s = .next t
    ∧ t.rtc = { s.rtc with cartridge := .empty, phase := none, typeCode := none, writeProtect := none }
    ∧ t.dbm = s.dbm ∧ t.cu = s.cu ∧ t.hm = s.hm ∧ t.pu = s.pu ∧ t.eu = s.eu ∧ t.spu = s.spu ∧ t.wf = s.wf ∧ t.rdr = s.rdr)
  ∧ (∀ (ty : TypeCode) (tab : Bool) (s : State), s.rtc.cartridge ≠ .empty → exec (.seatedSensorOn ty tab) s = .next s)
  ∧ (∀ s : State, s.rtc.cartridge ≠ .seated → s.rtc.cartridge ≠ .ejected → exec .seatedSensorOff s = .next s)

/-- Threading: the leader on the take-up reel starts TENSIONING with the tension timer from 0; the first expiry of the thread timer
withdraws the leader, whose arrival home starts attempt 2; the second expiry, and an expiry while the leader is withdrawn, is a thread
fault, which leaves the cartridge FAULTED, drops the volume and ends an executing LOAD; a returned leader ejects the cartridge and completes an
executing UNLD; the first expiry while the leader is returned draws it back for attempt 2, the timer from 0, and the second is a thread fault, which
ends an executing UNLD and leaves the Position Unit at its reset values but the policy (R103, R125, R126, R129, R130). That the leader drawn again
for attempt 2 stands between the reels is the model's reading of the sensor (log 8). -/
def Obligations.ThreadingSteps : Prop :=
  ∀ (s : State) (timer : Timer), s.rtc.threadTimer = some timer →
    (s.rtc.cartridge = .threading → s.rtc.threader = .threading → ∃ t : State, exec .leaderOnTakeUpReel s = .next t
      ∧ t.rtc.cartridge = .tensioning ∧ t.rtc.tensionTimer = some { elapsed := 0, period := 2000 } ∧ t.rtc.threadTimer = none
      ∧ t.rtc.stepTo = some 0 ∧ t.dbm = s.dbm ∧ t.cu = s.cu ∧ t.pu = s.pu ∧ t.hm = s.hm ∧ t.eu = s.eu ∧ t.spu = s.spu)
    ∧ (s.rtc.threader = .threading → s.rtc.attempts = 1 → exec .threadTimerExpiry s = .next { s with
        rtc := { s.rtc with threader := .withdrawing, threadTimer := some { elapsed := 0, period := 6000 } } })
    ∧ (s.rtc.threader = .withdrawing → exec .leaderHome s = .next { s with
        rtc := { s.rtc with threader := .threading, attempts := 2, threadTimer := some { elapsed := 0, period := 6000 } },
        sensors := { s.sensors with leader := .between } })
    ∧ (s.rtc.threader = .returning → s.rtc.attempts = 1 → exec .threadTimerExpiry s = .next { s with
        rtc := { s.rtc with attempts := 2, threadTimer := some { elapsed := 0, period := 6000 } } })
    ∧ (s.rtc.threader = .returning → s.rtc.attempts = 2 → ∃ t : State, exec .threadTimerExpiry s = .next t
      ∧ t.rtc.cartridge = .faulted ∧ t.rtc.threadTimer = none ∧ t.rtc.threader = .idle ∧ t.eu.latches[21].set = true ∧ t.pu.volume = .none
      ∧ (∀ (q : Queued) (rest : List Queued), s.cu.queue = q :: rest → q.begun = true → q.command = .unld → s.cu.progress = .sequence →
          t.cu.queue = rest ∧ t.pu = { Pu.reset with policy := s.pu.policy }
          ∧ ∃ before, t.spu.out = before ++ [.resp q.tag (ascii 'U' 'N' 'L' 'D') (.done .threadFault {} [])])
      ∧ t.dbm = s.dbm ∧ t.hm = s.hm)
    ∧ ((s.rtc.threader = .withdrawing ∨ (s.rtc.threader = .threading ∧ s.rtc.attempts = 2)) → ∃ t : State, exec .threadTimerExpiry s = .next t
      ∧ t.rtc.cartridge = .faulted ∧ t.rtc.threadTimer = none ∧ t.eu.latches[21].set = true ∧ t.pu.volume = .none
      ∧ (∀ (q : Queued) (rest : List Queued), s.cu.queue = q :: rest → q.begun = true → q.command = .load → s.cu.progress = .sequence →
          t.cu.queue = rest ∧ ∃ before, t.spu.out = before ++ [.resp q.tag (ascii 'L' 'O' 'A' 'D') (.done .threadFault {} [])])
      ∧ t.dbm = s.dbm ∧ t.hm = s.hm)
    ∧ (s.rtc.threader = .returning → ∃ t : State, exec .leaderHome s = .next t ∧ t.rtc.cartridge = .ejected ∧ t.rtc.threadTimer = none
      ∧ t.pu = { Pu.reset with policy := s.pu.policy }
      ∧ (∀ (q : Queued) (rest : List Queued), s.cu.queue = q :: rest → q.begun = true → q.command = .unld → s.cu.progress = .sequence →
          t.cu.queue = rest ∧ ∃ before, t.spu.out = before ++ [.resp q.tag (ascii 'U' 'N' 'L' 'D') doneOk])
      ∧ t.dbm = s.dbm ∧ t.hm = s.hm)

/-- TENSIONING complete arms the monitor and leads to HEADER_READ (the Reader reading the header, dataset 0 of partition 15), to a
cleaning run's RUN, or to the rewind of an unloading; its timer's expiry is a tension fault: FAULTED, TENSION_FAULT, no volume, the head
step given up, an executing LOAD ended, an executing UNLD gone on to the recovery wind (R100, R126, R128, R130, R141). The header read of a data
cartridge ends with a result, which sets the volume: a corrected header that satisfies R120 and R105 makes it FORMATTED with the header's tables,
its EODs known and its directories VALID where the state is SEALED, unknown and INVALID where it is OPEN; a zone of 64 blank pitches makes it BLANK;
a corrected header that does not satisfy them, and one not corrected once the passes are spent, makes it HEADER_FAULT, latched; while passes remain
the next is made from the span start of its copy, or from the unseen mark. At the result the cartridge is READY, the load counted, the values of a
new load set, the position partition 0 object 0, and an executing LOAD completes GOOD with its flags (R44, R92, R93, R100, R103, R104, R120, R127,
R167). That a state byte above 1 is OPEN, that any byte but 0 in an EOD record's mark-on-tape field is yes, and that an entry of a partition at or
beyond the count, or a count of entries above 1,664, is a fault, is the model's choice (log 59), as is a further pass from wrap 0 pitch 0 where no unseen
mark stands (log 49); that the leader stands between the reels once its return begins is the model's reading (log 8). The rewind of an unloading at rest decides the seal: with the header OPEN,
the tab clear, every EOD known and every partition VALID a SEALED header span is begun, else, and for a cartridge that is no data cartridge, the
leader is returned, attempt 1, the thread timer from 0 (R122, R128, R129). -/
def Obligations.TensioningEnds : Prop :=
  (∀ (place : Nat) (s : State), s.rtc.cartridge = .tensioning → ∃ t : State, exec (.tensioningComplete place) s = .next t
    ∧ t.rtc.tensionTimer = none ∧ t.rtc.armed = true ∧ t.rtc.headWrap = some 0
    ∧ (s.rtc.tensionFor = .headerRead → t.rtc.cartridge = .headerRead ∧ t.rdr.activity = .header ∧ t.rdr.expected = some (0, 15)
        ∧ t.rdr.pass = some 1)
    ∧ (s.rtc.tensionFor = .clean → t.rtc.cartridge = .cleaning ∧ t.rtc.phase = some .run ∧ t.rtc.runMetres = 0
        ∧ t.rtc.cleanLength = s.hm.policy.length)
    ∧ (s.rtc.tensionFor = .rewind → t.rtc.cartridge = .unloading ∧ t.rtc.phase = some .rewind)
    ∧ t.dbm = s.dbm ∧ t.cu = s.cu ∧ t.pu = s.pu ∧ t.hm = s.hm)
  ∧ (∀ s : State, s.rtc.tensionTimer.isSome = true → s.unldExecuting = false → ∃ t : State, exec .tensionTimerExpiry s = .next t
    ∧ t.rtc.cartridge = .faulted ∧ t.rtc.tensionTimer = none ∧ t.rtc.armed = false ∧ t.eu.latches[22].set = true ∧ t.pu.volume = .none
    ∧ t.rtc.stepTo = none ∧ t.rtc.headWrap = s.rtc.headWrap
    ∧ (∀ (q : Queued) (rest : List Queued), s.cu.queue = q :: rest → q.begun = true → q.command = .load → s.cu.progress = .sequence →
        t.cu.queue = rest ∧ ∃ before, t.spu.out = before ++ [.resp q.tag (ascii 'L' 'O' 'A' 'D') (.done .tensionFault {} [])])
    ∧ t.dbm = s.dbm ∧ t.hm = s.hm)
  ∧ (∀ s : State, s.rtc.tensionTimer.isSome = true → s.unldExecuting = true → s.sensors.leader ≠ .home → ∃ t : State,
    exec .tensionTimerExpiry s = .next t ∧ t.rtc.cartridge = .faulted ∧ t.rtc.tensionTimer = none ∧ t.rtc.armed = false
    ∧ t.eu.latches[22].set = true ∧ t.pu.volume = .none ∧ t.rtc.stepTo = none ∧ t.rtc.headWrap = s.rtc.headWrap
    ∧ t.rtc.windTimer = some { elapsed := 0, period := 180000 } ∧ t.cu.queue = s.cu.queue ∧ t.dbm = s.dbm ∧ t.hm = s.hm)
  ∧ (∀ (m : Memory) (base : Nat) (g : Generation),
    let field (at_ n : Nat) : Nat := leNat (m.readBytes (base + at_) n)
    let count := field 2 1
    let n := field 4 2
    let partition (p : Nat) : Nat × Nat := (field (8 + 4 * p) 2, field (10 + 4 * p) 2)
    let record (p : Nat) : EodKnown :=
      { object := field (24 + 16 * p) 4, last := if field (28 + 16 * p) 4 = 4294967295 then none else some (field (28 + 16 * p) 4),
        mark := ⟨field (32 + 16 * p) 2, field (34 + 16 * p) 4⟩, onTape := field (38 + 16 * p) 1 != 0 }
    let entry (i : Nat) : Nat × DirectoryEntry := (field (128 + 16 * i) 1,
      { region := field (129 + 16 * i) 2, dataset := field (131 + 16 * i) 4, first := field (135 + 16 * i) 4, filemarks := field (139 + 16 * i) 4 })
    let sound : Prop := field 0 1 = (if g = .b then 1 else 0) ∧ n ≤ 1664 ∧ 1 ≤ count ∧ count ≤ 4
      ∧ crc32 (m.readBytes base (128 + 16 * n)) = (m.entry base 0).check
      ∧ (partition 0).1 = 0 ∧ (∀ p : Nat, p + 1 < count → (partition (p + 1)).1 = (partition p).2 + 3)
      ∧ (∀ p : Nat, p < count → (partition p).1 % 2 = 0 ∧ (partition p).2 % 2 = 1 ∧ (partition p).1 + 3 ≤ (partition p).2
          ∧ (partition p).2 < g.wraps ∧ field (39 + 16 * p) 1 ≠ 0)
      ∧ (∀ i : Nat, i < n → (entry i).1 < count)
      ∧ (∀ i j : Nat, i < j → j < n → (entry i).1 ≤ (entry j).1 ∧ ((entry i).1 = (entry j).1 → (entry i).2.region < (entry j).2.region
          ∧ (entry i).2.dataset < (entry j).2.dataset ∧ (entry i).2.first < (entry j).2.first))
    (¬ sound → readHeader m base g = none)
    ∧ (sound → readHeader m base g = some (if field 1 1 = 0 then .sealed else .opened, (List.range count).map partition,
        (List.range count).map record, (List.range n).map entry)))
  ∧ (∀ (s : State) (l : Loc), s.writeIdle = true → s.locked = true → s.pitchHere = some l → l.pitch < 64 → s.pu.scan = none →
    s.rdr.wanted = false → s.rdr.activity = .header → s.rdr.target = none → s.rdr.expected = some (0, 15) → s.rtc.cartridge = .headerRead →
    let g := s.generation
    let ready (h : Hm) (t : State) : Prop := t.rtc.cartridge = .ready ∧ t.hm = { h with loads := min 4294967295 (h.loads + 1) }
      ∧ t.rdr.activity = .idle ∧ t.rdr.headerErrors = 0 ∧ t.rdr.readAhead = false ∧ t.dbm.recovered = 0
      ∧ t.wf.backhitches = 0 ∧ t.wf.restarts = 0 ∧ t.wf.misses = 0 ∧ t.wf.earlyWarned = [] ∧ t.wf.eodPending = false ∧ t.wf.volumeFull = none
      ∧ t.pu.generation = some g ∧ t.pu.partition = 0 ∧ t.pu.object = 0 ∧ t.pu.anchor = some (0, ⟨0, 64⟩) ∧ t.pu.policy = s.pu.policy
      ∧ t.dbm.slots = s.dbm.slots ∧ t.dbm.direction = s.dbm.direction
      ∧ (∀ (q : Queued) (rest : List Queued), s.cu.queue = q :: rest → q.begun = true → q.command = .load → s.cu.progress = .sequence →
          t.cu.queue = rest ∧ ∃ before, t.spu.out = before ++ [.resp q.tag (ascii 'L' 'O' 'A' 'D') (.done .good
            { flags := (if s.rtc.writeProtect = some true then 2 else 0)
                + 4 * (match t.pu.volume with | .blank => 1 | .headerFault => 2 | _ => 0) + (if g = .b then 16 else 0) } [])])
    let fault (t : State) : Prop := t.pu.volume = .headerFault ∧ t.pu.header = none ∧ t.pu.partitions = [(0, g.wraps - 1)] ∧ t.pu.eod = [none]
      ∧ t.pu.directory = [{ state := .invalid, through := none, entries := [] }] ∧ t.eu.latches[23].set = true
    let again (from_ : Loc) (t : State) : Prop := t.rdr.activity = .header ∧ t.rdr.pass = s.rdr.pass.map (· + 1) ∧ t.rdr.target = some from_
      ∧ t.rtc.cartridge = .headerRead ∧ t.pu = s.pu ∧ t.cu = s.cu
    let remains : Prop := s.rdr.pass.getD 1 < 1 + s.cu.policy.retries
    let scored := (s.takeTally s.rdr.tallies).hm
    (s.rdr.copyOpen = true →
      (∀ tr : Trailer, s.evaluation = some tr →
        (readHeader s.corrected (2097152 * s.dbm.take) g = none → ∃ t : State, exec (.readPitch .separator) s = .next t ∧ ready scored t ∧ fault t)
        ∧ (∀ (h : HeaderState) (ps : List (Nat × Nat)) (es : List EodKnown) (ds : List (Nat × DirectoryEntry)),
          readHeader s.corrected (2097152 * s.dbm.take) g = some (h, ps, es, ds) → ∃ t : State, exec (.readPitch .separator) s = .next t
          ∧ ready scored t ∧ t.pu.volume = .formatted ∧ t.pu.header = some h ∧ t.pu.partitions = ps
          ∧ t.pu.eod = es.map (fun e => if h = .sealed then some e else none) ∧ t.pu.directory.length = es.length
          ∧ (∀ (p : Nat) (e : EodKnown), es[p]? = some e → t.pu.directory[p]? = some (if h = .sealed then
              { state := .valid, through := e.last, entries := (ds.filter (fun x => x.1 == p)).map Prod.snd }
              else { state := .invalid, through := none, entries := [] }))))
      ∧ (s.evaluation = none → ∀ start : Loc, s.rdr.copies.head? = some start →
        (remains → ∃ t : State, exec (.readPitch .separator) s = .next t ∧ again start t ∧ t.hm = scored)
        ∧ (¬ remains → ∃ t : State, exec (.readPitch .separator) s = .next t ∧ ready scored t ∧ fault t)))
    ∧ (s.rdr.copyOpen = false →
      (l.pitch = 63 → s.rdr.blankRun = 63 → s.rdr.unseen = none → ∃ t : State, exec (.readPitch .blank) s = .next t ∧ ready s.hm t
        ∧ t.pu.volume = .blank ∧ t.pu.header = none ∧ t.pu.partitions = [(0, g.wraps - 1)]
        ∧ t.pu.eod = [some { object := 0, last := none, mark := ⟨0, 64⟩, onTape := false }]
        ∧ t.pu.directory = [{ state := .valid, through := none, entries := [] }] ∧ t.eu.latches[23] = s.eu.latches[23])
      ∧ (∀ u : Loc, l.pitch < 63 → s.rdr.unseen = some u →
        (remains → ∃ t : State, exec (.readPitch .endPattern) s = .next t ∧ again u t ∧ t.hm = s.hm)
        ∧ (¬ remains → ∃ t : State, exec (.readPitch .endPattern) s = .next t ∧ ready s.hm t ∧ fault t))
      ∧ (l.pitch = 63 → s.rdr.blankRun < 63 →
        (remains → ∃ t : State, exec (.readPitch .blank) s = .next t ∧ again (s.rdr.unseen.getD ⟨0, 0⟩) t ∧ t.hm = s.hm)
        ∧ (¬ remains → ∃ t : State, exec (.readPitch .blank) s = .next t ∧ ready s.hm t ∧ fault t))))
  ∧ (∀ (s : State) (place : Nat) (l : Loc), s.writeIdle = true → s.rtc.motion = .decelerating → s.rtc.goal = .shuttle l .unloadRewind true →
    s.rtc.cartridge = .unloading → s.rtc.phase = some .rewind →
    let seals : Prop := (s.rtc.typeCode = some .dataA ∨ s.rtc.typeCode = some .dataB) ∧ s.pu.header = some .opened
      ∧ s.rtc.writeProtect ≠ some true ∧ (∀ e ∈ s.pu.eod, e ≠ none) ∧ ∀ d ∈ s.pu.directory, d.state = .valid
    (seals → ∃ t : State, exec (.reelsAtRest place) s = .next t ∧ t.rtc.cartridge = .unloading ∧ t.rtc.phase = some .headerWrite
      ∧ t.rtc.motion = .settling ∧ t.wf.header = some { purpose := .seal, attempt := 1 } ∧ t.wf.stage = .runUp ⟨0, 0⟩ .span false
      ∧ t.wf.writePoint = some (15, ⟨0, 0⟩) ∧ t.rtc.goal = .trip ⟨0, 0⟩ ∧ t.cu = s.cu ∧ t.pu = s.pu ∧ t.hm = s.hm)
    ∧ (¬ seals → ∃ t : State, exec (.reelsAtRest place) s = .next t ∧ t.rtc.cartridge = .unloading ∧ t.rtc.phase = some .unthread
      ∧ t.rtc.threader = .returning ∧ t.rtc.attempts = 1 ∧ t.rtc.threadTimer = some { elapsed := 0, period := 6000 } ∧ t.rtc.armed = false
      ∧ t.sensors.leader = .between ∧ t.wf = s.wf ∧ t.cu = s.cu ∧ t.pu = s.pu ∧ t.hm = s.hm))

/-- The tension monitor: armed, tension leaving its band starts the fault timer from 0 unless it runs; tension back in the band stops
and clears it (R138). The recovery wind: at its end the tape stands and the threader returns the leader, attempt 1, the thread timer
from 0; at its timer's expiry THREAD_FAULT is latched, the cartridge stays FAULTED and an executing UNLD ends THREAD_FAULT (R130). That the leader
stands between the reels once its return begins is the model's reading of the sensor (log 8). -/
def Obligations.TensionMonitorAndRecoveryWind : Prop :=
  (∀ s : State,
      (s.rtc.armed = true → s.rtc.faultTimer = none → exec .tensionLeavesBand s = .next { s with
        rtc := { s.rtc with faultTimer := some { elapsed := 0, period := 250 } } })
      ∧ ((s.rtc.armed = false ∨ s.rtc.faultTimer.isSome = true) → exec .tensionLeavesBand s = .next s)
      ∧ exec .tensionReturnsToBand s = .next { s with rtc := { s.rtc with faultTimer := none } })
  ∧ (∀ s : State, s.rtc.windTimer.isSome = true →
      exec .recoveryWindComplete s = .next { s with
        rtc := { s.rtc with windTimer := none, armed := false, faultTimer := none, attempts := 1, threader := .returning, goal := .none,
                            travel := none, threadTimer := some { elapsed := 0, period := 6000 } },
        sensors := { s.sensors with leader := .between } }
      ∧ ∃ t : State, exec .recoveryWindTimerExpiry s = .next t ∧ t.rtc.cartridge = .faulted ∧ t.rtc.windTimer = none
        ∧ t.eu.latches[21].set = true ∧ t.dbm = s.dbm ∧ t.hm = s.hm
        ∧ (∀ (q : Queued) (rest : List Queued), s.cu.queue = q :: rest → q.begun = true → q.command = .unld → s.cu.progress = .sequence →
            t.cu.queue = rest ∧ ∃ before, t.spu.out = before ++ [.resp q.tag (ascii 'U' 'N' 'L' 'D') (.done .threadFault {} [])]))

/-- The fault timer's expiry is the emergency stop: the reels brake to SETTLING with the settle timer at 50 ms, the cartridge is FAULTED, the
monitor disarmed, TENSION_FAULT latched, the timebase OFF, the volume gone, the Write Formatter idle with no mark pending. With direction
WRITE the write path is given up: no slot, the direction NEUTRAL, the deferred write error record with cause TENSION_FAULT, the partition,
the first unwritten object and the objects lost, or the count added to a record set already; a write command, or a command that waits for the
writing, reports it at once. Otherwise an executing LOAD ends TENSION_FAULT, and an executing UNLD goes on to the recovery unthread: EJECTED
where the leader is home, else the recovery wind; a READ_RECORDS that delivers goes on with what is buffered; every other command ends NOT_READY with
the position that R117 leaves: for a LOCT that scans the last proven boundary where it lies between the scan's start and the target, else the
partition and object from before it, for a space to EOD and for the search for dataset D of a write or an ERAS, whose target is the position, likewise,
for RWND, DPAR and the locate before a read as it was. A Reader not IDLE is ENDED with FAULT, its LOADING slot
freed and the READY slots kept; the window of a READY cartridge stops; a cleaning run ends with no credit and no report (R10, R55, R56, R65, R68,
R99, R117, R130, R133, R138, R139, R142). The EOD record that R109 sets goes with the volume in the same step. That the start of a scan is the object
it was begun at, and its last proven dataset the one listed last, is log 27's; the residual of a SPAC ended so is its count so far (log 34); and that NOT_READY of a command other than a LOCT or SPAC carries
the position in its object field, for which R139 names none, is the model's choice (log 57). -/
def Obligations.EmergencyStop : Prop :=
  ∀ s : State, s.rtc.faultTimer.isSome = true → s.cu.Sound →
    let reports := s.dbm.direction = .write
      ∧ (s.cu.progress.waitsForWriting = true ∨ (∃ n, s.executing = some (.wrec n)) ∨ (∃ n, s.executing = some (.wfmk n)))
    let ejects := s.executing = some .unld ∧ s.sensors.leader = .home ∧ ¬ reports
    ∃ t : State, exec .tensionFaultTimerExpiry s = .next t
    ∧ (ejects → t.rtc.cartridge = .ejected) ∧ (¬ ejects → t.rtc.cartridge = .faulted)
    ∧ t.rtc.motion = .settling ∧ t.rtc.settleTimer = some { elapsed := 0, period := 50 }
    ∧ t.rtc.armed = false ∧ t.rtc.faultTimer = none ∧ t.eu.latches[22].set = true ∧ t.sv.timebase = .off ∧ t.pu.volume = .none
    ∧ t.wf.stage = .idle ∧ t.wf.eodPending = false ∧ t.wf.queue = [] ∧ t.wf.inFlight = none ∧ t.hm = s.hm ∧ t.dbm.dram = s.dbm.dram
    ∧ (s.dbm.direction = .write → s.dbm.RingSound →
        let d := s.deferredBy .tensionFault
        t.dbm.slots = [] ∧ t.dbm.direction = .neutral ∧ t.dbm.sealTimer = none
        ∧ (s.executing = none → t.cu.deferred = some d ∧ t.cu.queue = s.cu.queue)
        ∧ (∀ (q : Queued) (rest : List Queued), s.cu.queue = q :: rest → q.begun = true → reports →
            t.cu.deferred = none ∧ t.cu.queue = rest ∧ (s.pu.scan = none → t.pu.partition = d.partition ∧ t.pu.object = d.first)
            ∧ ∃ (before : List Packet) (flags : Nat), t.spu.out = before ++ [.resp q.tag q.command.name (.done .deferredError
                { count := d.objects, object := d.first, flags := flags,
                  deferred := (match d.cause with | .writeError => 0 | .volumeOverflow => 1 | .tensionFault => 2) + 16 * d.partition } [])]))
    ∧ (∀ (q : Queued) (rest : List Queued), s.cu.queue = q :: rest → q.begun = true → ¬ reports →
        (q.command = .load → t.cu.queue = rest
          ∧ ∃ before, t.spu.out = before ++ [.resp q.tag (ascii 'L' 'O' 'A' 'D') (.done .tensionFault {} [])])
        ∧ (q.command = .unld → s.sensors.leader = .home → t.cu.queue = rest
          ∧ ∃ before, t.spu.out = before ++ [.resp q.tag (ascii 'U' 'N' 'L' 'D') doneOk])
        ∧ (q.command = .unld → s.sensors.leader ≠ .home → t.cu.queue = s.cu.queue
          ∧ t.rtc.windTimer = some { elapsed := 0, period := 180000 })
        ∧ (s.dbm.direction ≠ .write → s.cu.deferred = none → q.command ≠ .load → q.command ≠ .unld →
          (((∃ n limit, q.command = .rrec n limit) ∧ s.cu.progress = .reading) → t.cu = s.cu)
          ∧ (¬ ((∃ n limit, q.command = .rrec n limit) ∧ s.cu.progress = .reading) → t.cu.queue = rest ∧ t.cu.deferred = none
            ∧ (∃ (before : List Packet) (count flags : Nat), t.spu.out = before ++ [.resp q.tag q.command.name (.done .notReady
                { count := count, object := t.pu.object, flags := flags } [])]
              ∧ ((∀ n limit, q.command ≠ .rrec n limit) → count = s.cu.count))
            ∧ ((q.command = .rwnd ∨ (∃ n sizes, q.command = .dpar n sizes)) → s.pu.scan = none →
                t.pu.partition = s.pu.partition ∧ t.pu.object = s.pu.object)
            ∧ (∀ p o : Nat, q.command = .loct p o →
                (∀ code, s.pu.scan = none → s.cu.progress = .shuttle code → t.pu.partition = s.pu.cameFrom ∧ t.pu.object = s.pu.object)
                ∧ (∀ c : Scan, s.pu.scan = some c → c.purpose = .locate o →
                  (∀ d, c.proven.getLast? = some d → c.startObject ≤ d.starting → d.starting ≤ o →
                    t.pu.partition = s.pu.partition ∧ t.pu.object = d.starting)
                  ∧ ((∀ d, c.proven.getLast? = some d → ¬ (c.startObject ≤ d.starting ∧ d.starting ≤ o)) →
                    t.pu.partition = s.pu.cameFrom ∧ t.pu.object = s.pu.object)))
            ∧ ((∃ k n, q.command = .spac k n) → t.pu.partition = s.pu.partition
                ∧ ((∀ c, s.pu.scan = some c → c.proven = []) → t.pu.object = s.pu.object)
                ∧ (∀ (c : Scan) (d : Descriptor), s.pu.scan = some c → c.purpose = .spaceEnd → c.proven.getLast? = some d →
                    c.startObject ≤ d.starting → d.starting ≤ 4294967295 → t.pu.object = d.starting))
            ∧ (∀ c : Scan, s.pu.scan = some c →
              (c.purpose = .truncate → (q.command = .eras ∨ (∃ n, q.command = .wrec n) ∨ ∃ n, q.command = .wfmk n) →
                t.pu.partition = s.pu.partition
                ∧ (∀ d, c.proven.getLast? = some d → c.startObject ≤ d.starting → d.starting ≤ s.pu.object → t.pu.object = d.starting)
                ∧ ((∀ d, c.proven.getLast? = some d → ¬ (c.startObject ≤ d.starting ∧ d.starting ≤ s.pu.object)) → t.pu.object = s.pu.object))
              ∧ (∀ n limit : Nat, c.purpose = .read → q.command = .rrec n limit →
                t.pu.partition = s.pu.partition ∧ t.pu.object = s.pu.object)))))
    ∧ t.pu.anchor = none ∧ t.pu.scan = none ∧ t.eu.latches[17] = s.eu.latches[17] ∧ t.eu.latches[18] = s.eu.latches[18] ∧ t.rtc.phase = none
    ∧ (s.rtc.cartridge = .ready → t.sm.window = none ∧ t.sm.pending = none ∧ t.sm.scheduled = none)
    ∧ (s.dbm.direction ≠ .write → t.dbm.direction = s.dbm.direction
      ∧ (s.rdr.activity = .idle → t.rdr = s.rdr ∧ t.dbm.slots = s.dbm.slots)
      ∧ (s.rdr.activity ≠ .idle → t.rdr.activity = .ended .fault ∧ t.rdr.readAhead = false ∧ t.rdr.wanted = false ∧ t.rdr.target = none
        ∧ t.dbm.slots = (if (s.dbm.slots.getLast?.map Slot.state) = some .loading then s.dbm.slots.dropLast else s.dbm.slots)))

/-- Travel while the reels turn: millimetres short of a metre only join the remainder. A whole metre of a data cartridge counts in the load's
metres, in metres since cleaning and in total metres, which stop at 2^32 - 1, and the head state is recomputed. One of a cleaning cartridge in phase
RUN counts in the run metres and not in the Head Monitor; where the run metres so reach the cleaning length held for the run, the run is completed: the
tape decelerates, the phase is REWIND, and the Head Monitor gives cleaning credit with CLEANING_DONE. One of a cleaning cartridge in any other state
counts nowhere. With the reels at rest, no recovery wind and no tensioning there is no travel to count (R123, R140, R141, R165, R167). -/
def Obligations.MetreCounted : Prop :=
  ∀ (mm : Nat) (s : State),
    (s.rtc.motion ∈ [.stopped, .settling] → s.rtc.windTimer = none → s.rtc.cartridge ≠ .tensioning → exec (.metreTravelled mm) s = .next s)
    ∧ ((s.rtc.motion ∈ [.accelerating, .streaming, .decelerating, .shuttling] ∨ s.rtc.windTimer.isSome = true ∨ s.rtc.cartridge = .tensioning) →
      (s.rtc.remainder + mm < 1000 → exec (.metreTravelled mm) s = .next { s with rtc := { s.rtc with remainder := s.rtc.remainder + mm } })
      ∧ (1000 ≤ s.rtc.remainder + mm → s.rtc.remainder + mm < 2000 →
        ((s.rtc.typeCode = some .dataA ∨ s.rtc.typeCode = some .dataB) → ∃ t : State, exec (.metreTravelled mm) s = .next t
          ∧ t.rtc = { s.rtc with remainder := s.rtc.remainder + mm - 1000, loadMetres := min 4294967295 (s.rtc.loadMetres + 1) }
          ∧ t.hm.metres = min 4294967295 (s.hm.metres + 1) ∧ t.hm.total = min 4294967295 (s.hm.total + 1) ∧ t.hm.head = t.hm.judged
          ∧ t.hm.channels = s.hm.channels ∧ t.hm.loads = s.hm.loads ∧ t.hm.cleanings = s.hm.cleanings ∧ t.hm.floor = s.hm.floor
          ∧ t.dbm = s.dbm ∧ t.cu = s.cu ∧ t.pu = s.pu ∧ t.wf = s.wf ∧ t.rdr = s.rdr)
        ∧ (s.rtc.typeCode = some .cleaning →
          let metres := min 65535 (s.rtc.runMetres + 1)
          let runs := s.rtc.cartridge = .cleaning ∧ s.rtc.phase = some .run
          (runs → metres < s.rtc.cleanLength → exec (.metreTravelled mm) s = .next { s with
            rtc := { s.rtc with remainder := s.rtc.remainder + mm - 1000, runMetres := metres } })
          ∧ (runs → s.rtc.cleanLength ≤ metres → ∃ t : State, exec (.metreTravelled mm) s = .next t
            ∧ t.rtc.cartridge = .cleaning ∧ t.rtc.phase = some .rewind ∧ t.rtc.remainder = s.rtc.remainder + mm - 1000 ∧ t.rtc.runMetres = metres
            ∧ t.rtc.loadMetres = s.rtc.loadMetres ∧ (s.rtc.motion = .streaming → t.rtc.motion = .decelerating) ∧ t.eu.latches[17].set = true
            ∧ t.hm.channels = Vector.replicate 16 { state := .good, n := 0, f := 0, deadRun := 0, lastF := none }
            ∧ t.hm.metres = 0 ∧ t.hm.cleanings = min 4294967295 (s.hm.cleanings + 1) ∧ t.hm.floor = .clean ∧ t.hm.head = t.hm.judged
            ∧ t.hm.total = s.hm.total ∧ t.hm.loads = s.hm.loads ∧ t.hm.armed = s.hm.armed ∧ t.hm.policy = s.hm.policy
            ∧ t.dbm = s.dbm ∧ t.cu = s.cu ∧ t.pu = s.pu)
          ∧ (¬ runs → exec (.metreTravelled mm) s = .next { s with rtc := { s.rtc with remainder := s.rtc.remainder + mm - 1000 } }))))

/-- A cleaning run that reaches its length is credited: the channel records fresh, metres since cleaning 0, the cleaning count up by
1, the floor NONE, CLEANING_DONE; one whose end marker comes first latches CLEANING_EXPIRED and leaves the Head Monitor as it stands.
Both leave phase RUN for the rewind (R141, R165, R166). That RUN_LENGTH_REACHED is itself the run's last metre, so that it acts one metre
before the length, is the model's reading (log 3). -/
def Obligations.CleaningRunEnds : Prop :=
  ∀ s : State, s.rtc.cartridge = .cleaning → s.rtc.phase = some .run →
    (s.rtc.cleanLength ≤ s.rtc.runMetres + 1 → ∃ t : State, exec .runLengthReached s = .next t
      ∧ t.rtc.cartridge = .cleaning ∧ t.rtc.phase = some .rewind ∧ t.eu.latches[17].set = true
      ∧ t.hm.channels = Vector.replicate 16 { state := .good, n := 0, f := 0, deadRun := 0, lastF := none }
      ∧ t.hm.metres = 0 ∧ t.hm.cleanings = min 4294967295 (s.hm.cleanings + 1) ∧ t.hm.floor = .clean ∧ t.hm.head = t.hm.judged
      ∧ t.hm.total = s.hm.total ∧ t.hm.loads = s.hm.loads ∧ t.hm.armed = s.hm.armed ∧ t.hm.policy = s.hm.policy
      ∧ t.dbm = s.dbm ∧ t.cu = s.cu ∧ t.pu = s.pu)
    ∧ (s.rtc.runMetres < s.rtc.cleanLength → ∃ t : State, exec .endMarkerSensed s = .next t
      ∧ t.rtc.cartridge = .cleaning ∧ t.rtc.phase = some .rewind ∧ t.eu.latches[18].set = true ∧ t.hm = s.hm
      ∧ t.dbm = s.dbm ∧ t.cu = s.cu ∧ t.pu = s.pu)

/-- Acceleration complete is STREAMING, and LOCKED when 64 bursts stand, a wrap turn that has turned then streaming on; a shuttle's approach
is DECELERATING; the reels at rest are SETTLING with the settle timer at 50 ms and the timebase OFF, a wrap turn then steps the head and stays the
motion goal, but beyond the last wrap of the generation is not made and leaves no goal, and a RWND then completes GOOD. The settle timer's
expiry: with nothing asked for the tape is STOPPED; a run-up or wrap turn that waited begins ACCELERATING, or waits STOPPED for a head step still
under way, whose completion then starts it. In TENSIONING a head step leaves the head wrap as it was (R115, R123, R126, R133 to R136, R147,
R150). That the tape position is the place the reels at rest report, and that the GOOD of a RWND carries the position in its object field, are the model's choices (logs 9, 57). -/
def Obligations.MotionReports : Prop :=
  (∀ s : State,
      (s.rtc.motion = .accelerating → ∃ t : State, exec .streamingReached s = .next t ∧ t.rtc.motion = .streaming
        ∧ t.sv.timebase = (if s.sv.timebase = .acquiring ∧ s.sv.runCount = 64 then .locked else s.sv.timebase)
        ∧ (∀ w : Nat, s.rtc.goal = .wrapTurn w → t.rtc.goal = if s.rtc.headWrap = some w then .streamOn else .wrapTurn w)
        ∧ (∀ (l : Loc) (b : Bool), s.rtc.goal = .runUp l b → t.rtc.goal = .streamOn)
        ∧ t.dbm = s.dbm ∧ t.cu = s.cu ∧ t.pu = s.pu ∧ t.hm = s.hm ∧ t.eu = s.eu ∧ t.spu = s.spu ∧ t.wf = s.wf ∧ t.rdr = s.rdr)
      ∧ (s.rtc.motion = .shuttling → ∃ t : State, exec .shuttleApproach s = .next t ∧ t.rtc.motion = .decelerating
        ∧ (∀ (l : Loc) (why : ShuttleFor) (b : Bool), s.rtc.goal = .shuttle l why b → t.rtc.goal = .shuttle l why true)
        ∧ t.dbm = s.dbm ∧ t.cu = s.cu ∧ t.pu = s.pu ∧ t.hm = s.hm ∧ t.eu = s.eu ∧ t.spu = s.spu ∧ t.wf = s.wf ∧ t.rdr = s.rdr)
      ∧ (∀ place : Nat, s.rtc.motion = .decelerating → s.writeIdle = true → (s.rtc.goal = .stop ∨ ∃ w, s.rtc.goal = .wrapTurn w
          ∧ (s.generation.wraps ≤ w → s.readIdle = true ∧ s.wf.stage = .idle)) →
        ∃ t : State, exec (.reelsAtRest place) s = .next t ∧ t.rtc.motion = .settling ∧ t.rtc.travel = none
        ∧ t.rtc.settleTimer = some { elapsed := 0, period := 50 } ∧ t.rtc.place = some place ∧ t.sv.timebase = .off
        ∧ (s.rtc.goal = .stop → t.rtc.goal = .none)
        ∧ (∀ w : Nat, s.rtc.goal = .wrapTurn w → (w < s.generation.wraps → t.rtc.goal = .wrapTurn w ∧ t.rtc.stepTo = some w)
          ∧ (s.generation.wraps ≤ w → t.rtc.goal = .none ∧ t.rtc.stepTo = s.rtc.stepTo))
        ∧ t.dbm = s.dbm ∧ t.cu = s.cu ∧ t.pu = s.pu ∧ t.hm = s.hm ∧ t.eu = s.eu ∧ t.spu = s.spu)
      ∧ (∀ (place : Nat) (l : Loc) (q : Queued) (rest : List Queued), s.rtc.motion = .decelerating → s.rtc.goal = .shuttle l .rwnd true →
        s.cu.queue = q :: rest → q.begun = true → q.command = .rwnd → s.cu.progress = .shuttle .good → s.dbm.direction ≠ .write →
        ∃ t : State, exec (.reelsAtRest place) s = .next t ∧ t.cu.queue = rest ∧ t.pu = s.pu
        ∧ t.spu.out = s.spu.out ++ [.resp q.tag (ascii 'R' 'W' 'N' 'D') (.done .good { object := s.pu.object } [])]))
  ∧ (∀ s : State,
      (s.rtc.motion = .settling → s.rtc.settleTimer.isSome = true →
        (s.rtc.goal = .none → exec .settleTimerExpiry s = .next { s with rtc := { s.rtc with settleTimer := none, motion := .stopped } })
        ∧ (((∃ l : Loc, s.rtc.goal = .runUp l true) ∨ ∃ w : Nat, s.rtc.goal = .wrapTurn w) →
            (s.rtc.stepTo.isSome = true → exec .settleTimerExpiry s = .next { s with rtc := { s.rtc with settleTimer := none, motion := .stopped } })
            ∧ (s.rtc.stepTo = none → ∃ t : State, exec .settleTimerExpiry s = .next t ∧ t.rtc.motion = .accelerating
                ∧ t.rtc.settleTimer = none ∧ t.rtc.speedIndex = (s.sm.scheduled.getD s.sm.index) ∧ t.sm.scheduled = none
                ∧ t.dbm = s.dbm ∧ t.cu = s.cu ∧ t.pu = s.pu ∧ t.hm = s.hm)))
      ∧ (∀ w : Nat, s.rtc.stepTo = some w →
          (s.rtc.cartridge = .tensioning → exec .headStepComplete s = .next { s with rtc := { s.rtc with stepTo := none } })
          ∧ (s.rtc.cartridge ≠ .tensioning → s.rtc.motion ≠ .stopped →
              exec .headStepComplete s = .next { s with rtc := { s.rtc with stepTo := none, headWrap := some w } })
          ∧ (s.rtc.cartridge ≠ .tensioning → s.rtc.motion = .stopped →
              ((∃ l : Loc, s.rtc.goal = .runUp l true) ∨ ∃ v : Nat, s.rtc.goal = .wrapTurn v) → ∃ t : State, exec .headStepComplete s = .next t
              ∧ t.rtc.motion = .accelerating ∧ t.rtc.headWrap = some w ∧ t.rtc.stepTo = none
              ∧ t.dbm = s.dbm ∧ t.cu = s.cu ∧ t.pu = s.pu ∧ t.hm = s.hm)))

/-! ### The servo -/

/-- Bursts while ACQUIRING: a valid one counts, an invalid one sets the count to 0, and the 64th valid one while STREAMING brings LOCKED
with the write clock SERVO, the same whether it is sent as SERVO_BURST or as TIMEBASE_LOCKED (the second name is the model's reading, log 3).
That the lateral reading of that burst is taken, and the inhibit judged from it, is the model's reading too (log 21). A burst that is not
judged changes nothing (R145 to R148, R152). Bursts at a data pitch; BurstsWhileLocked has those that come while LOCKED or LOST. TIMEBASE_LOCKED
is that SERVO_BURST in every state, also where the burst's own announcement decelerates the tape, and changes nothing where the burst is not the 64th
(logs 2, 3). The merge of the two channels: position word and lateral reading from channel 0, or from the one whose check passes, the mean of both
readings toward 0, within ±100 % (R145); that the limit is applied to the mean is the model's choice (log 66). A burst is valid when its word passed its
check and its interval from the last burst, if it has one, lies within 0.875 T to 1.125 T, T = 24,000,000 / v (R144, R146). -/
def Obligations.BurstsBringLock : Prop :=
  (∀ (b : Burst) (s : State), s.writeIdle = true → s.readIdle = true → s.wf.stage = .idle →
    (s.judged = false → exec (.servoBurst b) s = .next s)
    ∧ (∀ (w word : Nat) (lateral : Int), s.judged = true → s.sv.timebase = .acquiring → s.rtc.headWrap = some w →
        mergeReadings b.ch0 b.ch1 = some (word, lateral) → 400 ≤ word → word < 400 + s.pitches →
        (s.sv.accepts b.time true = true → s.sv.runCount < 63 → ∃ t : State, exec (.servoBurst b) s = .next t
          ∧ t.sv.runCount = s.sv.runCount + 1 ∧ t.sv.timebase = .acquiring ∧ t.dbm = s.dbm ∧ t.cu = s.cu ∧ t.pu = s.pu ∧ t.eu = s.eu)
        ∧ (s.sv.accepts b.time true = false → ∃ t : State, exec (.servoBurst b) s = .next t
          ∧ t.sv.runCount = 0 ∧ t.sv.timebase = .acquiring ∧ t.dbm = s.dbm ∧ t.cu = s.cu ∧ t.pu = s.pu ∧ t.eu = s.eu)
        ∧ (s.sv.accepts b.time true = true → s.sv.runCount = 63 → s.rtc.motion = .streaming → ∃ t : State,
          exec (.servoBurst b) s = .next t ∧ exec (.timebaseLocked b) s = .next t
          ∧ t.sv.timebase = .locked ∧ t.sv.clock = .servo ∧ t.sv.missCount = 0 ∧ t.sv.lateral = some lateral
          ∧ t.sv.inhibit = decide (s.cu.policy.offTrack < lateral.natAbs) ∧ t.rtc.place = some word
          ∧ t.dbm = s.dbm ∧ t.cu = s.cu ∧ t.pu = s.pu ∧ t.eu = s.eu)))
  ∧ (∀ (b : Burst) (s : State),
    let locks := s.judged = true ∧ s.sv.timebase = .acquiring ∧ s.sv.accepts b.time (mergeReadings b.ch0 b.ch1).isSome = true
      ∧ 63 ≤ s.sv.runCount ∧ s.rtc.motion = .streaming ∧ s.rtc.headWrap ≠ none
    (locks → exec (.timebaseLocked b) s = exec (.servoBurst b) s) ∧ (¬ locks → exec (.timebaseLocked b) s = .next s))
  ∧ (∀ a c : ServoReading,
    mergeReadings (some a) (some c) = some (a.word, max (-100) (min 100 (Int.tdiv (a.lateral + c.lateral) 2)))
    ∧ mergeReadings (some a) none = some (a.word, max (-100) (min 100 a.lateral))
    ∧ mergeReadings none (some c) = some (c.word, max (-100) (min 100 c.lateral)) ∧ mergeReadings none none = none)
  ∧ (∀ (v : Sv) (at_ : Instant) (checked : Bool), 0 < v.speed → 0 < at_.den →
    (v.lastBurst = none → v.accepts at_ checked = checked)
    ∧ (∀ t0 : Instant, v.lastBurst = some t0 → 0 < t0.den →
      let interval : ℚ := at_.num / at_.den - t0.num / t0.den
      let T : ℚ := 24000000 / v.speed
      (v.accepts at_ checked = true ↔ checked = true ∧ 7 / 8 * T ≤ interval ∧ interval ≤ 9 / 8 * T)))

/-- Bursts at a head on wrap w while LOCKED. A missing one: the first and second count and announce the next pitch, the third brings LOST
with SERVO_LOST, the write clock REFERENCE, the interval history empty, the same whether it is sent as BURST_MISSING or as TIMEBASE_LOST
(the second name is the model's reading, log 3); where the tape passes that burst into the far turnaround zone with a wrap turn asked for it
decelerates at once, which is ACQUIRING (R136, R150; that an unannounced place begins the turn is the model's choice, log 9). A valid one
ends the run of misses, joins its interval to the history of 16, gives the lateral reading and announces its pitch; the 16 intervals give
the measured speed, and a deviation that begins latches SPEED_DEVIATION. One invalid by its interval alone counts as missing, and its
lateral reading is taken. While LOST, the first judged burst brings ACQUIRING and is taken as a burst there: a valid one makes the run count
1, unless it begins a wrap turn, an invalid or a missing one leaves it at 0. A turnaround position at the far end begins the wrap turn asked
for and reaches no other block (R136, R145 to R149, R151 to R154). The measured speed of 16 intervals is 24,000,000 over their mean, rounded down
(R153). -/
def Obligations.BurstsWhileLocked : Prop :=
  (∀ h : List Instant, h.length = 16 → (∀ d ∈ h, 0 < d.num ∧ 0 < d.den) →
    let mean : ℚ := (h.map (fun d => (d.num / d.den : ℚ))).sum / 16
    measuredSpeed h = ⌊24000000 / mean⌋₊)
  ∧ (∀ s : State, s.writeIdle = true → s.readIdle = true → s.wf.stage = .idle → s.judged = true →
    (s.sv.timebase = .locked → s.sv.lastBurst.isSome = true →
      (s.sv.missCount < 2 → ∀ w p : Nat, s.rtc.headWrap = some w → s.sv.lastPlace = some (.pitch p) → p + 1 < s.pitches → ∃ t : State,
        exec .burstMissing s = .next t ∧ t.sv.missCount = s.sv.missCount + 1 ∧ t.sv.timebase = .locked ∧ t.sv.history = []
        ∧ t.sv.lastPlace = some (.pitch (p + 1)) ∧ t.dbm = s.dbm ∧ t.cu = s.cu ∧ t.pu = s.pu ∧ t.eu = s.eu)
      ∧ (2 ≤ s.sv.missCount → ∃ t : State, exec .burstMissing s = .next t ∧ exec .timebaseLost s = .next t
        ∧ t.sv.timebase = (if s.turnsAt s.wordOnward then .acquiring else .lost) ∧ t.sv.clock = .reference ∧ t.sv.inhibit = false ∧ t.sv.history = [] ∧ t.sv.measured = none
        ∧ t.sv.missCount = 0 ∧ t.eu.latches[3].set = true ∧ t.dbm = s.dbm ∧ t.cu = s.cu ∧ t.pu = s.pu))
    ∧ (∀ (b : Burst) (w word : Nat) (lateral : Int) (t0 : Instant), s.sv.timebase = .locked → s.rtc.headWrap = some w →
        mergeReadings b.ch0 b.ch1 = some (word, lateral) → s.sv.lastBurst = some t0 → 400 ≤ word → word < 400 + s.pitches →
        let pitch := if w % 2 = 0 then word - 400 else s.pitches - 1 - (word - 400)
        let history := if s.sv.lastValid then (s.sv.history ++ [b.time.since t0]).drop (s.sv.history.length + 1 - 16) else s.sv.history
        (s.sv.accepts b.time true = true → ∃ t : State, exec (.servoBurst b) s = .next t
          ∧ t.sv.timebase = .locked ∧ t.sv.missCount = 0 ∧ t.sv.lastBurst = some b.time ∧ t.sv.lastPlace = some (.pitch pitch)
          ∧ t.sv.lateral = some lateral ∧ t.sv.inhibit = decide (s.cu.policy.offTrack < lateral.natAbs) ∧ t.rtc.place = some word
          ∧ t.sv.history = history
          ∧ (s.sv.lastValid = true → history.length = 16 →
              t.sv.measured = some (measuredSpeed history)
              ∧ t.sv.deviating = decide (s.sm.table.tolerance * s.sv.speed < 100 * ((measuredSpeed history : Int) - s.sv.speed).natAbs)
              ∧ (t.sv.deviating = true → s.sv.deviating = false → t.eu.latches[4].set = true)
              ∧ ((t.sv.deviating = false ∨ s.sv.deviating = true) → t.eu = s.eu))
          ∧ ((s.sv.lastValid = false ∨ history.length < 16) → t.sv.measured = s.sv.measured ∧ t.eu = s.eu)
          ∧ t.dbm = s.dbm ∧ t.cu = s.cu ∧ t.pu = s.pu ∧ t.wf = s.wf ∧ t.tape = s.tape)
        ∧ (s.sv.accepts b.time true = false → s.sv.missCount < 2 → (∀ p, s.sv.lastPlace = some (.pitch p) → p + 1 < s.pitches) →
          (∀ v, s.sv.lastPlace ≠ some (.turn v)) → ∃ t : State, exec (.servoBurst b) s = .next t
          ∧ t.sv.timebase = .locked ∧ t.sv.missCount = s.sv.missCount + 1 ∧ t.sv.history = [] ∧ t.sv.lastBurst = some b.time
          ∧ t.sv.lateral = some lateral ∧ t.sv.inhibit = decide (s.cu.policy.offTrack < lateral.natAbs)
          ∧ t.dbm = s.dbm ∧ t.cu = s.cu ∧ t.pu = s.pu ∧ t.eu = s.eu))
    ∧ (s.sv.timebase = .lost →
        (∀ b : Burst, let merged := mergeReadings b.ch0 b.ch1
          let word := if s.rtc.headWrap.isSome then (merged.map Prod.fst).or s.wordOnward else none
          ∃ t : State, exec (.servoBurst b) s = .next t ∧ t.sv.timebase = .acquiring
          ∧ t.sv.runCount = (if s.sv.accepts b.time merged.isSome && !s.turnsAt word then 1 else 0)
          ∧ t.dbm = s.dbm ∧ t.cu = s.cu ∧ t.pu = s.pu ∧ t.eu = s.eu)
        ∧ (s.sv.lastBurst.isSome = true → ∃ t : State, exec .burstMissing s = .next t ∧ t.sv.timebase = .acquiring ∧ t.sv.runCount = 0
          ∧ t.dbm = s.dbm ∧ t.cu = s.cu ∧ t.pu = s.pu ∧ t.eu = s.eu))
    ∧ (∀ (b : Burst) (w v word : Nat) (lateral : Int), s.sv.timebase = .locked → s.rtc.headWrap = some w → s.rtc.goal = .wrapTurn v →
        s.rtc.motion = .streaming → mergeReadings b.ch0 b.ch1 = some (word, lateral) → s.sv.accepts b.time true = true →
        (if w % 2 = 0 then 400 + s.pitches ≤ word else word < 400) → ∃ t : State, exec (.servoBurst b) s = .next t
          ∧ t.rtc.motion = .decelerating ∧ t.rtc.goal = .wrapTurn v ∧ t.rtc.place = some word
          ∧ t.wf = s.wf ∧ t.rdr = s.rdr ∧ t.dbm = s.dbm ∧ t.cu = s.cu ∧ t.pu = s.pu ∧ (s.sv.lastValid = false → t.eu = s.eu)))

/-- A mid-pitch lateral frame while LOCKED is held, within ±100 %, and sets or clears the off-track inhibit by the recovery policy's
limit; both channels' readings are averaged toward 0, the limit then applied to the mean, which is the model's choice (log 66), one channel's taken
alone; one that neither channel gives, or outside LOCKED, changes
nothing (R145, R154). A frame that raises the inhibit while a row set is being written stops that writing: the set's rows fail unscored, and join
the rewrite queue in increasing row number with their write counts and channels, where none has been written three times and the rewrite sets left
can carry them; otherwise the attempt closes for a restart (R49, R52, R64). -/
def Obligations.LateralFrameSetsInhibit : Prop :=
  (∀ a b : Int, mergeLateral (some a) (some b) = some (max (-100) (min 100 (Int.tdiv (a + b) 2)))
    ∧ mergeLateral (some a) none = some (max (-100) (min 100 a)) ∧ mergeLateral none (some b) = some (max (-100) (min 100 b))
    ∧ mergeLateral none none = none)
  ∧ (∀ (a b : Option Int) (s : State), s.writeIdle = true →
    ((s.sv.timebase ≠ .locked ∨ mergeLateral a b = none) → exec (.lateralFrame a b) s = .next s)
    ∧ (∀ x : Int, s.sv.timebase = .locked → mergeLateral a b = some x → s.wf.inFlight = none →
        exec (.lateralFrame a b) s = .next { s with
          sv := { s.sv with lateral := some x, inhibit := decide (s.cu.policy.offTrack < x.natAbs) } }))
  ∧ (∀ (a b : Option Int) (s : State) (x : Int) (f : InFlight), s.sv.timebase = .locked → mergeLateral a b = some x →
    s.cu.policy.offTrack < x.natAbs → s.sv.inhibit = false → s.wf.stage = .span → s.wf.inFlight = some f → s.cu.progress ≠ .filemarks →
    s.rtc.headWrap = some f.place.wrap → s.sv.lastPlace = some (.pitch f.place.pitch) →
    (∀ (c c' : Fin 16) (r : Nat), f.rows[c] = some r → r < 256 ∧ (f.rows[c'] = some r → c = c')) →
    let cut (t : State) : Prop := t.tape = s.tape ++ [.cutOff f.place] ∧ t.wf.inFlight = none ∧ t.wf.tallies = s.wf.tallies
      ∧ t.sv = { s.sv with lateral := some x, inhibit := true } ∧ t.wf.rowCounts = s.wf.rowCounts ∧ t.wf.nextSet = s.wf.nextSet
      ∧ t.wf.writePoint = s.wf.writePoint
      ∧ t.dbm = s.dbm ∧ t.cu = s.cu ∧ t.pu = s.pu ∧ t.hm = s.hm ∧ t.rtc = s.rtc ∧ t.spu = s.spu ∧ t.eu = s.eu
    ((∃ c : Fin 16, f.rows[c] ≠ none) → (∀ (c : Fin 16) (r : Nat), f.rows[c] = some r → s.wf.count r < 3) →
      s.wf.queue.length + (f.rows.toList.filter Option.isSome).length ≤ 16 * (4 - s.wf.rewriteSets) →
      ∃ (t : State) (added : List Rewrite), exec (.lateralFrame a b) s = .next t ∧ cut t ∧ t.wf.stage = .span
        ∧ t.wf.queue = s.wf.queue ++ added ∧ added.Pairwise (fun p q => p.row < q.row)
        ∧ (∀ p : Rewrite, p ∈ added ↔ ∃ c : Fin 16, f.rows[c] = some p.row ∧ p.last = c.val ∧ p.count = s.wf.count p.row))
    ∧ (((∃ (c : Fin 16) (r : Nat), f.rows[c] = some r ∧ 3 ≤ s.wf.count r)
          ∨ 16 * (4 - s.wf.rewriteSets) < s.wf.queue.length + (f.rows.toList.filter Option.isSome).length) →
      s.attemptNumber < 1 + s.cu.policy.restartLimit →
      ∃ t : State, exec (.lateralFrame a b) s = .next t ∧ cut t ∧ t.wf.stage = .closing .restart none))

/-- What a valid burst at pitch p of wrap w, LOCKED and on track, makes the Write Formatter write there. The next nominal row set k: row 16k
+ ((c - k) mod 16) on channel c, its header naming the dataset and the wrap, the row's write count up by one, the set in flight and the
write point after it, at the pitch announced wherever it lies on the wrap. The first set of an attempt, at its target or where the span is
due: the span starts there, EOD-mark pending and early warning are judged. A rewrite set: each row of the queue, in order, on the lowest
free channel that is not its last, FILLER on the channels left, a row without one waiting. The separator of a finished plan; a pitch of an
EOD mark. A target that was jumped over is a missed resume. A row set still unverified lets the pitch pass, the model's choice (log 18); so
is that a pending mark is judged from the EOD record (log 22), and that a target jumped over counts as a miss at the pitch announced behind
it (log 20) (R46, R47, R49, R50, R51, R57, R59, R62, R151). -/
def Obligations.AnnouncedPitchWritten : Prop :=
  ∀ (s : State) (b : Burst) (w word p part : Nat) (lateral : Int) (at_ : Loc), s.readIdle = true → s.judged = true → s.sv.timebase = .locked →
    s.rtc.headWrap = some w → s.rtc.motion = .streaming → mergeReadings b.ch0 b.ch1 = some (word, lateral) → s.sv.accepts b.time true = true →
    lateral.natAbs ≤ s.cu.policy.offTrack → word = wordOf s.pitches ⟨w, p⟩ → p < s.pitches →
    s.cu.progress ≠ .filemarks → s.wf.writePoint = some (part, at_) → at_.wrap = w →
    let kept (t : State) : Prop := t.dbm = s.dbm ∧ t.cu = s.cu ∧ t.pu = s.pu ∧ t.hm = s.hm
    let laid (t : State) (rows : List RowWritten) : Prop := exec (.servoBurst b) s = .next t ∧ t.tape = s.tape ++ [.rowSet ⟨w, p⟩ rows]
      ∧ rows.length = 16 ∧ (∀ r ∈ rows, r.wrap = w ∧ r.dataset = s.writingDataset)
      ∧ t.wf.stage = .span ∧ t.wf.writePoint = some (part, ⟨w, p + 1⟩)
      ∧ (∃ f : InFlight, t.wf.inFlight = some f ∧ f.place = ⟨w, p⟩ ∧ ∀ c : Fin 16, f.rows[c] = (rows[c.val]?).bind RowWritten.row) ∧ kept t
    let nominal (k : Nat) (t : State) : Prop := ∃ rows : List RowWritten, laid t rows ∧ t.wf.nextSet = k + 1
      ∧ (∀ c : Nat, c < 16 → ∃ r : RowWritten, rows[c]? = some r ∧ r.row = some (16 * k + (c + 16 - k) % 16)
          ∧ r.attempt = s.wf.count (16 * k + (c + 16 - k) % 16) + 1)
    (s.wf.stage = .span → s.wf.inFlight = none → 1 ≤ s.wf.nextSet → s.wf.nextSet < 16 → ∃ t : State, nominal s.wf.nextSet t)
    ∧ ((s.wf.stage = .span ∨ ∃ again, s.wf.stage = .runUp ⟨w, p⟩ .span again) → s.wf.inFlight = none → s.wf.nextSet = 0 → s.wf.header = none →
      p + 21 ≤ s.pitches → ∃ t : State, nominal 0 t ∧ t.wf.spanStart = some ⟨w, p⟩
      ∧ t.wf.eodPending = (s.wf.eodPending || (match s.pu.eod.getD s.pu.partition none with
          | some e => !(e.onTape && e.mark.before ⟨w, p⟩)
          | none => true))
      ∧ (s.pitches - p + s.pitches * (s.lastWrap - w) ≤ s.generation.earlyWarning → s.wf.earlyWarned.contains s.pu.partition = false →
          t.wf.earlyWarned = s.pu.partition :: s.wf.earlyWarned ∧ t.eu.latches[8].set = true))
    ∧ (s.wf.stage = .span → s.wf.inFlight = none → s.wf.nextSet = 16 → (s.wf.queue.map Rewrite.row).Nodup → (∀ q ∈ s.wf.queue, q.row < 256) →
      ∃ (t : State) (rows : List RowWritten) (channel : Nat → Option Nat), laid t rows ∧ t.wf.nextSet = 16
      ∧ t.wf.rewriteSets = s.wf.rewriteSets + 1
      ∧ (∀ (i : Nat) (q : Rewrite), s.wf.queue[i]? = some q →
          channel i = (List.range 16).find? (fun c => c != q.last && (List.range i).all (fun j => channel j != some c))
          ∧ (∀ c, channel i = some c → ∃ r : RowWritten, rows[c]? = some r ∧ r.row = some q.row ∧ r.attempt = s.wf.count q.row + 1))
      ∧ (∀ c : Nat, c < 16 → (∀ i, i < s.wf.queue.length → channel i ≠ some c) → ∃ r : RowWritten, rows[c]? = some r ∧ r.row = none)
      ∧ t.wf.queue = (s.wf.queue.zipIdx.filter (fun x => (channel x.2).isNone)).map Prod.fst)
    ∧ (s.wf.stage = .span → s.wf.inFlight.isSome = true → ∃ t : State, exec (.servoBurst b) s = .next t
      ∧ t.tape = s.tape ∧ t.wf = s.wf ∧ t.dbm = s.dbm ∧ t.cu = s.cu ∧ t.pu = s.pu)
    ∧ (∀ (q : Nat) (again : Bool), s.wf.stage = .runUp ⟨w, q⟩ .span again → q < p → s.wf.misses < s.cu.policy.missLimit →
      ∃ t : State, exec (.servoBurst b) s = .next t ∧ t.tape = s.tape ∧ t.wf.stage = .runUp ⟨w, q⟩ .span true ∧ t.wf.misses = s.wf.misses + 1
      ∧ kept t)
    ∧ (s.wf.stage = .closing .done none → ∃ t : State, exec (.servoBurst b) s = .next t ∧ t.tape = s.tape ++ [.separator ⟨w, p⟩]
      ∧ t.wf.stage = .closing .done (some ⟨w, p⟩) ∧ t.wf.writePoint = some (part, s.after ⟨w, p⟩) ∧ kept t)
    ∧ (∀ (k : MarkKind) (start : Loc) (n : Nat), s.wf.stage = .marking k start n → n < 2 → ∃ t : State, exec (.servoBurst b) s = .next t
      ∧ t.tape = s.tape ++ [.endPattern ⟨w, p⟩] ∧ t.wf.stage = .marking k start (n + 1) ∧ kept t)

/-! ### Reading -/

/-- A pitch read: at rest it passes; while SEEKING or CAPTURING a row set without a good header counts its bad headers, and one with no
signal counts as such a set, the model's reading (log 32); while SEEKING a row set with a good row of the expected dataset opens copy 1,
listed with the span start its nominal rows give, not listed while it has none, and that any such row makes the set one of that dataset is
the model's reading (log 38). The rows of the expected dataset are placed in the LOADING slot and scored as RowsPlaced says: in a copy
without a span start its nominal rows, which give it; with one, the nominal rows that imply it and the rewrite rows of the pitches of its
rewrite sets, no others; nominal rows that imply a later start take back the records and the tallies of the copy, put their start in the
list and are placed (R87, R88, R98). A nominal row whose start would lie before the wrap is not placed, the model's choice (log 49). The
64th blank pitch in a row, before any copy, ends the data, the LOADING slot freed (R11, R84 to R87, R95). -/
def Obligations.PitchRead : Prop :=
  ∀ (s : State) (l : Loc) (n p : Nat), s.writeIdle = true →
    (∀ c : PitchContent, s.readIdle = true → exec (.readPitch c) s = .next s)
    ∧ (s.locked = true → s.pitchHere = some l → l.pitch + 1 < s.pitches → s.pu.scan = none → s.rdr.wanted = false →
        s.rdr.expected = some (n, p) →
        (∀ rows : Vector (Option RowRead) 16, (s.rdr.activity = .seeking ∨ s.rdr.activity = .capturing) → goodRows rows l.wrap = [] →
          exec (.readPitch (.rowSet rows)) s = .next { s with
            rdr := { s.rdr with blankRun := 0, blankStart := none, headerErrors := min 65535 (s.rdr.headerErrors + badHeaders rows l.wrap) } })
        ∧ (∀ rows : Vector (Option RowRead) 16, s.rdr.activity = .seeking → s.rdr.copyOpen = false → s.rdr.copies = [] →
            let mine := (goodRows rows l.wrap).filter (fun x => x.2.dataset.toNat == n)
            mine ≠ [] → ∃ t : State, exec (.readPitch (.rowSet rows)) s = .next t ∧ t.rdr.activity = .capturing
            ∧ t.rdr.copyOpen = true ∧ t.rdr.copy = some 1 ∧ t.rdr.opened = some l ∧ t.rdr.blankRun = 0
            ∧ ((∀ x ∈ mine, x.2.attempt.toNat ≠ 1) → t.rdr.copies = [])
            ∧ (∀ k : Nat, k ≤ l.pitch → (∃ x ∈ mine, x.2.attempt.toNat = 1) → (∀ x ∈ mine, x.2.attempt.toNat = 1 → x.2.row.toNat / 16 = k) →
                t.rdr.copies = [⟨l.wrap, l.pitch - k⟩])
            ∧ t.rdr.headerErrors = min 65535 (s.rdr.headerErrors + badHeaders rows l.wrap)
            ∧ t.dbm.slots = s.dbm.slots ∧ t.cu = s.cu ∧ t.pu = s.pu ∧ t.rtc = s.rtc ∧ t.spu = s.spu)
        ∧ (∀ (rows : Vector (Option RowRead) 16) (i k pass : Nat), s.dbm.find .loading = some i → s.dbm.dram.wf = true → s.rdr.pass = some pass →
            let base := 2097152 * ((s.dbm.drain + i) % 512)
            let mine := (goodRows rows l.wrap).filter (fun x => x.2.dataset.toNat == n)
            let nominal (x : Nat × RowRead) : Bool := x.2.attempt.toNat == 1
            let set (x : Nat × RowRead) : Nat := x.2.row.toNat / 16
            let none_ : Vector Tally 16 := Vector.replicate 16 { rows := 0, failed := 0 }
            let places (copy : Nat) (row : Nat → RowState) (tallies : Vector Tally 16) (placed : List (Nat × RowRead)) (copies : List Loc) : Prop :=
              ∃ t : State, exec (.readPitch (.rowSet rows)) s = .next t ∧ RowsPlaced s t base pass copy row tallies placed
              ∧ t.rdr.copies = copies ∧ t.rdr.copy = some copy ∧ t.rdr.activity = .capturing ∧ t.rdr.copyOpen = true ∧ t.rdr.pass = some pass
              ∧ t.rdr.headerErrors = min 65535 (s.rdr.headerErrors + badHeaders rows l.wrap)
              ∧ t.dbm.slots = s.dbm.slots ∧ t.cu = s.cu ∧ t.pu = s.pu ∧ t.rtc = s.rtc ∧ t.spu = s.spu ∧ t.hm = s.hm
            let found (j : Nat) : List Loc := if mine.any nominal then [⟨l.wrap, l.pitch - j⟩] else []
            mine ≠ [] →
            (∀ j : Nat, j ≤ l.pitch → (∀ x ∈ mine, nominal x = true → set x = j) →
              (s.rdr.activity = .seeking → s.rdr.copyOpen = false → s.rdr.copies = [] → places 1 s.rdr.row none_ (mine.filter nominal) (found j))
              ∧ (s.rdr.activity = .capturing → s.rdr.copyOpen = true → s.rdr.copy = some k → s.rdr.copies.length + 1 = k →
                  places k s.rdr.row s.rdr.tallies (mine.filter nominal) (s.rdr.copies ++ found j)))
            ∧ (∀ start : Loc, s.rdr.activity = .capturing → s.rdr.copyOpen = true → s.rdr.copy = some k → 1 ≤ k →
                s.rdr.copies[k - 1]? = some start →
                let later (x : Nat × RowRead) : Bool := nominal x && decide (set x ≤ l.pitch) && start.before ⟨l.wrap, l.pitch - set x⟩
                let belongs (x : Nat × RowRead) : Bool := l.wrap == start.wrap && (if nominal x then l.pitch == start.pitch + set x
                  else decide (start.pitch + 16 ≤ l.pitch) && decide (l.pitch ≤ start.pitch + 19))
                ((∀ x ∈ mine, later x = false) → places k s.rdr.row s.rdr.tallies (mine.filter belongs) s.rdr.copies)
                ∧ (∀ j : Nat, (∀ x ∈ mine, later x = true ∧ set x = j) →
                    places k (fun r => if (s.rdr.row r).from k then .absent else s.rdr.row r) none_ mine
                      (s.rdr.copies.set (k - 1) ⟨l.wrap, l.pitch - j⟩))))
        ∧ (s.rdr.activity = .seeking → s.rdr.blankRun = 63 → s.rdr.copyOpen = false → s.rdr.opened = none → s.rdr.unseen = none →
            s.rdr.alone = false → ∃ t : State,
            exec (.readPitch .blank) s = .next t ∧ t.rdr.activity = .ended .endOfData ∧ t.rdr.readAhead = false
            ∧ t.dbm.slots = (if (s.dbm.slots.getLast?.map Slot.state) = some .loading then s.dbm.slots.dropLast else s.dbm.slots)
            ∧ t.dbm.dram = s.dbm.dram ∧ t.cu = s.cu ∧ t.spu = s.spu))

/-- The copy being captured ends. A separator closes it. Where 16 rows or fewer are not GOOD, C2 regenerates each of them in the slot,
whether or not the trailer then passes, the GOOD rows and every other byte standing: a data row as it was written, which is a free value of
the good rows where the part did not write it itself (log 13), and a parity row from the data area; with more nothing changes in the slot.
The copy is corrected where the trailer then passes R90's checks. Then the LOADING slot is READY with the trailer's fields and the rows C2
recovered, and the next dataset is expected; otherwise the first pass seeks the follow-on copy, a later pass past its last listed copy makes
a retry from the span start of copy 1 while passes remain, and then the slot is FAILED with MEDIUM_ERROR. An end pattern that meets the open
copy with no pitch passed unseen leaves it unclosed: end of data, the slot freed. The read tallies go to the Head Monitor. The dataset D of
a WRITE_RECORDS below EOD, loaded alone, is converted: its slot is FILLING, cut at the position, the direction WRITE, the EOD put back to
the cut with its mark pending, the history empty with a reset owed, and the credits granted. Where end of data is met in its place, an EOD
not yet known becomes known, and the command ends MEDIUM_ERROR with the read path discarded (R16, R17, R46, R84, R89 to R94, R97, R98, R118,
R192); that the EOD object is then D's first object, and that a position beyond it becomes it, is the model's reading and its choice (log
48), and that this MEDIUM_ERROR carries the position in its object field, for which no rule names a result, is its choice (log 57). -/
def Obligations.CopyEvaluated : Prop :=
  ∀ (s : State) (l : Loc) (n p i : Nat) (x : Slot), s.writeIdle = true → s.locked = true → s.pitchHere = some l → l.pitch + 1 < s.pitches →
    s.pu.scan = none → s.rdr.wanted = false → s.rdr.expected = some (n, p) → s.rdr.activity = .capturing →
    s.rdr.copyOpen = true → s.dbm.find .loading = some i → s.dbm.slots[i]? = some x →
    let base := 2097152 * ((s.dbm.drain + i) % 512)
    let good := ((List.range 256).filter (fun r => (s.rdr.row r).isGood)).map (fun r => (r, s.dbm.dram.row base r))
    let written (r : Nat) : Option Cells := writtenRow s.tape n good r
    let m : Memory := s.corrected
    (s.dbm.dram.wf = true → m.wf = true
      ∧ (∀ a : Nat, (a < base ∨ base + 2097152 ≤ a) → m.read a = s.dbm.dram.read a)
      ∧ (good.length < 240 → m = s.dbm.dram)
      ∧ (240 ≤ good.length → ∀ r k : Nat, r < 256 → k < 8192 → m.read (base + 8192 * r + k)
          = if (s.rdr.row r).isGood then s.dbm.dram.read (base + 8192 * r + k)
            else (Memory.place [] 0 8192 (if r < 240 then (written r).getD (Config.freeC2Row good r) else parityCells (m.area base) r)).read k)
      ∧ s.evaluation =
          (let tr := m.trailer base
           if 240 ≤ good.length ∧ tr.partition = p ∧ tr.dataset = n ∧ 1 ≤ tr.entries ∧ tr.entries ≤ 4096 ∧ tr.payload ≤ 1966016 - 16 * tr.entries
           then some tr else none))
    ∧ (s.rdr.alone = false →
      (∀ tr : Trailer, s.evaluation = some tr →
        s.rdr.erasedCount ≤ 16 ∧ tr.partition = p ∧ tr.dataset = n ∧ 1 ≤ tr.entries ∧ tr.entries ≤ 4096 ∧ tr.payload ≤ 1966016 - 16 * tr.entries
        ∧ ∃ t : State, exec (.readPitch .separator) s = .next t
          ∧ t.dbm.slots[i]? = some { x with state := .ready, first := some tr.first, filemarksBefore := some tr.filemarks,
                                            entries := some tr.entries, payload := some tr.payload, outcome := some s.rdr.erasedCount }
          ∧ t.dbm.dram = m ∧ (s.endKnown (n + 1) = none → t.rdr.expected = some (n + 1, p) ∧ t.rdr.resume = some (s.after l))
          ∧ t.hm = (s.takeTally s.rdr.tallies).hm ∧ t.cu = s.cu)
      ∧ (s.evaluation = none →
        (s.rdr.pass = some 1 → ∃ t : State, exec (.readPitch .separator) s = .next t ∧ t.rdr.activity = .seeking ∧ t.rdr.copyOpen = false
          ∧ t.rdr.copies = s.rdr.copies ∧ t.rdr.rows = s.rdr.rows ∧ t.dbm = { s.dbm with dram := m } ∧ t.hm = (s.takeTally s.rdr.tallies).hm
          ∧ t.cu = s.cu ∧ t.pu = s.pu)
        ∧ (∀ k : Nat, s.rdr.pass = some k → 2 ≤ k → s.rdr.copies.length ≤ s.rdr.copy.getD 1 →
          (k < 1 + s.cu.policy.retries → ∀ start : Loc, s.rdr.copies.head? = some start → ∃ t : State, exec (.readPitch .separator) s = .next t
            ∧ t.rdr.activity = .repositioning ∧ t.rdr.pass = some (k + 1) ∧ t.rdr.target = some start ∧ t.rdr.rows = s.rdr.rows
            ∧ t.dbm.slots[i]? = some { x with passes := x.passes.map (· + 1) } ∧ t.dbm.dram = m ∧ t.cu = s.cu ∧ t.pu = s.pu)
          ∧ (1 + s.cu.policy.retries ≤ k → ∃ t : State, exec (.readPitch .separator) s = .next t
            ∧ t.rdr.activity = .ended .failed ∧ t.rdr.readAhead = false ∧ t.eu.latches[1].set = true
            ∧ t.dbm.slots[i]? = some { x with state := .failed, outcome := some (if s.rdr.erasedCount ≤ 16 then 256 else s.rdr.erasedCount) }
            ∧ t.dbm.dram = m ∧ t.cu = s.cu ∧ t.pu = s.pu)))
      ∧ (s.rdr.unseen = none → ∃ t : State, exec (.readPitch .endPattern) s = .next t ∧ t.rdr.activity = .ended .endOfData
          ∧ t.rdr.readAhead = false
          ∧ t.dbm.slots = (if (s.dbm.slots.getLast?.map Slot.state) = some .loading then s.dbm.slots.dropLast else s.dbm.slots)
          ∧ t.dbm.dram = s.dbm.dram ∧ t.hm = (s.takeTally s.rdr.tallies).hm ∧ t.cu = s.cu))
    ∧ (∀ (tr : Trailer) (c : Cut) (count : Nat), s.rdr.alone = true → s.evaluation = some tr → s.pu.cut = some c →
      s.cu.progress = .settleD → s.executing = some (.wrec count) → s.cu.deferred = none → s.dbm.direction = .read → s.dbm.slots = [x] →
      s.dbm.staging = [] → s.spu.credits = 0 → s.pu.partition < s.pu.eod.length →
      let entry (j : Nat) : IndexEntry := m.entry base j
      let object (j : Nat) : Nat := tr.first + ((List.range j).filter (fun k => (entry k).kind.completes)).length
      let kept := (List.range tr.entries).filter (fun j => decide (object j < c.cutAt))
      let filemarks := (kept.filter (fun j => (entry j).kind == .filemark)).length
      ∃ (t : State) (before : List Packet), exec (.readPitch .separator) s = .next t ∧ t.dbm.direction = .write
        ∧ t.dbm.slots = [{ x with state := .filling, first := some tr.first, filemarksBefore := some tr.filemarks, entries := some kept.length,
                                  payload := some (kept.map (fun j => (entry j).stored)).sum, attempt := some 1, passes := none, outcome := none,
                                  objects := (kept.filter (fun j => (entry j).kind.completes)).length, filemarks := filemarks }]
        ∧ t.dbm.drain = s.dbm.drain % 512 ∧ t.dbm.dram = m
        ∧ (kept ≠ [] → t.dbm.sealTimer = some { elapsed := 0, period := s.sm.table.sealTimeout })
        ∧ t.rc.history = [] ∧ t.rc.resetOwed = true ∧ t.rdr.activity = .idle
        ∧ t.pu.eod.getD s.pu.partition none
            = some { object := c.cutAt, last := if c.dataset = 0 then none else some (c.dataset - 1), mark := c.start, onTape := false }
        ∧ t.pu.cut = none ∧ t.wf.appendPoint = some c.start ∧ t.wf.eodPending = true ∧ t.wf.stage = .idle
        ∧ t.cu.queue = s.cu.queue ∧ t.cu.progress = .writing ∧ t.spu.credits = 256 ∧ t.spu.out = before ++ [.wcrd 256])
    ∧ (∀ (c : Cut) (place : Loc) (q : Queued) (rest : List Queued), s.rdr.alone = true → s.rdr.unseen = none → s.pu.cut = some c →
      s.rdr.copies[s.rdr.copy.getD 1 - 1]? = some place → s.dbm.direction = .read → s.cu.queue = q :: rest → q.begun = true →
      s.pu.eod[p]? = some none → ∃ (t : State) (before : List Packet) (flags : Nat), exec (.readPitch .endPattern) s = .next t
        ∧ t.pu.eod[p]? = some (some { object := if n = 0 then 0 else c.first, last := if n = 0 then none else some (n - 1), mark := place,
                                      onTape := false })
        ∧ t.pu.object = min s.pu.object (if n = 0 then 0 else c.first) ∧ t.pu.partition = s.pu.partition ∧ t.pu.cut = none
        ∧ t.cu.queue = rest ∧ t.spu.out = before ++ [.resp q.tag q.command.name (.done .mediumError { object := t.pu.object, flags := flags } [])]
        ∧ t.rdr.activity = .idle ∧ t.dbm.slots = [] ∧ t.dbm.direction = .neutral ∧ t.dbm.dram = s.dbm.dram)

/-- A LOADING slot is opened at the take pointer with the expected dataset, the current partition and pass 1, when the Reader asks, the
direction is READ, none is LOADING, none is FAILED (StepKeepsReaderSound: none is while it asks) and one is FREE; otherwise nothing happens, so
with a FAILED slot at the newest end. A paused Reader goes on from the resume point while the
READY count is below the high water mark (R11, R96). -/
def Obligations.ReaderAsksForSlots : Prop :=
  ∀ (s : State) (n p : Nat), s.rdr.expected = some (n, p) →
    (s.rdr.wanted = true → s.dbm.direction = .read → (∀ x ∈ s.dbm.slots, x.state ≠ .loading ∧ x.state ≠ .failed) → s.dbm.slots.length < 512 → ∃ t : State,
      exec .openLoadingSlot s = .next t
      ∧ t.dbm = { s.dbm with
          slots := s.dbm.slots ++ [({ state := .loading, dataset := n, partition := p, first := none, filemarksBefore := none,
                                      entries := none, payload := none, attempt := none, passes := some 1, outcome := none,
                                      objects := 0, filemarks := 0 } : Slot)] }
      ∧ t.rdr.wanted = false ∧ t.rdr.pass = some 1 ∧ t.rdr.copies = [] ∧ (∀ i : Fin 256, t.rdr.rows[i] = .absent)
      ∧ t.cu = s.cu ∧ t.pu = s.pu ∧ t.rtc = s.rtc ∧ t.spu = s.spu ∧ t.eu = s.eu ∧ t.wf = s.wf)
    ∧ ((s.rdr.wanted = false ∨ s.dbm.direction ≠ .read ∨ (∃ x ∈ s.dbm.slots, x.state = .loading)
        ∨ (∃ x, s.dbm.slots.getLast? = some x ∧ x.state = .failed) ∨ 512 ≤ s.dbm.slots.length) →
      exec .openLoadingSlot s = .next s)
    ∧ (∀ seek : Loc, s.rdr.activity = .paused → s.rdr.readAhead = true → s.dbm.countIn .ready < s.sm.table.high → s.eodHere = none →
        s.rdr.resume = some seek → seek.pitch < s.pitches → ∃ t : State, exec .readAheadResume s = .next t
        ∧ t.rdr.activity = .repositioning ∧ t.rdr.expected = some (n, s.pu.partition) ∧ t.rdr.target = some seek
        ∧ t.cu = s.cu ∧ t.pu = s.pu)
    ∧ (s.sm.table.high ≤ s.dbm.countIn .ready → exec .readAheadResume s = .next s)

/-- The Record Expander, none EXPANDING: a READY slot at the drain pointer becomes EXPANDING, its outcome joins the recovered rows, the
history is emptied and the object number is the slot's first; with a record standing, a slot whose trailer's continues flag is clear is taken
so, the assembly dropped; one that continues the record by its first object number is taken with the assembly kept where its first entry is
MIDDLE or END, and else, as one of another first object number before it is taken, ends the record with its fault mark set: it waits to be sent
within the limit, is skipped where it lies below the position, and one that delivers no byte is delivered at once, which ends the read
DATA_CHECK (R35, R37 to R40). A FAILED slot ends the read with MEDIUM_ERROR naming the object being assembled, or else the running one, the
dataset and its outcome, and is freed, the assembly gone, the history and the index position standing; a LOADING slot is waited for. With no slot
and end of data the assembly goes and the read ends EOD; with no slot and a Reader ENDED with FAULT it ends NOT_READY, and with no slot and a
Reader that is not ENDED it waits (R12, R34, R35, R41, R99, R102). That NOT_READY carries the object being assembled, or else the position, that
the object number goes up with a record that ends so, and that a record of no byte takes no packet, are the model's choices (log 50). -/
def Obligations.ExpanderTakesSlot : Prop :=
  ∀ (s : State) (q : Queued) (rest : List Queued) (n limit : Nat), s.cu.queue = q :: rest → q.begun = true → q.command = .rrec n limit →
    s.cu.progress = .reading → s.rx.sending = none → (∀ x ∈ s.dbm.slots, x.state ≠ .expanding) →
    let ends (code : Code) (r : Results) (t : State) : Prop := exec .expanderTakesSlot s = .next t ∧ t.cu.queue = rest
      ∧ t.spu.out = s.spu.out ++ [.resp q.tag (ascii 'R' 'R' 'E' 'C') (.done code r [])]
      ∧ t.pu = s.pu ∧ t.rdr = s.rdr ∧ t.rtc = s.rtc ∧ t.eu = s.eu
    (∀ (x : Slot) (xs : List Slot), s.dbm.slots = x :: xs →
      let base := 2097152 * (s.dbm.drain % 512)
      let continues := (s.dbm.dram.trailer base).continues
      let first := (s.dbm.dram.entry base 0).kind
      let dbm : Dbm := { s.dbm with slots := { x with state := .expanding } :: xs, recovered := s.dbm.recovered + x.outcome.getD 0 }
      let walked (a : Option Assembly) : Rx :=
        { s.rx with history := [], sinceReset := 0, entry := 0, offset := 0, object := x.first.getD 0, assembly := a }
      let sending (a : Assembly) (object : Nat) : Sending :=
        { object := object, rest := a.data.take limit, actual := a.data.length, limit := limit, stored := a.stored, begun := false, fault := true }
      let atOnce (a : Assembly) : Prop := ∃ (t : State) (notes : List Packet), exec .expanderTakesSlot s = .next t ∧ t.cu.queue = rest
        ∧ t.pu = { s.pu with object := s.pu.object + 1, anchor := none } ∧ t.rx.assembly = none ∧ t.rx.sending = none
        ∧ t.spu.readCredits = s.spu.readCredits ∧ t.dbm.dram = s.dbm.dram ∧ t.rdr = s.rdr ∧ t.rtc = s.rtc ∧ t.eu.latches[2].set = true
        ∧ (s.eu.latches[2].set = true → notes = []) ∧ (notes = [] ∨ notes = [.note 2 1])
        ∧ t.spu.out = s.spu.out ++ notes ++ [.resp q.tag (ascii 'R' 'R' 'E' 'C') (.done .dataCheck
            { count := s.cu.count + 1, object := s.pu.object + 1, actualLength := if limit < a.data.length then a.data.length else 0 } [])]
      (x.state = .ready →
        ((s.rx.assembly = none ∨ continues = false) → exec .expanderTakesSlot s = .next { s with dbm := dbm, rx := walked none })
        ∧ (∀ a : Assembly, s.rx.assembly = some a → continues = true →
          (x.first.getD 0 = a.object → (first = .middle ∨ first = .end_) →
            exec .expanderTakesSlot s = .next { s with dbm := dbm, rx := walked (some a) })
          ∧ (x.first.getD 0 = a.object → first ≠ .middle → first ≠ .end_ →
            (s.pu.object ≤ a.object → a.data.take limit ≠ [] → exec .expanderTakesSlot s = .next { s with
              dbm := dbm, rx := { walked (some { a with fault := true }) with sending := some (sending a a.object) } })
            ∧ (s.pu.object ≤ a.object → a.data.take limit = [] → atOnce a)
            ∧ (a.object < s.pu.object → exec .expanderTakesSlot s = .next { s with
              dbm := if x.entries.getD 0 = 0 then { dbm with slots := xs, drain := (s.dbm.drain + 1) % 512 } else dbm,
              rx := { walked none with object := a.object + 1 } }))
          ∧ (x.first.getD 0 ≠ a.object →
            (s.pu.object ≤ s.rx.object → a.data.take limit ≠ [] → exec .expanderTakesSlot s = .next { s with
              rx := { s.rx with assembly := some { a with fault := true }, sending := some (sending a s.rx.object) } })
            ∧ (s.pu.object ≤ s.rx.object → a.data.take limit = [] → atOnce a)
            ∧ (s.rx.object < s.pu.object → exec .expanderTakesSlot s = .next { s with dbm := dbm, rx := walked none }))))
      ∧ (x.state = .failed → ∃ t : State, ends .mediumError
            { count := s.cu.count, object := (s.rx.assembly.map Assembly.object).getD s.rx.object, failedDataset := x.dataset,
              outcome := x.outcome.getD 0 } t
          ∧ t.dbm = { s.dbm with slots := xs, drain := (s.dbm.drain + 1) % 512 } ∧ t.rx = { s.rx with assembly := none })
      ∧ (x.state = .loading → exec .expanderTakesSlot s = .next s))
    ∧ (s.dbm.slots = [] →
      (s.rdr.activity = .ended .endOfData → ∃ t : State, ends .eod { count := s.cu.count, object := s.pu.object } t
        ∧ t.dbm = s.dbm ∧ t.rx = { s.rx with assembly := none })
      ∧ (s.rdr.activity = .ended .fault → ∃ t : State,
          ends .notReady { count := s.cu.count, object := (s.rx.assembly.map Assembly.object).getD s.pu.object } t
          ∧ t.dbm = s.dbm ∧ t.rx = s.rx)
      ∧ ((∀ reason : EndReason, s.rdr.activity ≠ .ended reason) → exec .expanderTakesSlot s = .next s))

/-- The next index entry of the EXPANDING slot. A FILEMARK at the logical position is consumed, the position moves after it and the read ends
FILEMARK; below the position it is passed over. A segment of a record is expanded into the history: raw, its stored bytes up to its host length;
compressed, what its tokens yield, a copy from beyond the bytes since reset as zeros, nothing past its host length and nothing of a token cut
short; zero bytes make up the host length, and each of these but the zeros made up is a fault. A WHOLE segment is the record, a START begins the
assembly, a MIDDLE or END joins it, or is passed where none stands; a record at the logical position, its check compared, waits to be sent, one
below it is skipped; the slot is released after its last entry (R12, R35, R36, R38 to R41, R102). That the zeros made up join the history is the
model's reading (log 45), and that an assembly which a FILEMARK, WHOLE or START meets goes without an event is its choice (log 50). -/
def Obligations.EntryExpanded : Prop :=
  ∀ (s : State) (q : Queued) (rest : List Queued) (n limit : Nat) (x : Slot) (xs : List Slot), s.cu.queue = q :: rest → q.begun = true →
    q.command = .rrec n limit → s.cu.progress = .reading → s.rx.sending = none → s.dbm.slots = x :: xs → x.state = .expanding →
    s.rx.entry < x.entries.getD 0 → s.dbm.drain < 512 →
    let base := 2097152 * s.dbm.drain
    let e := s.dbm.dram.entry base s.rx.entry
    let left := if x.entries.getD 0 ≤ s.rx.entry + 1 then xs else x :: xs
    (e.kind = .filemark →
      (s.rx.object = s.pu.object → ∃ t : State, exec .expandEntry s = .next t ∧ t.cu.queue = rest
        ∧ t.pu = { s.pu with object := s.pu.object + 1, anchor := none } ∧ t.rx.object = s.rx.object + 1 ∧ t.rx.entry = s.rx.entry + 1
        ∧ t.rx.offset = s.rx.offset + e.stored ∧ t.rx.assembly = none
        ∧ t.spu.out = s.spu.out ++ [.resp q.tag (ascii 'R' 'R' 'E' 'C') (.done .filemark { count := s.cu.count, object := s.pu.object + 1 } [])]
        ∧ t.dbm.slots = left ∧ t.dbm.dram = s.dbm.dram ∧ t.rdr = s.rdr ∧ t.eu = s.eu)
      ∧ (s.rx.object < s.pu.object → ∃ t : State, exec .expandEntry s = .next t ∧ t.cu = s.cu ∧ t.pu = s.pu ∧ t.spu = s.spu
        ∧ t.rx.object = s.rx.object + 1 ∧ t.rx.entry = s.rx.entry + 1 ∧ t.rx.offset = s.rx.offset + e.stored ∧ t.rx.assembly = none
        ∧ t.dbm.slots = left ∧ t.dbm.dram = s.dbm.dram ∧ t.rdr = s.rdr ∧ t.eu = s.eu))
    ∧ (e.kind ≠ .filemark → 1 ≤ limit → 1 ≤ e.host → e.host ≤ 1048576 →
      let stored := s.dbm.dram.readBytes (base + s.rx.offset) e.stored
      let history := if e.reset then [] else s.rx.history
      let since := if e.reset then 0 else s.rx.sinceReset
      history.length = min 2048 since → ∀ (data : List Byte) (bad : Bool),
      ((e.compressed = false ∧ data = stored.take e.host ++ List.replicate (e.host - e.stored) 0 ∧ bad = (e.stored != e.host))
        ∨ (e.compressed = true ∧ ∃ (ts : List Token) (cut : List Byte), stored = ts.flatMap Token.bytes ++ cut ∧ (∀ k ∈ ts, k.ok = true)
            ∧ (cut = [] ∨ ∃ k : Token, k.ok = true ∧ cut <+: k.bytes ∧ cut ≠ [] ∧ cut ≠ k.bytes)
            ∧ data = (outputOf history since ts).take e.host ++ List.replicate (e.host - (outputOf history since ts).length) 0
            ∧ bad = (copiesFar since ts || decide (e.host < (outputOf history since ts).length) || !cut.isEmpty))) →
      let moves (t : State) : Prop := exec .expandEntry s = .next t ∧ t.rx.entry = s.rx.entry + 1 ∧ t.rx.offset = s.rx.offset + e.stored
        ∧ t.rx.history = (history ++ data).drop ((history ++ data).length - 2048) ∧ t.rx.sinceReset = since + e.host
        ∧ t.cu = s.cu ∧ t.pu = s.pu ∧ t.spu = s.spu ∧ t.eu = s.eu ∧ t.rdr = s.rdr ∧ t.dbm.dram = s.dbm.dram
      let passes (object : Nat) (assembly : Option Assembly) : Prop := ∃ t : State, moves t ∧ t.dbm.slots = left ∧ t.rx.sending = none
        ∧ t.rx.object = object ∧ t.rx.assembly = assembly
      let waits (d : Sending) : Prop := ∃ t : State, moves t ∧ t.dbm = s.dbm ∧ t.rx.object = s.rx.object
        ∧ t.rx.sending = some { d with object := s.rx.object, limit := limit, begun := false }
      (e.kind = .whole →
        (s.pu.object ≤ s.rx.object → waits { object := 0, rest := data.take limit, actual := e.host, limit := 0, stored := e.stored,
                                             begun := false, fault := bad || crc32 data != e.check })
        ∧ (s.rx.object < s.pu.object → passes (s.rx.object + 1) none))
      ∧ (e.kind = .start → passes s.rx.object (some
          { object := s.rx.object, data := data, segments := 1, stored := e.stored, fault := bad, acc := crc32Take crc32Start data }))
      ∧ (s.rx.assembly = none → (e.kind = .middle → passes s.rx.object none) ∧ (e.kind = .end_ → passes (s.rx.object + 1) none))
      ∧ (∀ a : Assembly, s.rx.assembly = some a → a.data.length + e.host ≤ 1048576 → a.acc = crc32Take crc32Start a.data →
        (e.kind = .middle → passes s.rx.object (some { a with
            data := a.data ++ data, segments := a.segments + 1, stored := a.stored + e.stored, fault := a.fault || bad,
            acc := crc32Take crc32Start (a.data ++ data) }))
        ∧ (e.kind = .end_ →
          (s.pu.object ≤ s.rx.object → waits { object := 0, rest := (a.data ++ data).take limit, actual := a.data.length + e.host, limit := 0,
                                               stored := a.stored + e.stored, begun := false,
                                               fault := a.fault || bad || crc32 (a.data ++ data) != e.check })
          ∧ (s.rx.object < s.pu.object → passes (s.rx.object + 1) none))))

/-- A record being sent: without read credit it waits; with credit each packet of up to 4,096 bytes spends one; the last one, marked
final, moves the position and the count. It then completes the READ_RECORDS DATA_CHECK, DATA_CHECK latched, where the record has a fault;
LENGTH_MISMATCH where the record is longer than the limit; GOOD where the count is reached; the completion carries the delivered count, the
position, and the actual length of a record longer than the limit. Short of the count a record without either lets the command go on (R38, R40,
R41, R102, R181). -/
def Obligations.RecordPacketSent : Prop :=
  ∀ (s : State) (q : Queued) (rest : List Queued) (n limit : Nat) (d : Sending), s.cu.queue = q :: rest → q.begun = true →
    q.command = .rrec n limit → s.cu.progress = .reading → s.rx.sending = some d →
    (s.spu.readCredits = 0 → exec .rdatSend s = .next s)
    ∧ (1 ≤ s.spu.readCredits → 4096 < d.rest.length → exec .rdatSend s = .next { s with
        spu := { s.spu with readCredits := s.spu.readCredits - 1, out := s.spu.out ++ [.rdat false (d.rest.take 4096)] },
        rx := { s.rx with h := s.rx.h + 4096, s := if d.begun then s.rx.s else s.rx.s + d.stored,
                          sending := some { d with rest := d.rest.drop 4096, begun := true } } })
    ∧ (1 ≤ s.spu.readCredits → d.rest.length ≤ 4096 →
        let delivers (t : State) : Prop := exec .rdatSend s = .next t ∧ t.spu.readCredits = s.spu.readCredits - 1
          ∧ t.pu = { s.pu with object := s.pu.object + 1, anchor := none }
          ∧ t.rx = { s.rx with h := s.rx.h + d.rest.length, s := if d.begun then s.rx.s else s.rx.s + d.stored, sending := none,
                               assembly := none, object := s.rx.object + 1 }
          ∧ t.dbm.dram = s.dbm.dram ∧ t.rdr = s.rdr ∧ t.rtc = s.rtc ∧ t.hm = s.hm
        let ends (code : Code) (actual : Nat) (notes : List Packet) (t : State) : Prop := delivers t ∧ t.cu.queue = rest
          ∧ t.spu.out = s.spu.out ++ [.rdat true d.rest] ++ notes ++ [.resp q.tag (ascii 'R' 'R' 'E' 'C') (.done code
              { count := s.cu.count + 1, object := s.pu.object + 1, actualLength := actual } [])]
        (d.fault = true → ∃ (t : State) (notes : List Packet), ends .dataCheck (if d.limit < d.actual then d.actual else 0) notes t
          ∧ t.eu.latches[2].set = true ∧ (s.eu.latches[2].set = true → notes = []) ∧ (notes = [] ∨ notes = [.note 2 1]))
        ∧ (d.fault = false → d.limit < d.actual → ∃ t : State, ends .lengthMismatch d.actual [] t ∧ t.eu = s.eu)
        ∧ (d.fault = false → d.actual ≤ d.limit → n ≤ s.cu.count + 1 → ∃ t : State, ends .good 0 [] t ∧ t.eu = s.eu)
        ∧ (d.fault = false → d.actual ≤ d.limit → s.cu.count + 1 < n → ∃ t : State, delivers t ∧ t.eu = s.eu
            ∧ t.cu = { s.cu with count := s.cu.count + 1 } ∧ t.spu.out = s.spu.out ++ [.rdat true d.rest]))

/-! ### Positions -/

/-- The Position Unit. DEFINE_PARTITIONS of a count of 1 to 4 is refused for a size that is odd or below 4, other than a last size of 0, and for
sizes that with the guard wraps pass the generation's wraps, a last size of 0 taken as 4; every other is accepted, a last size of 0 standing for the
remainder. Accepted sizes give a partition table of R105 (R121). A partition's directory takes the dataset after built-through when R111 lets it,
its entry only where region and first object rise, so that entries stay in strictly rising order; a cut leaves the entries before D and what was
built before it (R110 to R112). The trailer scan for a LOCT: a copy that closes proven and holding the object ends it GOOD there, the anchor at the
dataset; one without row 239 leaves the scan going on; an end pattern after a last dataset whose index is proven makes the EOD known, and a LOCT at
or past it ends EOD there; a row that makes no set of the expected dataset adds nothing to the Reader's header-error count, the model's choice (log
49) (R108, R109, R113 to R115). The trailer scan for a SPAC, P the position, at a copy that closes with its index proven: RECORDS +n ends FILEMARK
above the first filemark of P to P + n - 1, else GOOD at P + n where the dataset reaches there, also where that copy first places P; RECORDS -n ends
FILEMARK above the last filemark of P - n to P - 1, else GOOD at P - n, or BOP at 0 where P is below n; FILEMARKS ends GOOD above the nth filemark
forward and at it backward, BOP at 0 where fewer than n lie below a P just placed; an EOD space that has placed P scans on. At an end pattern after
the one dataset proven: the EOD kind ends GOOD there; RECORDS +n beyond it, no filemark between, and FILEMARKS +n with fewer left end EOD there. Each
carries its residual count, position and anchor set as in R115 (R116); that the residual is a magnitude is the model's reading, and that it counts
none for a filemark crossed its choice (log 34), as is the anchor, dataset 0 at the partition's first data pitch, of a BOP whose scan met no copy of
the dataset that holds object 0 (log 69). -/
def Obligations.PositionUnit : Prop :=
  (∀ (wraps count : Nat) (sizes zs : List Nat), wraps % 2 = 0 → dparSizes wraps count sizes = some zs →
      zs.length = count ∧ 1 ≤ count ∧ count ≤ 4 ∧ (∀ z ∈ zs, 4 ≤ z ∧ z % 2 = 0) ∧ zs.sum + 2 * (count - 1) ≤ wraps
      ∧ (partitionsOf 0 zs).length = count
      ∧ (∀ (p : Nat) (z first last : Nat), zs[p]? = some z → (partitionsOf 0 zs)[p]? = some (first, last) →
          first = (zs.take p).sum + 2 * p ∧ last + 1 = first + z ∧ last < wraps))
  ∧ (∀ (wraps count : Nat) (sizes : List Nat), ((count = 0 ∨ 4 < count) → dparSizes wraps count sizes = none)
      ∧ (1 ≤ count → count ≤ 4 → count ≤ sizes.length →
        let front := sizes.take (count - 1)
        let last := sizes.getD (count - 1) 0
        let fits (z : Nat) : Prop := 4 ≤ z ∧ z % 2 = 0
        let used := front.sum + 2 * (count - 1)
        (((∃ z ∈ front, ¬ fits z) ∨ (last ≠ 0 ∧ ¬ fits last)) → dparSizes wraps count sizes = none)
        ∧ ((∀ z ∈ front, fits z) → fits last → dparSizes wraps count sizes = if used + last ≤ wraps then some (front ++ [last]) else none)
        ∧ ((∀ z ∈ front, fits z) → last = 0 →
            dparSizes wraps count sizes = if used + 4 ≤ wraps then some (front ++ [wraps - used]) else none)))
  ∧ (∀ (d : PartitionDirectory) (e : DirectoryEntry) (done : Bool),
      (e.dataset ≠ nextAfter d.through → d.take e done = d)
      ∧ (e.dataset = nextAfter d.through → (d.state = .building ∨ (d.state = .valid ∧ done = true) ∨ (d.state = .invalid ∧ e.dataset = 0)) →
          (d.take e done).through = some e.dataset
          ∧ (d.take e done).state = (if d.state = .invalid then .building else d.state)
          ∧ (∀ k : DirectoryEntry, d.entries.getLast? = some k → (d.take e done).entries
              = if k.region < e.region ∧ k.first < e.first then d.entries ++ [e] else d.entries)
          ∧ (d.entries = [] → (d.take e done).entries = [e]))
      ∧ (entriesRise d.entries = true → (∀ k ∈ d.entries, k.dataset < nextAfter d.through) → entriesRise (d.take e done).entries = true)
      ∧ (∀ n : Nat, (∀ k : DirectoryEntry, k ∈ (d.cut n).entries ↔ k ∈ d.entries ∧ k.dataset < n)
          ∧ (∀ b : Nat, d.through = some b → n ≤ b → (d.cut n).through = if n = 0 then none else some (n - 1))))
  ∧ (∀ (s : State) (q : Queued) (rest : List Queued) (p o : Nat) (l : Loc) (c : Scan), s.writeIdle = true → s.locked = true →
      s.pitchHere = some l → l.pitch + 1 < s.pitches → s.rdr.classifies = false → s.rdr.wanted = false → s.pu.scan = some c →
      c.reached = true → c.purpose = .locate o → s.cu.queue = q :: rest → q.begun = true → q.command = .loct p o →
      (∀ (k : Capture) (d : Descriptor), c.capture = some k → c.proven = [] →
        k.descriptor c.expected (c.firstStart.getD (k.start.getD k.opened)) c.before = some d → d.holds o = true → ∃ t : State,
        exec (.readPitch .separator) s = .next t ∧ t.pu.scan = none ∧ t.pu.object = o ∧ t.pu.partition = s.pu.partition
        ∧ t.pu.anchor = some (c.expected, c.firstStart.getD (k.start.getD k.opened)) ∧ t.cu.queue = rest
        ∧ t.spu.out = s.spu.out ++ [.resp q.tag (ascii 'L' 'O' 'C' 'T') (.done .good { object := o } [])]
        ∧ t.dbm = s.dbm ∧ t.hm = s.hm ∧ t.rdr = s.rdr)
      ∧ (∀ k : Capture, c.capture = some k → k.has 239 = false → ∃ (t : State) (c' : Scan), exec (.readPitch .separator) s = .next t
        ∧ t.pu.scan = some c' ∧ c'.capture = none ∧ c'.expected = c.expected ∧ c'.closedUnproven = true ∧ c'.proven = c.proven
        ∧ c'.lastSep = s.after l ∧ t.cu = s.cu ∧ t.spu = s.spu ∧ t.dbm = s.dbm ∧ t.rtc = s.rtc ∧ t.rdr = s.rdr)
      ∧ (∀ (n end_ : Nat) (d : Descriptor) (marks : List Nat), c.capture = none → c.closedUnproven = false → c.unseen = none →
        s.eodHere = none → s.pu.partition < s.pu.eod.length → c.highest = some n → c.proven.find? (fun x => x.dataset == n) = some d →
        d.endObject = some end_ → d.marks = some marks → end_ ≤ o → ∃ t : State, exec (.readPitch .endPattern) s = .next t
        ∧ t.pu.eod.getD s.pu.partition none = some { object := end_, last := some n, mark := l, onTape := true }
        ∧ t.pu.scan = none ∧ t.pu.object = end_ ∧ t.pu.anchor = some (n + 1, l) ∧ t.cu.queue = rest
        ∧ t.spu.out = s.spu.out ++ [.resp q.tag (ascii 'L' 'O' 'C' 'T') (.done .eod { object := end_ } [])]
        ∧ t.dbm = s.dbm ∧ t.hm = s.hm ∧ t.rdr = s.rdr)
      ∧ (∀ rows : Vector (Option RowRead) 16, goodRows rows l.wrap = [] → exec (.readPitch (.rowSet rows)) s = .next { s with
          pu := { s.pu with scan := some { c with blankRun := 0, blankStart := none } } }))
  ∧ (∀ (s : State) (q : Queued) (rest : List Queued) (kind : SpaceKind) (n : Int) (l : Loc) (c : Scan), s.writeIdle = true → s.locked = true →
      s.pitchHere = some l → l.pitch + 1 < s.pitches → s.rdr.classifies = false → s.rdr.wanted = false → s.pu.scan = some c →
      c.reached = true → s.cu.queue = q :: rest → q.begun = true → q.command = .spac kind n →
      let position := s.pu.object
      let size := n.natAbs
      let below (o : Nat) : Prop := ∀ r, s.eodHere = some r → o < r.object
      let ends (i : Instr) (code : Code) (o residual : Nat) (more : State → Prop) : Prop := ∃ t : State, exec i s = .next t
        ∧ t.pu.scan = none ∧ t.pu.object = o ∧ t.pu.partition = s.pu.partition ∧ t.cu.queue = rest
        ∧ t.spu.out = s.spu.out ++ [.resp q.tag (ascii 'S' 'P' 'A' 'C') (.done code { count := residual, object := o } [])]
        ∧ t.dbm = s.dbm ∧ t.hm = s.hm ∧ t.rdr = s.rdr ∧ more t
      (∀ (k : Capture) (d : Descriptor) (marks : List Nat) (e : Nat), c.capture = some k → c.proven = [] →
        k.descriptor c.expected (c.firstStart.getD (k.start.getD k.opened)) c.before = some d → d.marks = some marks → d.ending = some e →
        let within (lo hi : Nat) : List Nat := marks.filter (fun f => decide (lo ≤ f) && decide (f < hi))
        let arrives (code : Code) (o residual : Nat) : Prop := ends (.readPitch .separator) code o residual (fun t =>
          (d.holds o = true → below o → t.pu.anchor = some (d.dataset, d.start))
          ∧ (o = 0 → 0 < d.starting → c.fromStart = false → below o → t.pu.anchor = some (0, firstDataPitch (s.partitionWraps s.pu.partition).1)))
        let places : Prop := c.purpose = .place position ∧ d.holds position = true ∧ below position
        (kind = .records → 0 < n → d.starting ≤ position → (c.purpose = .spaceRecords position (position + size) ∨ places) →
          (∀ f : Nat, (within position (position + size)).head? = some f → arrives .filemark (f + 1) (size - (f - position)))
          ∧ (within position (position + size) = [] → position + size ≤ e → (∀ r, s.eodHere = some r → position + size ≤ r.object) →
              arrives .good (position + size) 0))
        ∧ (kind = .records → n < 0 → c.purpose = .spaceRecords (position - size) position → d.starting ≤ position - size → position ≤ e →
          (∀ f : Nat, (within (position - size) position).getLast? = some f → arrives .filemark (f + 1) (size - (position - (f + 1))))
          ∧ (within (position - size) position = [] → (position < size → arrives .bop 0 (size - position))
              ∧ (size ≤ position → arrives .good (position - size) 0)))
        ∧ (∀ m fm f : Nat, kind = .filemarks → c.purpose = .spaceFilemark m fm → d.filemarks < m → marks[m - 1 - d.filemarks]? = some f →
          (0 < n → d.starting ≤ position → arrives .good (f + 1) 0) ∧ (n < 0 → arrives .good f 0))
        ∧ (places →
          let fm := d.filemarks + (marks.filter (fun f => decide (f < position))).length
          (kind = .filemarks → n < 0 → fm < size → arrives .bop 0 (size - fm))
          ∧ (kind = .eod → s.eodHere = none → ∃ (t : State) (c' : Scan), exec (.readPitch .separator) s = .next t
              ∧ t.pu.scan = some c' ∧ c'.purpose = .spaceEnd ∧ c'.reached = true ∧ c'.proven = [d] ∧ c'.expected = c.expected + 1
              ∧ t.pu.object = position ∧ t.cu = s.cu ∧ t.spu = s.spu ∧ t.dbm = s.dbm ∧ t.rtc = s.rtc ∧ t.rdr = s.rdr)))
      ∧ (∀ (m end_ : Nat) (d : Descriptor) (marks : List Nat), c.capture = none → c.closedUnproven = false → c.unseen = none →
        s.eodHere = none → s.pu.partition < s.pu.eod.length → c.highest = some m → c.proven = [d] → d.dataset = m →
        d.endObject = some end_ → d.marks = some marks →
        let meets (code : Code) (residual : Nat) : Prop := ends (.readPitch .endPattern) code end_ residual (fun t =>
          t.pu.eod.getD s.pu.partition none = some { object := end_, last := some m, mark := l, onTape := true }
          ∧ t.pu.anchor = some (m + 1, l))
        let places : Prop := c.purpose = .place position ∧ (d.holds position = true ∨ end_ ≤ position)
        (kind = .eod → (c.purpose = .spaceEnd ∨ places) → meets .good 0)
        ∧ (kind = .records → 0 < n → d.starting ≤ position → (c.purpose = .spaceRecords position (position + size) ∨ places) →
            end_ < position + size → (∀ f ∈ marks, ¬ (position ≤ f ∧ f < position + size)) → meets .eod (size - (end_ - position)))
        ∧ (∀ k fm : Nat, kind = .filemarks → 0 < n → c.purpose = .spaceFilemark k fm → d.starting ≤ position → d.filemarks < k →
            marks.length ≤ k - 1 - d.filemarks → meets .eod (size - (d.filemarks + marks.length - fm)))))

/-! ### Writing -/

/-- The read-back of the row set in flight: each row placed is scored on its channel. A row fails where its header is bad, where it is
uncorrectable, or where it is corrected with k above the verify margin; one clean, or corrected with k at or below the margin, passes. The failing rows join the tail of the rewrite queue in increasing row number, with their write counts and channels. Before the last nominal set, and
with rows queued after it, the span goes on; with the last set verified and no row queued it goes to its separator; a failing row written three times,
or more rows queued than the rewrite sets left can carry, so that a fifth would be needed, closes the attempt for a restart (R48, R49, R51 to
R53). -/
def Obligations.VerifyScoresRows : Prop :=
  (∀ (margin : Nat) (o : RowOutcome), fails margin o = true ↔ o = .headerBad ∨ o = .uncorrectable ∨ ∃ k : Nat, o = .corrected k ∧ margin < k)
  ∧ (∀ (s : State) (f : InFlight) (os : Vector RowOutcome 16), s.wf.stage = .span → s.wf.inFlight = some f → s.cu.progress ≠ .filemarks →
    let bad (c : Fin 16) : Bool := f.rows[c].isSome && fails s.cu.policy.margin os[c]
    let failing : Nat := ((List.finRange 16).filter bad).length
    let room : Nat := 16 * (4 - s.wf.rewriteSets)
    let scored (t : State) : Prop := exec (.verifyResult os) s = .next t ∧ t.wf.inFlight = none
      ∧ (∀ c : Fin 16, t.wf.tallies[c] = if f.rows[c].isSome then
            { rows := s.wf.tallies[c].rows + 1, failed := s.wf.tallies[c].failed + if bad c then 1 else 0 } else s.wf.tallies[c])
      ∧ t.dbm = s.dbm ∧ t.cu = s.cu ∧ t.pu = s.pu ∧ t.hm = s.hm ∧ t.rtc = s.rtc ∧ t.spu = s.spu ∧ t.eu = s.eu ∧ t.tape = s.tape
    (failing = 0 → s.wf.queue.length ≤ room → ∃ t : State, scored t
      ∧ t.wf = { s.wf with inFlight := none, tallies := t.wf.tallies,
                           stage := if s.wf.nextSet < 16 ∨ s.wf.queue ≠ [] then .span else .closing .done none })
    ∧ ((∀ (c c' : Fin 16) (r : Nat), f.rows[c] = some r → r < 256 ∧ (f.rows[c'] = some r → c = c')) →
      (1 ≤ failing → (∀ (c : Fin 16) (r : Nat), bad c = true → f.rows[c] = some r → s.wf.count r < 3) → s.wf.queue.length + failing ≤ room →
        ∃ (t : State) (added : List Rewrite), scored t
        ∧ t.wf = { s.wf with inFlight := none, tallies := t.wf.tallies, queue := s.wf.queue ++ added }
        ∧ added.Pairwise (fun p q => p.row < q.row)
        ∧ (∀ p : Rewrite, p ∈ added ↔ ∃ c : Fin 16, bad c = true ∧ f.rows[c] = some p.row ∧ p.last = c.val ∧ p.count = s.wf.count p.row))
      ∧ (((∃ (c : Fin 16) (r : Nat), bad c = true ∧ f.rows[c] = some r ∧ 3 ≤ s.wf.count r) ∨ room < s.wf.queue.length + failing) →
        s.attemptNumber < 1 + s.cu.policy.restartLimit → ∃ t : State, scored t ∧ t.wf.stage = .closing .restart none
        ∧ t.wf.nextSet = s.wf.nextSet ∧ t.wf.writePoint = s.wf.writePoint ∧ t.wf.header = s.wf.header ∧ t.wf.restarts = s.wf.restarts)))

/-- An attempt that fails, of a dataset of the write path. A row that fails its third write, or more failing rows than the rewrite sets left can
carry, closes the attempt with a separator, laid at the next pitch announced; at the place announced after it the attempt number and the restarts go
up, the tallies are handed over, DATASET_RESTART is latched and the next attempt begins, at once where no speed is then scheduled, and with the
timebase ACQUIRING at the new speed where one is, be it the cap that the tallies handed over brought in (R49, R50, R52, R53, R73, R76); that the place
announced next is what shows the separator written is the model's reading (log 23). A loss before that cuts the separator off and repositions to lay
it again (R63, R152); that TIMEBASE_LOST is itself the third missing burst is the model's reading (log 3), and that the tape decelerates within the
losing step its choice (log 65). At the restart limit it is a hard write error: the write path is given up into the deferred write error
record, WRITE_ERROR latched, the EOD's place the append point, and a mark that is pending is attempted there (R10, R54, R55, R109). The volume
full: a dataset that has no room for a span on the partition's last wrap gives the write path up with cause VOLUME_OVERFLOW, VOLUME_FULL is latched
and the partition marked full, at once by the model's choice (log 62), and a pending mark is written where it fits (R10, R45, R57, R60). That the EOD object is then the first object not
written, after the hard error and the volume full alike, and whether its mark counts as on tape, is the model's choice (log 24). Where a mark is pending
and fewer than two pitches remain on the last wrap, none is written, and the place given as the mark's is the append point, after the hard error and
the volume full alike: the model's choice too, where R57 has the end of the wrap serve in the mark's place (log 68). -/
def Obligations.WriteAttemptFails : Prop :=
  (∀ (s : State) (f : InFlight) (os : Vector RowOutcome 16) (c : Fin 16) (r : Nat), s.wf.stage = .span → s.wf.inFlight = some f →
    s.wf.header = none → s.cu.progress ≠ .filemarks → f.rows[c] = some r → r < 256 → fails s.cu.policy.margin os[c] = true →
    (3 < s.wf.count r + 1 ∨ ((∀ c' : Fin 16, fails s.cu.policy.margin os[c'] = (c' == c))
      ∧ 16 * (4 - s.wf.rewriteSets) < s.wf.queue.length + 1)) →
    (s.attemptNumber < 1 + s.cu.policy.restartLimit → ∃ t : State, exec (.verifyResult os) s = .next t
      ∧ t.wf.stage = .closing .restart none ∧ t.wf.inFlight = none
      ∧ (∀ k : Fin 16, t.wf.tallies[k] = match f.rows[k] with
          | some _ => { rows := s.wf.tallies[k].rows + 1,
                        failed := s.wf.tallies[k].failed + if fails s.cu.policy.margin os[k] then 1 else 0 }
          | none => s.wf.tallies[k])
      ∧ t.dbm = s.dbm ∧ t.cu = s.cu ∧ t.pu = s.pu ∧ t.hm = s.hm ∧ t.rtc = s.rtc ∧ t.spu = s.spu ∧ t.eu = s.eu ∧ t.tape = s.tape)
    ∧ (1 + s.cu.policy.restartLimit ≤ s.attemptNumber → s.dbm.direction = .write → s.dbm.RingSound → s.cu.Sound → s.executing = none →
      s.cu.progress.waitsForWriting = false → ∃ t : State, exec (.verifyResult os) s = .next t
      ∧ t.dbm.slots = [] ∧ t.dbm.direction = .neutral ∧ t.cu.deferred = some (s.deferredBy .writeError) ∧ t.cu.queue = s.cu.queue
      ∧ t.eu.latches[0].set = true ∧ t.wf.inFlight = none ∧ t.wf.planned = false
      ∧ (∀ k : Fin 16, t.wf.tallies[k] = { rows := 0, failed := 0 })
      ∧ (s.wf.eodPending = false → t.wf.stage = .idle
        ∧ (∀ e : EodKnown, s.pu.eod.getD s.pu.partition none = some e → t.pu.eod.getD s.pu.partition none
            = some { e with object := (s.deferredBy .writeError).first, mark := s.appendLoc }))
      ∧ (∀ a : Loc, s.wf.eodPending = true → s.wf.appendPoint = some a →
        (∀ e : EodKnown, s.pu.eod.getD s.pu.partition none = some e → t.pu.eod.getD s.pu.partition none
            = some { e with object := (s.deferredBy .writeError).first, mark := a, onTape := false })
        ∧ (a.pitch + 2 ≤ s.pitches → t.wf.stage = .runUp a (.mark .hardError) false ∧ t.wf.eodPending = true
            ∧ t.wf.writePoint = some (s.pu.partition, a))
        ∧ (s.pitches < a.pitch + 2 → s.lastWrap ≤ a.wrap → t.wf.stage = .idle ∧ t.wf.eodPending = false))
      ∧ t.pu.object = s.pu.object ∧ t.tape = s.tape))
  ∧ (∀ (s : State) (b : Burst) (w word p part : Nat) (lateral : Int) (at_ : Loc) (x : Slot) (xs : List Slot), s.readIdle = true →
    s.judged = true → s.sv.timebase = .locked → s.rtc.headWrap = some w → s.rtc.motion = .streaming →
    mergeReadings b.ch0 b.ch1 = some (word, lateral) → s.sv.accepts b.time true = true →
    word = wordOf s.pitches ⟨w, p⟩ → p + 21 ≤ s.pitches → s.cu.progress ≠ .filemarks → s.wf.writePoint = some (part, at_) → s.wf.header = none →
    s.dbm.slots = x :: xs →
    (s.wf.stage = .closing .restart none → ∃ t : State, exec (.servoBurst b) s = .next t
      ∧ t.tape = s.tape ++ [.separator ⟨w, p⟩] ∧ t.wf = { s.wf with stage := .closing .restart (some ⟨w, p⟩), writePoint := some (part, ⟨w, p + 1⟩) }
      ∧ t.dbm = s.dbm ∧ t.cu = s.cu ∧ t.pu = s.pu ∧ t.hm = s.hm)
    ∧ (∀ q : Nat, s.wf.stage = .closing .restart (some ⟨w, q⟩) → q + 22 ≤ s.pitches → ∃ t : State,
      exec (.servoBurst b) s = .next t ∧ t.dbm.slots = { x with attempt := x.attempt.map (· + 1) } :: xs
      ∧ t.wf.restarts = min 65535 (s.wf.restarts + 1) ∧ t.wf.stage = .span ∧ t.wf.rewriteSets = 0
      ∧ t.wf.appendPoint = s.wf.appendPoint ∧ t.eu.latches[7].set = true ∧ t.sm.scheduled = none
      ∧ t.hm = (s.takeTally s.wf.tallies).hm ∧ (∀ k : Fin 16, t.wf.tallies[k] = { rows := 0, failed := 0 }) ∧ t.cu = s.cu
      ∧ ((s.takeTally s.wf.tallies).sm.scheduled = none → lateral.natAbs ≤ s.cu.policy.offTrack → t.sv.timebase = .locked ∧ t.wf.nextSet = 1 ∧ t.wf.queue = []
        ∧ t.wf.writePoint = some (s.pu.partition, ⟨w, p + 1⟩) ∧ t.wf.spanStart = some ⟨w, p⟩
        ∧ ∃ rows : List RowWritten, t.tape = s.tape ++ [.rowSet ⟨w, p⟩ rows])
      ∧ (∀ i : Nat, (s.takeTally s.wf.tallies).sm.scheduled = some i → t.sv.timebase = .acquiring ∧ t.sm.index = i ∧ t.wf.nextSet = 0 ∧ t.wf.queue = [] ∧ t.tape = s.tape
        ∧ t.wf.writePoint = some (s.pu.partition, ⟨w, q + 1⟩) ∧ t.eu.latches[5].set = true)))
  ∧ (∀ (s : State) (w q : Nat) (at_ : Instant), s.readIdle = true → s.judged = true → s.sv.timebase = .locked → s.sv.lastBurst = some at_ →
    2 ≤ s.sv.missCount → s.rtc.headWrap = some w → s.sv.lastPlace = some (.pitch q) → s.wf.header = none → s.cu.progress ≠ .filemarks →
    s.rtc.takesGoals = true → s.rtc.motion = .streaming → s.wf.stage = .closing .restart (some ⟨w, q⟩) → ∃ t : State,
      exec .timebaseLost s = .next t ∧ t.tape = s.tape ++ [.cutOff ⟨w, q⟩] ∧ t.wf.stage = .runUp ⟨w, q⟩ (.separator .restart) true
      ∧ t.rtc.motion = .decelerating ∧ t.rtc.goal = .runUp ⟨w, q⟩ false ∧ t.eu.latches[3].set = true ∧ t.wf.restarts = s.wf.restarts
      ∧ t.wf.tallies = s.wf.tallies ∧ t.dbm = s.dbm ∧ t.cu = s.cu ∧ t.hm = s.hm)
  ∧ (∀ (s : State) (x y : Slot) (ys : List Slot) (l : Loc), s.wf.stage = .closing .done (some l) → s.wf.header = none →
    s.dbm.slots = x :: y :: ys → y.state = .sealed → s.dbm.direction = .write → (∀ z ∈ ys, z.state = .sealed) → x.partition = s.pu.partition →
    s.pu.partition < s.pu.eod.length → s.executing = none → s.cu.Sound → s.cu.deferred = none →
    s.cu.progress.waitsForWriting = false → s.cu.progress ≠ .filemarks → s.remaining (s.after l) < 21 → s.lastWrap ≤ (s.after l).wrap → ∃ t : State, exec .datasetDone s = .next t
      ∧ t.dbm.slots = [] ∧ t.dbm.direction = .neutral ∧ t.eu.latches[9].set = true ∧ t.wf.volumeFull = some s.pu.partition
      ∧ (s.wf.eodPending = true → 2 ≤ s.remaining (s.after l) → t.wf.stage = .runUp (s.after l) (.mark .volumeFull) false ∧ t.wf.eodPending = true)
      ∧ ((s.wf.eodPending = false ∨ s.remaining (s.after l) < 2) → t.wf.stage = .idle ∧ t.wf.eodPending = false)
      ∧ (let first := y.first.getD s.pu.object
         t.cu.deferred = some { cause := .volumeOverflow, partition := s.pu.partition, first := first,
                                objects := ((y :: ys).map Slot.objects).sum }
         ∧ t.pu.eod.getD s.pu.partition none = some { object := first, last := some x.dataset, mark := s.after l, onTape := false }))

/-- The separator of the oldest dataset of the write path is written: the EOD record takes its objects, number and the pitch after the
separator, the slot is FREE and the drain pointer advances, the tallies are handed to the Head Monitor and set to zero. With no slot to follow
the tape backhitches; a SEALED slot that follows, with room for a span on the head's wrap, is WRITING at once, its attempt planned at that
pitch (R9, R46, R51, R53, R61, R109). The separator of an unsealed header: the header is OPEN, a BLANK volume FORMATTED, and with a SEALED slot
waiting it is WRITING while the tape, wherever the append point lies, is stopped and taken by a shuttle to the run-up point before it; its tallies
are handed over too, and the Speed Matcher changes by them alone, a head that becomes REQUIRED scheduling the cap (R53, R58, R62, R73, R135). -/
def Obligations.DatasetDone : Prop :=
  (∀ (s : State) (x : Slot) (rest : List Slot) (l : Loc), s.wf.stage = .closing .done (some l) → s.wf.header = none →
    s.dbm.slots = x :: rest → x.partition < s.pu.eod.length → s.cu.progress.waitsForWriting = false → s.cu.progress ≠ .filemarks →
    let eod : EodKnown := { object := x.first.getD 0 + x.objects, last := some x.dataset, mark := s.after l, onTape := false }
    (rest = [] → ∃ t : State, exec .datasetDone s = .next t
      ∧ t.pu.eod.getD x.partition none = some eod
      ∧ t.dbm.slots = [] ∧ t.dbm.drain = (s.dbm.drain + 1) % 512 ∧ t.dbm.dram = s.dbm.dram ∧ t.dbm.direction = s.dbm.direction
      ∧ t.wf.stage = .backhitching true ∧ t.wf.appendPoint = some (s.after l) ∧ t.wf.misses = 0
      ∧ t.hm = (s.takeTally s.wf.tallies).hm
      ∧ (∀ c : Fin 16, t.wf.tallies[c] = { rows := 0, failed := 0 }) ∧ t.tape = s.tape ∧ t.cu = s.cu)
    ∧ (∀ (y : Slot) (ys : List Slot), rest = y :: ys → y.state = .sealed → 21 ≤ s.remaining (s.after l) →
        s.rtc.headWrap = some (s.after l).wrap → ∃ t : State, exec .datasetDone s = .next t
      ∧ t.pu.eod.getD x.partition none = some eod
      ∧ t.dbm.slots = { y with state := .writing } :: ys ∧ t.dbm.drain = (s.dbm.drain + 1) % 512 ∧ t.dbm.direction = s.dbm.direction
      ∧ t.wf.stage = .span ∧ t.wf.appendPoint = some (s.after l) ∧ t.wf.writePoint = some (s.pu.partition, s.after l)
      ∧ t.wf.planned = true ∧ t.wf.nextSet = 0 ∧ t.wf.rewriteSets = 0 ∧ t.wf.queue = [] ∧ t.wf.inFlight = none ∧ t.wf.misses = 0
      ∧ t.hm = (s.takeTally s.wf.tallies).hm
      ∧ (∀ c : Fin 16, t.wf.tallies[c] = { rows := 0, failed := 0 }) ∧ t.tape = s.tape ∧ t.cu = s.cu))
  ∧ (∀ (s : State) (x : Slot) (rest : List Slot) (l a : Loc) (k : Nat), s.wf.stage = .closing .done (some l) →
    s.wf.header = some { purpose := .unseal, attempt := k } → s.dbm.slots = x :: rest → x.state = .sealed → s.dbm.direction = .write →
    s.cu.progress.waitsForWriting = false → s.cu.progress ≠ .filemarks → s.rtc.takesGoals = true → s.rtc.motion = .streaming →
    s.wf.appendPoint = some a → a.pitch + 21 ≤ s.pitches → ∃ t : State, exec .datasetDone s = .next t
      ∧ t.pu = { s.pu with header := some .opened, volume := if s.pu.volume = .blank then .formatted else s.pu.volume }
      ∧ t.wf.header = none ∧ t.wf.stage = .runUp a .span false ∧ t.wf.appendPoint = some a ∧ t.wf.writePoint = some (s.pu.partition, a)
      ∧ t.dbm.slots = { x with state := .writing } :: rest ∧ t.rtc.motion = .decelerating ∧ t.rtc.goal = .trip a ∧ t.sm = (s.takeTally s.wf.tallies).sm
      ∧ t.hm = (s.takeTally s.wf.tallies).hm ∧ (∀ c : Fin 16, t.wf.tallies[c] = { rows := 0, failed := 0 }) ∧ t.tape = s.tape ∧ t.cu = s.cu)

/-- The EOD mark of a flush is written: EOD-mark pending is cleared, the append point and the EOD record's mark are the mark's first pitch, now
on tape. With no command waiting the tape backhitches without counting, the model's choice (log 61). A SYNC, or WRITE_FILEMARKS with count 0, that waited completes GOOD,
the direction stays WRITE and the tape backhitches; a RWND that waited finds the direction NEUTRAL and begins its own work (R14, R15, R57,
R109, R115). -/
def Obligations.EodMarkWritten : Prop :=
  ∀ (s : State) (start : Loc), s.wf.stage = .marking .flush start 2 → s.dbm.direction = .write →
    let marked (t : State) : Prop := t.wf.eodPending = false ∧ t.wf.appendPoint = some start
      ∧ t.pu.eod.getD s.pu.partition none = (s.pu.eod.getD s.pu.partition none).map (fun e => { e with mark := start, onTape := true })
      ∧ t.wf.backhitches = s.wf.backhitches ∧ t.tape = s.tape ∧ t.eu = s.eu
    (s.cu.progress.waitsForWriting = false → s.cu.progress ≠ .filemarks → ∃ t : State, exec .eodMarkWritten s = .next t
      ∧ marked t ∧ t.wf.stage = .backhitching false ∧ t.dbm = s.dbm ∧ t.cu = s.cu ∧ t.spu = s.spu)
    ∧ (∀ (q : Queued) (rest : List Queued), s.cu.queue = q :: rest → q.begun = true → s.dbm.slots = [] → s.wf.header = none →
      (s.cu.progress = .flushInPlace → (q.command = .sync ∨ q.command = .wfmk 0) → ∃ (t : State) (flags : Nat),
        exec .eodMarkWritten s = .next t ∧ marked t ∧ t.wf.stage = .backhitching false ∧ t.dbm = s.dbm ∧ t.cu.queue = rest
        ∧ t.spu.out = s.spu.out ++ [.resp q.tag q.command.name (.done .good { flags := flags } [])])
      ∧ (s.cu.progress = .flushing → q.command = .rwnd → ∃ t : State, exec .eodMarkWritten s = .next t ∧ marked t
        ∧ t.wf.stage = .idle ∧ t.dbm = { s.dbm with direction := .neutral } ∧ t.cu.queue = s.cu.queue ∧ t.cu.progress = .shuttle .good
        ∧ t.pu.partition = 0 ∧ t.pu.object = 0 ∧ t.pu.anchor = some (0, ⟨0, 64⟩) ∧ t.spu = s.spu))

/-- The FILLING slot's life. OPENED when the next staging place needs it: the number one above the newest slot's, or above the last dataset of the
EOD record on an empty write path, the current partition and position, no entry, attempt 1, the history empty with a reset owed (R5, R23).
FILLED as staging places are taken: a packet that leaves fewer than 18 bytes ahead and is not final joins the lookahead, the record check, h and
the record's length, the place is emptied and the seal timer restarted, and nothing is encoded (R7, R17, R22); the one packet of a whole record
closes it with a WHOLE entry below the others: its tokens, at each position the longest copy there is, the nearest of its length, else a literal in
a run of at most 128, stand at the payload's end where they are fewer than its bytes, and its bytes do otherwise, or where the partition stores raw;
the entry carries the reset owed, both lengths and the record's check, the history, h and s take it in, the position and the count go up, and the
nth record completes the command GOOD, places beyond it emptied with PROTOCOL_ERROR (R21 to R32, R104). SEALED by its timer or at 4,096 entries,
with no segment in progress and the Write Formatter busy: its trailer written, the payload padded with zero bytes, the timer stopped, every other
byte of the DRAM as before; a slot with no entry returns to FREE, and where that brings the FREE count from 2 to 3 the Stream Port grants again
(R6, R7, R17; that the grant falls in the same step is the model's reading, log 20). -/
def Obligations.FillingSlotOpenedFilledSealed : Prop :=
  (∀ (s : State) (i : Instr) (x : Slot) (older : List Slot), s.dbm.slots = older ++ [x] → x.state = .filling → s.wf.stage = .span →
    s.cu.progress ≠ .filemarks → s.rc.segment = none → s.dbm.dram.wf = true →
    ((i = .sealTimerExpiry ∧ s.dbm.sealTimer.isSome = true) ∨ (i = .entryLimitSeal ∧ 4096 ≤ x.entries.getD 0)) →
    let base := 2097152 * ((s.dbm.drain + older.length) % 512)
    let payload := x.payload.getD 0
    let index := 1966016 - 16 * x.entries.getD 0
    let granted := if older.length = 509 ∧ s.writingRecords = true ∧ s.cu.progress = .writing ∧ s.dbm.direction = .write ∧ s.cu.deferred = none
      then 256 - (s.dbm.staging.length + s.spu.credits) else 0
    (x.entries.getD 0 = 0 → exec i s = .next { s with
      dbm := { s.dbm with slots := older, sealTimer := none },
      spu := { s.spu with credits := s.spu.credits + granted, out := s.spu.out ++ if granted = 0 then [] else [.wcrd granted] } })
    ∧ (1 ≤ x.entries.getD 0 → x.entries.getD 0 ≤ 4096 → payload ≤ index → ∃ (t : State) (continues : Bool), exec i s = .next t
      ∧ t = { s with dbm := { s.dbm with slots := older ++ [{ x with state := .sealed }], sealTimer := none, dram := t.dbm.dram } }
      ∧ (∀ a : Nat, base + payload ≤ a → a < base + index → t.dbm.dram.read a = 0)
      ∧ (∀ k : Nat, k < 64 → t.dbm.dram.read (base + 1966016 + k) = (x.trailer continues).bytes.getD k 0)
      ∧ (continues = (s.dbm.dram.entry base 0).kind.continues)
      ∧ (∀ a : Nat, (a < base + payload ∨ (base + index ≤ a ∧ a < base + 1966016) ∨ base + 1966080 ≤ a) →
          t.dbm.dram.read a = s.dbm.dram.read a)))
  ∧ (∀ (s : State) (q : Queued) (rest : List Queued) (n : Nat) (p : Place) (ps : List Place), s.cu.queue = q :: rest → q.begun = true →
    q.command = .wrec n → s.cu.progress = .writing → s.dbm.direction = .write → s.cu.finals < n → s.dbm.staging = p :: ps →
    p.data.length ≤ 1048576 →
    (∀ fm : Nat, s.rc.record = none → s.rc.segment = none → s.rc.run = [] → s.rc.lookahead = [] → s.dbm.slots.length < 512 →
      let opens (dataset : Nat) : Prop := ∃ t : State, exec .openFillingSlot s = .next t
        ∧ t.dbm = { s.dbm with
            slots := s.dbm.slots ++ [({ state := .filling, dataset := dataset, partition := s.pu.partition, first := some s.pu.object,
                                        filemarksBefore := some fm, entries := some 0, payload := some 0, attempt := some 1, passes := none,
                                        outcome := none, objects := 0, filemarks := 0 } : Slot)] }
        ∧ t.rc = { s.rc with history := [], sinceReset := 0, resetOwed := true }
        ∧ t.cu = s.cu ∧ t.pu = s.pu ∧ t.wf = s.wf ∧ t.spu = s.spu ∧ t.eu = s.eu
      (∀ e : EodKnown, s.dbm.slots = [] → s.pu.eod.getD s.pu.partition none = some e → s.pu.eodFilemarks.getD s.pu.partition none = some fm →
        (∀ d, e.last = some d → d < 4294967295) → opens (match e.last with | some d => d + 1 | none => 0))
      ∧ (∀ x : Slot, s.dbm.slots.getLast? = some x → x.state ≠ .filling → x.dataset < 4294967295 → fm = x.filemarksBefore.getD 0 + x.filemarks →
        s.wf.stage ≠ .idle → s.wf.stage ≠ .backhitched → opens (x.dataset + 1)))
    ∧ (∀ (x : Slot) (older : List Slot), s.dbm.slots = older ++ [x] → x.state = .filling → (older = [] ∨ s.wf.stage = .span) →
      (∀ r : RecordIn, s.rc.record = some r → r.final = false → s.rc.segment = none → s.rc.run = [] →
        s.rc.lookahead.length + p.data.length < 18 → r.taken + p.data.length ≤ 1048576 → p.final = false →
        ∃ t : State, exec .stagingPlaceTaken s = .next t
          ∧ t.rc = { s.rc with lookahead := s.rc.lookahead ++ p.data, h := s.rc.h + p.data.length,
                               record := some { r with taken := r.taken + p.data.length, acc := crc32Take r.acc p.data } }
          ∧ t.dbm = { s.dbm with staging := ps, sealTimer := some { elapsed := 0, period := s.sm.table.sealTimeout } }
          ∧ t.cu = s.cu ∧ t.pu = s.pu ∧ t.wf = s.wf ∧ t.eu = s.eu)
      ∧ (s.rc.record = none → s.rc.segment = none → s.rc.run = [] → s.rc.lookahead = [] → s.rc.history.length = min 2048 s.rc.sinceReset →
        p.final = true → 1 ≤ p.data.length → x.entries.getD 0 < 4095 → s.dbm.dram.wf = true →
        let base := 2097152 * ((s.dbm.drain + older.length) % 512)
        let entries := x.entries.getD 0
        let payload := x.payload.getD 0
        let most := p.data.length + p.data.length / 128 + 1
        payload + most + 16 * (entries + 1) ≤ 1966016 → ∃ (t : State) (body : List Byte) (packed : Bool),
          exec .stagingPlaceTaken s = .next t
          ∧ (s.compressOn = false → body = p.data ∧ packed = false)
          ∧ (s.compressOn = true → ∃ ts : List Token, GreedyTokens s.rc.history s.rc.sinceReset p.data ts
              ∧ if (ts.flatMap Token.bytes).length < p.data.length then body = ts.flatMap Token.bytes ∧ packed = true
                else body = p.data ∧ packed = false)
          ∧ t.dbm.slots = older ++ [{ x with entries := some (entries + 1), payload := some (payload + body.length), objects := x.objects + 1 }]
          ∧ t.dbm.sealTimer = some { elapsed := 0, period := s.sm.table.sealTimeout }
          ∧ t.dbm.dram.readBytes (base + payload) body.length = body
          ∧ t.dbm.dram.entry base entries = { kind := .whole, reset := s.rc.resetOwed, compressed := packed, host := p.data.length,
                                              stored := body.length, check := crc32 p.data }
          ∧ (∀ a : Nat, (a < base + payload ∨ (base + payload + most ≤ a ∧ a < base + 1966016 - 16 * (entries + 1))
                ∨ base + 1966016 - 16 * entries ≤ a) → t.dbm.dram.read a = s.dbm.dram.read a)
          ∧ t.rc = { s.rc with history := (s.rc.history ++ p.data).drop ((s.rc.history ++ p.data).length - 2048),
                               sinceReset := s.rc.sinceReset + p.data.length, resetOwed := false,
                               h := s.rc.h + p.data.length, s := s.rc.s + body.length }
          ∧ t.pu = { s.pu with object := s.pu.object + 1, anchor := none } ∧ t.wf = s.wf
          ∧ (s.cu.count + 1 < n → t.cu = { s.cu with count := s.cu.count + 1, finals := s.cu.finals + 1 } ∧ t.dbm.staging = ps ∧ t.eu = s.eu)
          ∧ (n ≤ s.cu.count + 1 → t.cu.queue = rest ∧ t.dbm.staging = [] ∧ t.spu.credits = 0
            ∧ ∃ notes : List Packet, t.spu.out = s.spu.out ++ notes ++ [.resp q.tag (ascii 'W' 'R' 'E' 'C') (.done .good
                { count := s.cu.count + 1, flags := if s.wf.earlyWarned.contains s.pu.partition then 1 else 0 } [])]
              ∧ (ps = [] → notes = [] ∧ t.eu = s.eu) ∧ (ps ≠ [] → t.eu.latches[25].set = true)))))

/-! ### Windows and head health -/

/-- The expiry of the window, its ten stages in order. The host rate: the sample of the host bytes, at most 1,200,000 kB/s, and the smoothed rate,
with what R69 says of how it moves (R69). The ratio: its sample, held where nothing was stored, within 256 to 2,048, and the smoothed ratio (R70).
The candidate: the slowest entry that carries the required stored rate, or the top one (R71), moved by one index where the fill lies at a mark (R72),
and capped while the head state is REQUIRED (R73). The confirm: a candidate in effect already withdraws the schedule; another counts, and at the
table's number of windows is scheduled (R74). The class, with COMPRESSIBILITY_CHANGED where it changes (R43), and the fill zone, with
BUFFER_NEAR_FULL or BUFFER_NEAR_EMPTY where it comes to HIGH or LOW (R75). The counts are those of the direction's block; they are set to 0 and the
next window begins (R42, R68). That the candidate reported for the window is the one left after the fill correction and the cap is the model's
reading (log 42). -/
def Obligations.WindowStages : Prop :=
  (∀ s : State, s.sm.window.isSome = true →
    let h := s.windowCounts.1
    let stored := s.windowCounts.2
    let table := s.sm.table
    let top := table.entries.length - 1
    let rate := (3 * s.sm.rate + min (h / 200) 1200000) / 4
    let sample := if stored = 0 then s.sm.ratio else max 256 (min 2048 (256 * h / stored))
    let ratio := (3 * s.sm.ratio + sample) / 4
    let required := (rate * 256 + (ratio - 1)) / ratio
    let fill := match s.dbm.direction with
      | .write => (s.dbm.slots.filter (fun x => x.state == .sealed)).length
      | .read => (s.dbm.slots.filter (fun x => x.state == .ready)).length
      | .neutral => 0
    let carries (i : Nat) : Prop := ∃ e : Nat × Nat, table.entries[i]? = some e ∧ required ≤ 1000 * e.2
    let corrected (c : Nat) : Nat := match s.dbm.direction with
      | .write => if table.high ≤ fill then min (c + 1) top else if fill ≤ table.low then c - 1 else c
      | .read => if table.high ≤ fill then c - 1 else if fill ≤ table.low then min (c + 1) top else c
      | .neutral => c
    let capped (c : Nat) : Nat := if s.hm.head = .required then min (corrected c) (min s.hm.policy.cap top) else corrected c
    let class_ : Compressibility := if ratio ≤ 287 then .incompressible else if ratio ≤ 639 then .moderate else .high
    let zone : Zone := if table.high ≤ fill then .high else if fill ≤ table.low then .low else .mid
    ∃ (t : State) (slowest : Nat), exec .windowExpiry s = .next t
    ∧ ((carries slowest ∧ ∀ i, i < slowest → ¬ carries i) ∨ (slowest = top ∧ ∀ i, ¬ carries i))
    ∧ (let c := capped slowest
       t.sm.last = { r := min (h / 200) 1200000, q := sample, nreq := required, candidate := some c, fill := fill }
       ∧ t.sm.rate = rate ∧ t.sm.ratio = ratio ∧ t.sm.table = table ∧ t.sm.index = s.sm.index
       ∧ (c = s.sm.index → t.sm.pending = none ∧ t.sm.confirmCount = 0 ∧ t.sm.scheduled = none)
       ∧ (c ≠ s.sm.index →
          let count := if s.sm.pending = some c then s.sm.confirmCount + 1 else 1
          (table.confirm ≤ count → t.sm.pending = none ∧ t.sm.confirmCount = 0 ∧ t.sm.scheduled = some c)
          ∧ (count < table.confirm → t.sm.pending = some c ∧ t.sm.confirmCount = count ∧ t.sm.scheduled = s.sm.scheduled)))
    ∧ t.sm.compressibility = class_ ∧ (class_ ≠ s.sm.compressibility → t.eu.latches[12].set = true)
    ∧ t.sm.zone = zone ∧ (zone = .high → s.sm.zone ≠ .high → t.eu.latches[10].set = true)
    ∧ (zone = .low → s.sm.zone ≠ .low → t.eu.latches[11].set = true)
    ∧ (class_ = s.sm.compressibility → (zone = s.sm.zone ∨ zone = .mid) → t.eu = s.eu ∧ t.spu = s.spu)
    ∧ t.sm.window = some 0 ∧ t.rc.h = 0 ∧ t.rc.s = 0 ∧ t.rx.h = 0 ∧ t.rx.s = 0
    ∧ t.dbm = s.dbm ∧ t.cu = s.cu ∧ t.pu = s.pu ∧ t.rtc = s.rtc ∧ t.hm = s.hm ∧ t.wf = s.wf ∧ t.rdr = s.rdr)
  ∧ (∀ s : State, s.dbm.direction = .write → s.windowCounts = (s.rc.h, s.rc.s))
  ∧ (∀ s : State, s.dbm.direction = .read → s.windowCounts = (s.rx.h, s.rx.s))
  ∧ (let f (rate r : Nat) : Nat := (3 * rate + r) / 4
     (∀ rate r : Nat, rate ≤ 1200000 → r ≤ 1200000 → f rate r ≤ 1200000)
     ∧ (∀ rate : Nat, f rate 0 = rate - (rate + 3) / 4)
     ∧ (∀ rate : Nat, ∃ k : Nat, Nat.repeat (fun x => f x 0) k rate = 0)
     ∧ (∀ r : Nat, 3 ≤ r → f (r - 3) r = r - 3 ∧ ∀ rate : Nat, rate < r - 3 → rate < f rate r ∧ f rate r ≤ r - 3)
     ∧ (∀ rate r : Nat, r < rate → f rate r < rate ∧ r ≤ f rate r))

/-- The pending candidate that has stood for the table's number of windows is scheduled; before that nothing happens, and so nothing where the
pending candidate is the index in effect by then, which the window withdraws (WindowStages). The event as a command of its own, and what calls for
it, is the model's reading (R74, logs 2 and 3). -/
def Obligations.CandidateConfirmed : Prop :=
  ∀ (s : State) (c : Nat), s.sm.pending = some c → s.sm.window.isSome = true →
    (c ≠ s.sm.index → s.sm.table.confirm ≤ s.sm.confirmCount + 1 → exec .confirmReached s = .next { s with
      sm := { s.sm with scheduled := some c, pending := none, confirmCount := 0 } })
    ∧ (c = s.sm.index → exec .confirmReached s = .next s)
    ∧ (s.sm.confirmCount + 1 < s.sm.table.confirm → exec .confirmReached s = .next s)

/-- The 256th row closes a channel's window: n and f start again and f is kept; a GOOD channel that reaches trip_up short of dead is MARGINAL
with CHANNEL_MARGINAL, a MARGINAL one at or below trip_down is GOOD, a second window in a row at or above dead makes it DEAD with CHANNEL_DEAD;
the other channels stand and the head state is recomputed (R158 to R161). The event as a command of its own is the model's reading (log 3). -/
def Obligations.ChannelWindowCloses : Prop :=
  ∀ (s : State) (ch : Fin 16) (failed : Bool), s.hm.channels[ch].n = 255 →
    let f := if failed then s.hm.channels[ch].f + 1 else s.hm.channels[ch].f
    ∃ t : State, exec (.channelWindowClose ch failed) s = .next t
      ∧ t.hm.channels[ch].n = 0 ∧ t.hm.channels[ch].f = 0 ∧ t.hm.channels[ch].lastF = some f ∧ t.hm.head = t.hm.judged
      ∧ (∀ c : Fin 16, c ≠ ch → t.hm.channels[c] = s.hm.channels[c])
      ∧ (s.hm.channels[ch].state = .good → f < s.hm.policy.dead → s.hm.policy.tripUp ≤ f →
          t.hm.channels[ch].state = .marginal ∧ t.eu.latches[13].set = true)
      ∧ (s.hm.channels[ch].state = .good → f < s.hm.policy.dead → f < s.hm.policy.tripUp → t.hm.channels[ch].state = .good)
      ∧ (s.hm.channels[ch].state = .marginal → f < s.hm.policy.dead → f ≤ s.hm.policy.tripDown → t.hm.channels[ch].state = .good)
      ∧ (s.hm.channels[ch].state = .marginal → f < s.hm.policy.dead → s.hm.policy.tripDown < f → t.hm.channels[ch].state = .marginal)
      ∧ (s.hm.channels[ch].state ≠ .dead → s.hm.policy.dead ≤ f → 1 ≤ s.hm.channels[ch].deadRun →
          t.hm.channels[ch].state = .dead ∧ t.eu.latches[14].set = true)
      ∧ (s.hm.channels[ch].state = .dead → t.hm.channels[ch].state = .dead)
      ∧ t.hm.policy = s.hm.policy ∧ t.hm.metres = s.hm.metres ∧ t.dbm = s.dbm ∧ t.cu = s.cu ∧ t.pu = s.pu ∧ t.rtc = s.rtc ∧ t.wf = s.wf

/-- The forms of the tokens: a literal run of 1 to 128 bytes, a copy of length 3 to 18 at distance 1 to 2,048, told apart by the most
significant bit, the middle four bits of a copy's first byte carrying L - 3 and the low three the top of d - 1 (R26). -/
def Obligations.TokenForms : Prop :=
  (∀ bs : List Byte, 1 ≤ bs.length → bs.length ≤ 128 → ∃ b : Byte,
    literalToken bs = b :: bs ∧ b.toNat = bs.length - 1 ∧ (literalToken bs).length = bs.length + 1 ∧ b.getLsbD 7 = false)
  ∧ (∀ l d : Nat, 3 ≤ l → l ≤ 18 → 1 ≤ d → d ≤ 2048 → ∃ b c : Byte,
    copyToken l d = [b, c] ∧ b.toNat = 128 + 8 * (l - 3) + (d - 1) / 256 ∧ c.toNat = (d - 1) % 256
    ∧ b.getLsbD 7 = true ∧ 128 ≤ b.toNat ∧ (b.extractLsb' 3 4).toNat = l - 3 ∧ (b.extractLsb' 0 3).toNat = (d - 1) / 256)

/-- The head record for saving, as QUERY_STATUS reports it: the counters as held, and the head state as the floor, CLEAN given as NONE
(R168). -/
def Obligations.HeadRecordForSaving : Prop :=
  ∀ s : State, ∃ before : List Byte,
    s.snapshot = before ++ leBytes 4 s.hm.metres ++ leBytes 4 s.hm.total ++ leBytes 4 s.hm.cleanings ++ leBytes 4 s.hm.loads
      ++ [(match s.hm.head with | .clean => 0 | .advised => 1 | .required => 2 : Byte)]

/-! ### Invariants that every step keeps -/

/-- Every step keeps the Event Unit sound: counts 0 while clear and 1 to 255 while set, latches 27 to 31 clear, ATTN asserted exactly while a
latch is set with its mask bit set (R184, R185, R188). -/
def Obligations.StepKeepsEventUnit : Prop :=
  ∀ s t : State, s.eu.Sound → step s = .next t → t.eu.Sound

/-- Every step keeps the DRAM in its canonical form. The form is the model's own (log 6). -/
def Obligations.StepKeepsMemoryCanonical : Prop :=
  ∀ s t : State, s.dbm.dram.wf = true → step s = .next t → t.dbm.dram.wf = true

/-- Every step keeps the queue at 4 commands or fewer, their tags distinct and none 0, none but the head begun (R174, R175). -/
def Obligations.StepKeepsCommandQueue : Prop :=
  ∀ s t : State, s.cu.Sound → step s = .next t → t.cu.Sound

/-- Every step keeps the head state at the greater of the derived state and the floor, and CLEAN_REQ asserted exactly while it is REQUIRED
(R161, R162). -/
def Obligations.StepKeepsHeadMonitor : Prop :=
  ∀ s t : State, s.hm.Sound → step s = .next t → t.hm.Sound

/-- Every step keeps the write clock SERVO exactly while the timebase is LOCKED, the inhibit clear outside LOCKED, the run and miss counts in
range, the settle timer running exactly while SETTLING, and credits with occupied places at 256 or fewer (R17, R133, R144, R152, R154, R171,
R181). -/
def Obligations.StepKeepsServoMotionAndPort : Prop :=
  (∀ s t : State, s.sv.Sound → step s = .next t → t.sv.Sound)
  ∧ (∀ s t : State, s.rtc.Sound → step s = .next t → t.rtc.Sound)
  ∧ (∀ s t : State, s.PortSound → step s = .next t → t.PortSound)

/-- Every step keeps the ring of slots: 512 at most, the drain pointer below 512, at most one slot FILLING, WRITING, LOADING and EXPANDING, each
in its place of the run, the two paths never mixed, and none with direction NEUTRAL (R3, R4, R13). -/
def Obligations.StepKeepsBufferRing : Prop :=
  ∀ s t : State, s.dbm.RingSound → step s = .next t → t.dbm.RingSound

/-- Every step keeps the Reader off a FAILED slot: while a slot is FAILED the Reader asks for none, moves no tape for one and is not paused, so that
no slot is opened behind it before the Record Expander has ended the read at it (R4, R11, R12, R94, R96). -/
def Obligations.StepKeepsReaderSound : Prop :=
  ∀ s t : State, s.dbm.RingSound → s.ReaderSound → step s = .next t → t.ReaderSound

/-- The state after power-on reset meets every invariant, and holds what the rules give for reset: the buffer empty and NEUTRAL, the queue and
the latches clear with every mask bit set, no volume, the head CLEAN and armed, the policies and the speed table at their defaults (R20, R67,
R79, R103, R106, R123, R144, R156, R163, R171, R175, R179, R184). The cartridge EMPTY is the model's choice of sensors (log 11). -/
def Obligations.ResetStateSound : Prop :=
  let s := State.reset
  s.eu.Sound ∧ s.dbm.dram.wf = true ∧ s.cu.Sound ∧ s.hm.Sound ∧ s.sv.Sound ∧ s.rtc.Sound ∧ s.PortSound ∧ s.dbm.RingSound ∧ s.ReaderSound
  ∧ s.dbm.slots = [] ∧ s.dbm.direction = .neutral ∧ s.cu.queue = [] ∧ s.cu.deferred = none ∧ s.eu.mask = 0xFFFFFFFF ∧ s.eu.attn = false
  ∧ s.pu.volume = .none ∧ s.hm.head = .clean ∧ s.hm.cleanReq = false ∧ s.hm.armed = true ∧ s.rtc.cartridge = .empty ∧ s.rtc.motion = .stopped
  ∧ s.cu.policy = { margin := 6, restartLimit := 2, missLimit := 3, retries := 4, offTrack := 15 }
  ∧ s.hm.policy = { tripUp := 8, tripDown := 2, dead := 128, adviseCount := 1, requiredCount := 4, metreLimit := 100000, cap := 1, length := 60 }
  ∧ s.pu.policy = List.replicate 4 { write := .writable, compress := true }
  ∧ s.sm.table = { entries := [(2000, 80), (2800, 120), (3600, 160), (4400, 200), (5200, 240), (6000, 280)], high := 384, low := 32,
                   confirm := 2, sealTimeout := 2000, tolerance := 5 }
  ∧ s.sm.compressibility = .incompressible ∧ s.sm.window = none ∧ s.sv.timebase = .off ∧ s.sv.clock = .reference ∧ s.pending = []

end
end

