-- ==== Sys2Proof/Laws/Memory.lean ====
section
/-!
SUPPORT. Memory.lean: the DRAM's canonical form is kept by every operation that changes it, and what a byte reads as after each of
them.
-/
namespace Sys2Proof.Laws
open Sys2Proof.Machine

/-- The canonical form of a list with a first entry. -/
theorem wf_cons (k : Nat) (v : Byte) (m : Memory) :
    Memory.wf ((k, v) :: m) = true ↔ v ≠ unlistedByte ∧ (∀ c ∈ m, k < c.1) ∧ Memory.wf m = true := by
  induction m generalizing k v with
  | nil => simp [Memory.wf]
  | cons c m ih =>
    obtain ⟨k', v'⟩ := c
    have step : Memory.wf ((k, v) :: (k', v') :: m) = true ↔ v ≠ unlistedByte ∧ k < k' ∧ Memory.wf ((k', v') :: m) = true := by
      simp [Memory.wf, and_assoc]
    rw [step]
    constructor
    · rintro ⟨hv, hk, hw⟩
      refine ⟨hv, ?_, hw⟩
      have ht := (ih k' v').mp hw
      intro c hc
      rcases List.mem_cons.mp hc with h | h
      · subst h; exact hk
      · exact Nat.lt_trans hk (ht.2.1 c h)
    · rintro ⟨hv, hk, hw⟩
      exact ⟨hv, hk (k', v') (List.mem_cons_self ..), hw⟩

/-- The addresses of a written memory: those listed before, and the one written. -/
theorem mem_write (m : Memory) (a : Nat) (b : Byte) (c : Host.Cell) (h : c ∈ Memory.write m a b) : c.1 = a ∨ c ∈ m := by
  induction m with
  | nil =>
    simp only [Memory.write] at h
    split at h
    · simp at h
    · simp at h; simp [h]
  | cons d m ih =>
    obtain ⟨k, v⟩ := d
    simp only [Memory.write] at h
    split at h
    · split at h
      · exact Or.inr h
      · rcases List.mem_cons.mp h with h | h
        · simp [h]
        · exact Or.inr h
    · split at h
      · split at h
        · exact Or.inr (List.mem_cons_of_mem _ h)
        · rcases List.mem_cons.mp h with h | h
          · simp [h]
          · exact Or.inr (List.mem_cons_of_mem _ h)
      · rcases List.mem_cons.mp h with h | h
        · simp [h]
        · rcases ih h with h | h
          · exact Or.inl h
          · exact Or.inr (List.mem_cons_of_mem _ h)

/-- Writing a byte keeps the canonical form. -/
theorem wf_write (m : Memory) (a : Nat) (b : Byte) (h : Memory.wf m = true) : Memory.wf (Memory.write m a b) = true := by
  induction m with
  | nil =>
    simp only [Memory.write]
    split
    · rfl
    · next hb => simp [Memory.wf, hb]
  | cons d m ih =>
    obtain ⟨k, v⟩ := d
    have hw := (wf_cons k v m).mp h
    simp only [Memory.write]
    split
    · next hak =>
      split
      · exact h
      · next hb =>
        rw [wf_cons]
        refine ⟨hb, ?_, h⟩
        intro c hc
        rcases List.mem_cons.mp hc with hc | hc
        · subst hc; exact hak
        · exact Nat.lt_trans hak (hw.2.1 c hc)
    · next hak =>
      split
      · next hk =>
        subst hk
        split
        · exact hw.2.2
        · next hb => exact (wf_cons _ _ _).mpr ⟨hb, hw.2.1, hw.2.2⟩
      · next hk =>
        rw [wf_cons]
        refine ⟨hw.1, ?_, ih hw.2.2⟩
        intro c hc
        rcases mem_write m a b c hc with hc | hc
        · omega
        · exact hw.2.1 c hc

/-- Writing bytes keeps the canonical form. -/
theorem wf_writeBytes (bs : List Byte) (m : Memory) (a : Nat) (h : Memory.wf m = true) : Memory.wf (Memory.writeBytes m a bs) = true := by
  induction bs generalizing m a with
  | nil => exact h
  | cons b bs ih => exact ih _ _ (wf_write m a b h)

/-- Leaving entries out keeps the canonical form. -/
theorem wf_filter (m : Memory) (f : Host.Cell → Bool) (h : Memory.wf m = true) : Memory.wf (m.filter f) = true := by
  induction m with
  | nil => rfl
  | cons d m ih =>
    obtain ⟨k, v⟩ := d
    have hw := (wf_cons k v m).mp h
    rw [List.filter_cons]
    split
    · exact (wf_cons _ _ _).mpr ⟨hw.1, fun c hc => hw.2.1 c (List.mem_filter.mp hc).1, ih hw.2.2⟩
    · exact ih hw.2.2

/-- Clearing addresses keeps the canonical form. -/
theorem wf_clear (m : Memory) (lo hi : Nat) (h : Memory.wf m = true) : Memory.wf (m.clear lo hi) = true := wf_filter m _ h

/-- Writing cells keeps the canonical form. -/
theorem wf_cells (cs : Cells) (base : Nat) (m : Memory) (h : Memory.wf m = true) :
    Memory.wf (cs.foldl (fun m c => Memory.write m (base + c.1) c.2) m) = true := by
  induction cs generalizing m with
  | nil => exact h
  | cons c cs ih => exact ih _ (wf_write m _ _ h)

/-- Placing cells keeps the canonical form. -/
theorem wf_place (m : Memory) (base n : Nat) (cs : Cells) (h : Memory.wf m = true) : Memory.wf (m.place base n cs) = true :=
  wf_cells _ _ _ (wf_clear m _ _ h)

/-- An address below every listed one reads as an unlisted address does. -/
theorem read_above (m : Memory) (a : Nat) (h : ∀ c ∈ m, a < c.1) : m.read a = unlistedByte := by
  induction m with
  | nil => rfl
  | cons d m ih =>
    obtain ⟨k, v⟩ := d
    have hk : a < k := h (k, v) (List.mem_cons_self ..)
    have hne : ¬ k = a := by omega
    simp only [Memory.read, hne, if_false]
    exact ih (fun c hc => h c (List.mem_cons_of_mem _ hc))

/-- A byte after a write: the one written at its address, as before elsewhere. -/
theorem read_write (m : Memory) (a x : Nat) (b : Byte) (h : Memory.wf m = true) :
    (Memory.write m a b).read x = if x = a then b else m.read x := by
  induction m with
  | nil =>
    simp only [Memory.write]
    split
    · next hb => subst hb; simp [Memory.read]
    · simp only [Memory.read]
      by_cases hx : x = a
      · simp [hx]
      · have hx' : ¬ a = x := fun e => hx e.symm
        simp [hx, hx']
  | cons d m ih =>
    obtain ⟨k, v⟩ := d
    have hw := (wf_cons k v m).mp h
    simp only [Memory.write]
    by_cases hx : x = a
    · subst hx
      simp only [if_true]
      split
      · next hak =>
        split
        · next hb =>
          subst hb
          apply read_above
          intro c hc
          rcases List.mem_cons.mp hc with hc | hc
          · subst hc; exact hak
          · exact Nat.lt_trans hak (hw.2.1 c hc)
        · simp [Memory.read]
      · split
        · next hk =>
          subst hk
          split
          · next hb =>
            subst hb
            exact read_above m _ hw.2.1
          · simp [Memory.read]
        · next hak hk =>
          have hk' : ¬ k = x := fun e => hk e.symm
          simp only [Memory.read, hk', if_false]
          simpa using ih hw.2.2
    · have hx' : ¬ a = x := fun e => hx e.symm
      simp only [hx, if_false]
      split
      · split
        · rfl
        · simp [Memory.read, hx']
      · split
        · next hk =>
          subst hk
          split
          · simp [Memory.read, hx']
          · simp [Memory.read, hx']
        · simp only [Memory.read]
          split
          · rfl
          · simpa [hx] using ih hw.2.2

/-- A byte after bytes were written upward from an address. -/
theorem read_writeBytes (bs : List Byte) (m : Memory) (a x : Nat) (h : Memory.wf m = true) :
    (Memory.writeBytes m a bs).read x = if a ≤ x ∧ x < a + bs.length then bs.getD (x - a) 0 else m.read x := by
  induction bs generalizing m a with
  | nil =>
    have none : ¬ (a ≤ x ∧ x < a + ([] : List Byte).length) := by
      intro hx
      have hx2 := hx.2
      simp only [List.length_nil] at hx2
      omega
    rw [if_neg none]
    rfl
  | cons b bs ih =>
    simp only [Memory.writeBytes]
    rw [ih (Memory.write m a b) (a + 1) (wf_write m a b h), read_write m a x b h]
    by_cases hx : x = a
    · subst hx
      have h1 : ¬ (x + 1 ≤ x ∧ x < x + 1 + bs.length) := by omega
      have h2 : x ≤ x ∧ x < x + (b :: bs).length := by simp
      rw [if_neg h1, if_pos rfl, if_pos h2]
      simp
    · by_cases hr : a ≤ x ∧ x < a + (b :: bs).length
      · have h1 : a + 1 ≤ x ∧ x < a + 1 + bs.length := by simp at hr; omega
        have h2 : x - a = (x - (a + 1)) + 1 := by omega
        rw [if_pos h1, if_pos hr, h2]
        simp
      · have h1 : ¬ (a + 1 ≤ x ∧ x < a + 1 + bs.length) := by simp at hr; omega
        rw [if_neg h1, if_neg hr, if_neg hx]

/-- A byte after addresses were cleared. -/
theorem read_clear (m : Memory) (lo hi x : Nat) : (m.clear lo hi).read x = if lo ≤ x ∧ x < hi then unlistedByte else m.read x := by
  induction m with
  | nil => simp [Memory.clear, Memory.read]
  | cons d m ih =>
    obtain ⟨k, v⟩ := d
    have step : Memory.clear ((k, v) :: m) lo hi = if k < lo ∨ hi ≤ k then (k, v) :: Memory.clear m lo hi else Memory.clear m lo hi := by
      simp [Memory.clear, List.filter_cons]
    rw [step]
    by_cases hk : k < lo ∨ hi ≤ k
    · rw [if_pos hk]
      simp only [Memory.read]
      by_cases hx : k = x
      · subst hx
        have : ¬ (lo ≤ k ∧ k < hi) := by omega
        simp [this]
      · simpa [hx] using ih
    · rw [if_neg hk, ih]
      by_cases hx : k = x
      · subst hx
        have : lo ≤ k ∧ k < hi := by omega
        simp [this]
      · simp [Memory.read, hx]

end Sys2Proof.Laws
end

