-- ==== Sys2Proof/Laws/State.lean ====
section
/-! SUPPORT. State.lean: one lemma per block update and field: an update changes its own block and no other. -/
namespace Sys2Proof.Laws
open Sys2Proof.Machine

@[simp] theorem onSpu_spu (s : State) (f : Spu → Spu) : (s.onSpu f).spu = f s.spu := rfl
@[simp] theorem onSpu_cu (s : State) (f : Spu → Spu) : (s.onSpu f).cu = s.cu := rfl
@[simp] theorem onSpu_rc (s : State) (f : Spu → Spu) : (s.onSpu f).rc = s.rc := rfl
@[simp] theorem onSpu_rx (s : State) (f : Spu → Spu) : (s.onSpu f).rx = s.rx := rfl
@[simp] theorem onSpu_dbm (s : State) (f : Spu → Spu) : (s.onSpu f).dbm = s.dbm := rfl
@[simp] theorem onSpu_wf (s : State) (f : Spu → Spu) : (s.onSpu f).wf = s.wf := rfl
@[simp] theorem onSpu_rdr (s : State) (f : Spu → Spu) : (s.onSpu f).rdr = s.rdr := rfl
@[simp] theorem onSpu_sm (s : State) (f : Spu → Spu) : (s.onSpu f).sm = s.sm := rfl
@[simp] theorem onSpu_pu (s : State) (f : Spu → Spu) : (s.onSpu f).pu = s.pu := rfl
@[simp] theorem onSpu_rtc (s : State) (f : Spu → Spu) : (s.onSpu f).rtc = s.rtc := rfl
@[simp] theorem onSpu_sv (s : State) (f : Spu → Spu) : (s.onSpu f).sv = s.sv := rfl
@[simp] theorem onSpu_hm (s : State) (f : Spu → Spu) : (s.onSpu f).hm = s.hm := rfl
@[simp] theorem onSpu_eu (s : State) (f : Spu → Spu) : (s.onSpu f).eu = s.eu := rfl
@[simp] theorem onSpu_sensors (s : State) (f : Spu → Spu) : (s.onSpu f).sensors = s.sensors := rfl
@[simp] theorem onSpu_tape (s : State) (f : Spu → Spu) : (s.onSpu f).tape = s.tape := rfl
@[simp] theorem onSpu_free (s : State) (f : Spu → Spu) : (s.onSpu f).free = s.free := rfl
@[simp] theorem onSpu_pending (s : State) (f : Spu → Spu) : (s.onSpu f).pending = s.pending := rfl
@[simp] theorem onCu_spu (s : State) (f : Cu → Cu) : (s.onCu f).spu = s.spu := rfl
@[simp] theorem onCu_cu (s : State) (f : Cu → Cu) : (s.onCu f).cu = f s.cu := rfl
@[simp] theorem onCu_rc (s : State) (f : Cu → Cu) : (s.onCu f).rc = s.rc := rfl
@[simp] theorem onCu_rx (s : State) (f : Cu → Cu) : (s.onCu f).rx = s.rx := rfl
@[simp] theorem onCu_dbm (s : State) (f : Cu → Cu) : (s.onCu f).dbm = s.dbm := rfl
@[simp] theorem onCu_wf (s : State) (f : Cu → Cu) : (s.onCu f).wf = s.wf := rfl
@[simp] theorem onCu_rdr (s : State) (f : Cu → Cu) : (s.onCu f).rdr = s.rdr := rfl
@[simp] theorem onCu_sm (s : State) (f : Cu → Cu) : (s.onCu f).sm = s.sm := rfl
@[simp] theorem onCu_pu (s : State) (f : Cu → Cu) : (s.onCu f).pu = s.pu := rfl
@[simp] theorem onCu_rtc (s : State) (f : Cu → Cu) : (s.onCu f).rtc = s.rtc := rfl
@[simp] theorem onCu_sv (s : State) (f : Cu → Cu) : (s.onCu f).sv = s.sv := rfl
@[simp] theorem onCu_hm (s : State) (f : Cu → Cu) : (s.onCu f).hm = s.hm := rfl
@[simp] theorem onCu_eu (s : State) (f : Cu → Cu) : (s.onCu f).eu = s.eu := rfl
@[simp] theorem onCu_sensors (s : State) (f : Cu → Cu) : (s.onCu f).sensors = s.sensors := rfl
@[simp] theorem onCu_tape (s : State) (f : Cu → Cu) : (s.onCu f).tape = s.tape := rfl
@[simp] theorem onCu_free (s : State) (f : Cu → Cu) : (s.onCu f).free = s.free := rfl
@[simp] theorem onCu_pending (s : State) (f : Cu → Cu) : (s.onCu f).pending = s.pending := rfl
@[simp] theorem onRc_spu (s : State) (f : Rc → Rc) : (s.onRc f).spu = s.spu := rfl
@[simp] theorem onRc_cu (s : State) (f : Rc → Rc) : (s.onRc f).cu = s.cu := rfl
@[simp] theorem onRc_rc (s : State) (f : Rc → Rc) : (s.onRc f).rc = f s.rc := rfl
@[simp] theorem onRc_rx (s : State) (f : Rc → Rc) : (s.onRc f).rx = s.rx := rfl
@[simp] theorem onRc_dbm (s : State) (f : Rc → Rc) : (s.onRc f).dbm = s.dbm := rfl
@[simp] theorem onRc_wf (s : State) (f : Rc → Rc) : (s.onRc f).wf = s.wf := rfl
@[simp] theorem onRc_rdr (s : State) (f : Rc → Rc) : (s.onRc f).rdr = s.rdr := rfl
@[simp] theorem onRc_sm (s : State) (f : Rc → Rc) : (s.onRc f).sm = s.sm := rfl
@[simp] theorem onRc_pu (s : State) (f : Rc → Rc) : (s.onRc f).pu = s.pu := rfl
@[simp] theorem onRc_rtc (s : State) (f : Rc → Rc) : (s.onRc f).rtc = s.rtc := rfl
@[simp] theorem onRc_sv (s : State) (f : Rc → Rc) : (s.onRc f).sv = s.sv := rfl
@[simp] theorem onRc_hm (s : State) (f : Rc → Rc) : (s.onRc f).hm = s.hm := rfl
@[simp] theorem onRc_eu (s : State) (f : Rc → Rc) : (s.onRc f).eu = s.eu := rfl
@[simp] theorem onRc_sensors (s : State) (f : Rc → Rc) : (s.onRc f).sensors = s.sensors := rfl
@[simp] theorem onRc_tape (s : State) (f : Rc → Rc) : (s.onRc f).tape = s.tape := rfl
@[simp] theorem onRc_free (s : State) (f : Rc → Rc) : (s.onRc f).free = s.free := rfl
@[simp] theorem onRc_pending (s : State) (f : Rc → Rc) : (s.onRc f).pending = s.pending := rfl
@[simp] theorem onRx_spu (s : State) (f : Rx → Rx) : (s.onRx f).spu = s.spu := rfl
@[simp] theorem onRx_cu (s : State) (f : Rx → Rx) : (s.onRx f).cu = s.cu := rfl
@[simp] theorem onRx_rc (s : State) (f : Rx → Rx) : (s.onRx f).rc = s.rc := rfl
@[simp] theorem onRx_rx (s : State) (f : Rx → Rx) : (s.onRx f).rx = f s.rx := rfl
@[simp] theorem onRx_dbm (s : State) (f : Rx → Rx) : (s.onRx f).dbm = s.dbm := rfl
@[simp] theorem onRx_wf (s : State) (f : Rx → Rx) : (s.onRx f).wf = s.wf := rfl
@[simp] theorem onRx_rdr (s : State) (f : Rx → Rx) : (s.onRx f).rdr = s.rdr := rfl
@[simp] theorem onRx_sm (s : State) (f : Rx → Rx) : (s.onRx f).sm = s.sm := rfl
@[simp] theorem onRx_pu (s : State) (f : Rx → Rx) : (s.onRx f).pu = s.pu := rfl
@[simp] theorem onRx_rtc (s : State) (f : Rx → Rx) : (s.onRx f).rtc = s.rtc := rfl
@[simp] theorem onRx_sv (s : State) (f : Rx → Rx) : (s.onRx f).sv = s.sv := rfl
@[simp] theorem onRx_hm (s : State) (f : Rx → Rx) : (s.onRx f).hm = s.hm := rfl
@[simp] theorem onRx_eu (s : State) (f : Rx → Rx) : (s.onRx f).eu = s.eu := rfl
@[simp] theorem onRx_sensors (s : State) (f : Rx → Rx) : (s.onRx f).sensors = s.sensors := rfl
@[simp] theorem onRx_tape (s : State) (f : Rx → Rx) : (s.onRx f).tape = s.tape := rfl
@[simp] theorem onRx_free (s : State) (f : Rx → Rx) : (s.onRx f).free = s.free := rfl
@[simp] theorem onRx_pending (s : State) (f : Rx → Rx) : (s.onRx f).pending = s.pending := rfl
@[simp] theorem onDbm_spu (s : State) (f : Dbm → Dbm) : (s.onDbm f).spu = s.spu := rfl
@[simp] theorem onDbm_cu (s : State) (f : Dbm → Dbm) : (s.onDbm f).cu = s.cu := rfl
@[simp] theorem onDbm_rc (s : State) (f : Dbm → Dbm) : (s.onDbm f).rc = s.rc := rfl
@[simp] theorem onDbm_rx (s : State) (f : Dbm → Dbm) : (s.onDbm f).rx = s.rx := rfl
@[simp] theorem onDbm_dbm (s : State) (f : Dbm → Dbm) : (s.onDbm f).dbm = f s.dbm := rfl
@[simp] theorem onDbm_wf (s : State) (f : Dbm → Dbm) : (s.onDbm f).wf = s.wf := rfl
@[simp] theorem onDbm_rdr (s : State) (f : Dbm → Dbm) : (s.onDbm f).rdr = s.rdr := rfl
@[simp] theorem onDbm_sm (s : State) (f : Dbm → Dbm) : (s.onDbm f).sm = s.sm := rfl
@[simp] theorem onDbm_pu (s : State) (f : Dbm → Dbm) : (s.onDbm f).pu = s.pu := rfl
@[simp] theorem onDbm_rtc (s : State) (f : Dbm → Dbm) : (s.onDbm f).rtc = s.rtc := rfl
@[simp] theorem onDbm_sv (s : State) (f : Dbm → Dbm) : (s.onDbm f).sv = s.sv := rfl
@[simp] theorem onDbm_hm (s : State) (f : Dbm → Dbm) : (s.onDbm f).hm = s.hm := rfl
@[simp] theorem onDbm_eu (s : State) (f : Dbm → Dbm) : (s.onDbm f).eu = s.eu := rfl
@[simp] theorem onDbm_sensors (s : State) (f : Dbm → Dbm) : (s.onDbm f).sensors = s.sensors := rfl
@[simp] theorem onDbm_tape (s : State) (f : Dbm → Dbm) : (s.onDbm f).tape = s.tape := rfl
@[simp] theorem onDbm_free (s : State) (f : Dbm → Dbm) : (s.onDbm f).free = s.free := rfl
@[simp] theorem onDbm_pending (s : State) (f : Dbm → Dbm) : (s.onDbm f).pending = s.pending := rfl
@[simp] theorem onWf_spu (s : State) (f : Wf → Wf) : (s.onWf f).spu = s.spu := rfl
@[simp] theorem onWf_cu (s : State) (f : Wf → Wf) : (s.onWf f).cu = s.cu := rfl
@[simp] theorem onWf_rc (s : State) (f : Wf → Wf) : (s.onWf f).rc = s.rc := rfl
@[simp] theorem onWf_rx (s : State) (f : Wf → Wf) : (s.onWf f).rx = s.rx := rfl
@[simp] theorem onWf_dbm (s : State) (f : Wf → Wf) : (s.onWf f).dbm = s.dbm := rfl
@[simp] theorem onWf_wf (s : State) (f : Wf → Wf) : (s.onWf f).wf = f s.wf := rfl
@[simp] theorem onWf_rdr (s : State) (f : Wf → Wf) : (s.onWf f).rdr = s.rdr := rfl
@[simp] theorem onWf_sm (s : State) (f : Wf → Wf) : (s.onWf f).sm = s.sm := rfl
@[simp] theorem onWf_pu (s : State) (f : Wf → Wf) : (s.onWf f).pu = s.pu := rfl
@[simp] theorem onWf_rtc (s : State) (f : Wf → Wf) : (s.onWf f).rtc = s.rtc := rfl
@[simp] theorem onWf_sv (s : State) (f : Wf → Wf) : (s.onWf f).sv = s.sv := rfl
@[simp] theorem onWf_hm (s : State) (f : Wf → Wf) : (s.onWf f).hm = s.hm := rfl
@[simp] theorem onWf_eu (s : State) (f : Wf → Wf) : (s.onWf f).eu = s.eu := rfl
@[simp] theorem onWf_sensors (s : State) (f : Wf → Wf) : (s.onWf f).sensors = s.sensors := rfl
@[simp] theorem onWf_tape (s : State) (f : Wf → Wf) : (s.onWf f).tape = s.tape := rfl
@[simp] theorem onWf_free (s : State) (f : Wf → Wf) : (s.onWf f).free = s.free := rfl
@[simp] theorem onWf_pending (s : State) (f : Wf → Wf) : (s.onWf f).pending = s.pending := rfl
@[simp] theorem onRdr_spu (s : State) (f : Rdr → Rdr) : (s.onRdr f).spu = s.spu := rfl
@[simp] theorem onRdr_cu (s : State) (f : Rdr → Rdr) : (s.onRdr f).cu = s.cu := rfl
@[simp] theorem onRdr_rc (s : State) (f : Rdr → Rdr) : (s.onRdr f).rc = s.rc := rfl
@[simp] theorem onRdr_rx (s : State) (f : Rdr → Rdr) : (s.onRdr f).rx = s.rx := rfl
@[simp] theorem onRdr_dbm (s : State) (f : Rdr → Rdr) : (s.onRdr f).dbm = s.dbm := rfl
@[simp] theorem onRdr_wf (s : State) (f : Rdr → Rdr) : (s.onRdr f).wf = s.wf := rfl
@[simp] theorem onRdr_rdr (s : State) (f : Rdr → Rdr) : (s.onRdr f).rdr = f s.rdr := rfl
@[simp] theorem onRdr_sm (s : State) (f : Rdr → Rdr) : (s.onRdr f).sm = s.sm := rfl
@[simp] theorem onRdr_pu (s : State) (f : Rdr → Rdr) : (s.onRdr f).pu = s.pu := rfl
@[simp] theorem onRdr_rtc (s : State) (f : Rdr → Rdr) : (s.onRdr f).rtc = s.rtc := rfl
@[simp] theorem onRdr_sv (s : State) (f : Rdr → Rdr) : (s.onRdr f).sv = s.sv := rfl
@[simp] theorem onRdr_hm (s : State) (f : Rdr → Rdr) : (s.onRdr f).hm = s.hm := rfl
@[simp] theorem onRdr_eu (s : State) (f : Rdr → Rdr) : (s.onRdr f).eu = s.eu := rfl
@[simp] theorem onRdr_sensors (s : State) (f : Rdr → Rdr) : (s.onRdr f).sensors = s.sensors := rfl
@[simp] theorem onRdr_tape (s : State) (f : Rdr → Rdr) : (s.onRdr f).tape = s.tape := rfl
@[simp] theorem onRdr_free (s : State) (f : Rdr → Rdr) : (s.onRdr f).free = s.free := rfl
@[simp] theorem onRdr_pending (s : State) (f : Rdr → Rdr) : (s.onRdr f).pending = s.pending := rfl
@[simp] theorem onSm_spu (s : State) (f : Sm → Sm) : (s.onSm f).spu = s.spu := rfl
@[simp] theorem onSm_cu (s : State) (f : Sm → Sm) : (s.onSm f).cu = s.cu := rfl
@[simp] theorem onSm_rc (s : State) (f : Sm → Sm) : (s.onSm f).rc = s.rc := rfl
@[simp] theorem onSm_rx (s : State) (f : Sm → Sm) : (s.onSm f).rx = s.rx := rfl
@[simp] theorem onSm_dbm (s : State) (f : Sm → Sm) : (s.onSm f).dbm = s.dbm := rfl
@[simp] theorem onSm_wf (s : State) (f : Sm → Sm) : (s.onSm f).wf = s.wf := rfl
@[simp] theorem onSm_rdr (s : State) (f : Sm → Sm) : (s.onSm f).rdr = s.rdr := rfl
@[simp] theorem onSm_sm (s : State) (f : Sm → Sm) : (s.onSm f).sm = f s.sm := rfl
@[simp] theorem onSm_pu (s : State) (f : Sm → Sm) : (s.onSm f).pu = s.pu := rfl
@[simp] theorem onSm_rtc (s : State) (f : Sm → Sm) : (s.onSm f).rtc = s.rtc := rfl
@[simp] theorem onSm_sv (s : State) (f : Sm → Sm) : (s.onSm f).sv = s.sv := rfl
@[simp] theorem onSm_hm (s : State) (f : Sm → Sm) : (s.onSm f).hm = s.hm := rfl
@[simp] theorem onSm_eu (s : State) (f : Sm → Sm) : (s.onSm f).eu = s.eu := rfl
@[simp] theorem onSm_sensors (s : State) (f : Sm → Sm) : (s.onSm f).sensors = s.sensors := rfl
@[simp] theorem onSm_tape (s : State) (f : Sm → Sm) : (s.onSm f).tape = s.tape := rfl
@[simp] theorem onSm_free (s : State) (f : Sm → Sm) : (s.onSm f).free = s.free := rfl
@[simp] theorem onSm_pending (s : State) (f : Sm → Sm) : (s.onSm f).pending = s.pending := rfl
@[simp] theorem onPu_spu (s : State) (f : Pu → Pu) : (s.onPu f).spu = s.spu := rfl
@[simp] theorem onPu_cu (s : State) (f : Pu → Pu) : (s.onPu f).cu = s.cu := rfl
@[simp] theorem onPu_rc (s : State) (f : Pu → Pu) : (s.onPu f).rc = s.rc := rfl
@[simp] theorem onPu_rx (s : State) (f : Pu → Pu) : (s.onPu f).rx = s.rx := rfl
@[simp] theorem onPu_dbm (s : State) (f : Pu → Pu) : (s.onPu f).dbm = s.dbm := rfl
@[simp] theorem onPu_wf (s : State) (f : Pu → Pu) : (s.onPu f).wf = s.wf := rfl
@[simp] theorem onPu_rdr (s : State) (f : Pu → Pu) : (s.onPu f).rdr = s.rdr := rfl
@[simp] theorem onPu_sm (s : State) (f : Pu → Pu) : (s.onPu f).sm = s.sm := rfl
@[simp] theorem onPu_pu (s : State) (f : Pu → Pu) : (s.onPu f).pu = f s.pu := rfl
@[simp] theorem onPu_rtc (s : State) (f : Pu → Pu) : (s.onPu f).rtc = s.rtc := rfl
@[simp] theorem onPu_sv (s : State) (f : Pu → Pu) : (s.onPu f).sv = s.sv := rfl
@[simp] theorem onPu_hm (s : State) (f : Pu → Pu) : (s.onPu f).hm = s.hm := rfl
@[simp] theorem onPu_eu (s : State) (f : Pu → Pu) : (s.onPu f).eu = s.eu := rfl
@[simp] theorem onPu_sensors (s : State) (f : Pu → Pu) : (s.onPu f).sensors = s.sensors := rfl
@[simp] theorem onPu_tape (s : State) (f : Pu → Pu) : (s.onPu f).tape = s.tape := rfl
@[simp] theorem onPu_free (s : State) (f : Pu → Pu) : (s.onPu f).free = s.free := rfl
@[simp] theorem onPu_pending (s : State) (f : Pu → Pu) : (s.onPu f).pending = s.pending := rfl
@[simp] theorem onRtc_spu (s : State) (f : Rtc → Rtc) : (s.onRtc f).spu = s.spu := rfl
@[simp] theorem onRtc_cu (s : State) (f : Rtc → Rtc) : (s.onRtc f).cu = s.cu := rfl
@[simp] theorem onRtc_rc (s : State) (f : Rtc → Rtc) : (s.onRtc f).rc = s.rc := rfl
@[simp] theorem onRtc_rx (s : State) (f : Rtc → Rtc) : (s.onRtc f).rx = s.rx := rfl
@[simp] theorem onRtc_dbm (s : State) (f : Rtc → Rtc) : (s.onRtc f).dbm = s.dbm := rfl
@[simp] theorem onRtc_wf (s : State) (f : Rtc → Rtc) : (s.onRtc f).wf = s.wf := rfl
@[simp] theorem onRtc_rdr (s : State) (f : Rtc → Rtc) : (s.onRtc f).rdr = s.rdr := rfl
@[simp] theorem onRtc_sm (s : State) (f : Rtc → Rtc) : (s.onRtc f).sm = s.sm := rfl
@[simp] theorem onRtc_pu (s : State) (f : Rtc → Rtc) : (s.onRtc f).pu = s.pu := rfl
@[simp] theorem onRtc_rtc (s : State) (f : Rtc → Rtc) : (s.onRtc f).rtc = f s.rtc := rfl
@[simp] theorem onRtc_sv (s : State) (f : Rtc → Rtc) : (s.onRtc f).sv = s.sv := rfl
@[simp] theorem onRtc_hm (s : State) (f : Rtc → Rtc) : (s.onRtc f).hm = s.hm := rfl
@[simp] theorem onRtc_eu (s : State) (f : Rtc → Rtc) : (s.onRtc f).eu = s.eu := rfl
@[simp] theorem onRtc_sensors (s : State) (f : Rtc → Rtc) : (s.onRtc f).sensors = s.sensors := rfl
@[simp] theorem onRtc_tape (s : State) (f : Rtc → Rtc) : (s.onRtc f).tape = s.tape := rfl
@[simp] theorem onRtc_free (s : State) (f : Rtc → Rtc) : (s.onRtc f).free = s.free := rfl
@[simp] theorem onRtc_pending (s : State) (f : Rtc → Rtc) : (s.onRtc f).pending = s.pending := rfl
@[simp] theorem onSv_spu (s : State) (f : Sv → Sv) : (s.onSv f).spu = s.spu := rfl
@[simp] theorem onSv_cu (s : State) (f : Sv → Sv) : (s.onSv f).cu = s.cu := rfl
@[simp] theorem onSv_rc (s : State) (f : Sv → Sv) : (s.onSv f).rc = s.rc := rfl
@[simp] theorem onSv_rx (s : State) (f : Sv → Sv) : (s.onSv f).rx = s.rx := rfl
@[simp] theorem onSv_dbm (s : State) (f : Sv → Sv) : (s.onSv f).dbm = s.dbm := rfl
@[simp] theorem onSv_wf (s : State) (f : Sv → Sv) : (s.onSv f).wf = s.wf := rfl
@[simp] theorem onSv_rdr (s : State) (f : Sv → Sv) : (s.onSv f).rdr = s.rdr := rfl
@[simp] theorem onSv_sm (s : State) (f : Sv → Sv) : (s.onSv f).sm = s.sm := rfl
@[simp] theorem onSv_pu (s : State) (f : Sv → Sv) : (s.onSv f).pu = s.pu := rfl
@[simp] theorem onSv_rtc (s : State) (f : Sv → Sv) : (s.onSv f).rtc = s.rtc := rfl
@[simp] theorem onSv_sv (s : State) (f : Sv → Sv) : (s.onSv f).sv = f s.sv := rfl
@[simp] theorem onSv_hm (s : State) (f : Sv → Sv) : (s.onSv f).hm = s.hm := rfl
@[simp] theorem onSv_eu (s : State) (f : Sv → Sv) : (s.onSv f).eu = s.eu := rfl
@[simp] theorem onSv_sensors (s : State) (f : Sv → Sv) : (s.onSv f).sensors = s.sensors := rfl
@[simp] theorem onSv_tape (s : State) (f : Sv → Sv) : (s.onSv f).tape = s.tape := rfl
@[simp] theorem onSv_free (s : State) (f : Sv → Sv) : (s.onSv f).free = s.free := rfl
@[simp] theorem onSv_pending (s : State) (f : Sv → Sv) : (s.onSv f).pending = s.pending := rfl
@[simp] theorem onHm_spu (s : State) (f : Hm → Hm) : (s.onHm f).spu = s.spu := rfl
@[simp] theorem onHm_cu (s : State) (f : Hm → Hm) : (s.onHm f).cu = s.cu := rfl
@[simp] theorem onHm_rc (s : State) (f : Hm → Hm) : (s.onHm f).rc = s.rc := rfl
@[simp] theorem onHm_rx (s : State) (f : Hm → Hm) : (s.onHm f).rx = s.rx := rfl
@[simp] theorem onHm_dbm (s : State) (f : Hm → Hm) : (s.onHm f).dbm = s.dbm := rfl
@[simp] theorem onHm_wf (s : State) (f : Hm → Hm) : (s.onHm f).wf = s.wf := rfl
@[simp] theorem onHm_rdr (s : State) (f : Hm → Hm) : (s.onHm f).rdr = s.rdr := rfl
@[simp] theorem onHm_sm (s : State) (f : Hm → Hm) : (s.onHm f).sm = s.sm := rfl
@[simp] theorem onHm_pu (s : State) (f : Hm → Hm) : (s.onHm f).pu = s.pu := rfl
@[simp] theorem onHm_rtc (s : State) (f : Hm → Hm) : (s.onHm f).rtc = s.rtc := rfl
@[simp] theorem onHm_sv (s : State) (f : Hm → Hm) : (s.onHm f).sv = s.sv := rfl
@[simp] theorem onHm_hm (s : State) (f : Hm → Hm) : (s.onHm f).hm = f s.hm := rfl
@[simp] theorem onHm_eu (s : State) (f : Hm → Hm) : (s.onHm f).eu = s.eu := rfl
@[simp] theorem onHm_sensors (s : State) (f : Hm → Hm) : (s.onHm f).sensors = s.sensors := rfl
@[simp] theorem onHm_tape (s : State) (f : Hm → Hm) : (s.onHm f).tape = s.tape := rfl
@[simp] theorem onHm_free (s : State) (f : Hm → Hm) : (s.onHm f).free = s.free := rfl
@[simp] theorem onHm_pending (s : State) (f : Hm → Hm) : (s.onHm f).pending = s.pending := rfl
@[simp] theorem onEu_spu (s : State) (f : Eu → Eu) : (s.onEu f).spu = s.spu := rfl
@[simp] theorem onEu_cu (s : State) (f : Eu → Eu) : (s.onEu f).cu = s.cu := rfl
@[simp] theorem onEu_rc (s : State) (f : Eu → Eu) : (s.onEu f).rc = s.rc := rfl
@[simp] theorem onEu_rx (s : State) (f : Eu → Eu) : (s.onEu f).rx = s.rx := rfl
@[simp] theorem onEu_dbm (s : State) (f : Eu → Eu) : (s.onEu f).dbm = s.dbm := rfl
@[simp] theorem onEu_wf (s : State) (f : Eu → Eu) : (s.onEu f).wf = s.wf := rfl
@[simp] theorem onEu_rdr (s : State) (f : Eu → Eu) : (s.onEu f).rdr = s.rdr := rfl
@[simp] theorem onEu_sm (s : State) (f : Eu → Eu) : (s.onEu f).sm = s.sm := rfl
@[simp] theorem onEu_pu (s : State) (f : Eu → Eu) : (s.onEu f).pu = s.pu := rfl
@[simp] theorem onEu_rtc (s : State) (f : Eu → Eu) : (s.onEu f).rtc = s.rtc := rfl
@[simp] theorem onEu_sv (s : State) (f : Eu → Eu) : (s.onEu f).sv = s.sv := rfl
@[simp] theorem onEu_hm (s : State) (f : Eu → Eu) : (s.onEu f).hm = s.hm := rfl
@[simp] theorem onEu_eu (s : State) (f : Eu → Eu) : (s.onEu f).eu = f s.eu := rfl
@[simp] theorem onEu_sensors (s : State) (f : Eu → Eu) : (s.onEu f).sensors = s.sensors := rfl
@[simp] theorem onEu_tape (s : State) (f : Eu → Eu) : (s.onEu f).tape = s.tape := rfl
@[simp] theorem onEu_free (s : State) (f : Eu → Eu) : (s.onEu f).free = s.free := rfl
@[simp] theorem onEu_pending (s : State) (f : Eu → Eu) : (s.onEu f).pending = s.pending := rfl
@[simp] theorem onSensors_spu (s : State) (f : Sensors → Sensors) : (s.onSensors f).spu = s.spu := rfl
@[simp] theorem onSensors_cu (s : State) (f : Sensors → Sensors) : (s.onSensors f).cu = s.cu := rfl
@[simp] theorem onSensors_rc (s : State) (f : Sensors → Sensors) : (s.onSensors f).rc = s.rc := rfl
@[simp] theorem onSensors_rx (s : State) (f : Sensors → Sensors) : (s.onSensors f).rx = s.rx := rfl
@[simp] theorem onSensors_dbm (s : State) (f : Sensors → Sensors) : (s.onSensors f).dbm = s.dbm := rfl
@[simp] theorem onSensors_wf (s : State) (f : Sensors → Sensors) : (s.onSensors f).wf = s.wf := rfl
@[simp] theorem onSensors_rdr (s : State) (f : Sensors → Sensors) : (s.onSensors f).rdr = s.rdr := rfl
@[simp] theorem onSensors_sm (s : State) (f : Sensors → Sensors) : (s.onSensors f).sm = s.sm := rfl
@[simp] theorem onSensors_pu (s : State) (f : Sensors → Sensors) : (s.onSensors f).pu = s.pu := rfl
@[simp] theorem onSensors_rtc (s : State) (f : Sensors → Sensors) : (s.onSensors f).rtc = s.rtc := rfl
@[simp] theorem onSensors_sv (s : State) (f : Sensors → Sensors) : (s.onSensors f).sv = s.sv := rfl
@[simp] theorem onSensors_hm (s : State) (f : Sensors → Sensors) : (s.onSensors f).hm = s.hm := rfl
@[simp] theorem onSensors_eu (s : State) (f : Sensors → Sensors) : (s.onSensors f).eu = s.eu := rfl
@[simp] theorem onSensors_sensors (s : State) (f : Sensors → Sensors) : (s.onSensors f).sensors = f s.sensors := rfl
@[simp] theorem onSensors_tape (s : State) (f : Sensors → Sensors) : (s.onSensors f).tape = s.tape := rfl
@[simp] theorem onSensors_free (s : State) (f : Sensors → Sensors) : (s.onSensors f).free = s.free := rfl
@[simp] theorem onSensors_pending (s : State) (f : Sensors → Sensors) : (s.onSensors f).pending = s.pending := rfl
@[simp] theorem onTape_spu (s : State) (f : List TapeWrite → List TapeWrite) : (s.onTape f).spu = s.spu := rfl
@[simp] theorem onTape_cu (s : State) (f : List TapeWrite → List TapeWrite) : (s.onTape f).cu = s.cu := rfl
@[simp] theorem onTape_rc (s : State) (f : List TapeWrite → List TapeWrite) : (s.onTape f).rc = s.rc := rfl
@[simp] theorem onTape_rx (s : State) (f : List TapeWrite → List TapeWrite) : (s.onTape f).rx = s.rx := rfl
@[simp] theorem onTape_dbm (s : State) (f : List TapeWrite → List TapeWrite) : (s.onTape f).dbm = s.dbm := rfl
@[simp] theorem onTape_wf (s : State) (f : List TapeWrite → List TapeWrite) : (s.onTape f).wf = s.wf := rfl
@[simp] theorem onTape_rdr (s : State) (f : List TapeWrite → List TapeWrite) : (s.onTape f).rdr = s.rdr := rfl
@[simp] theorem onTape_sm (s : State) (f : List TapeWrite → List TapeWrite) : (s.onTape f).sm = s.sm := rfl
@[simp] theorem onTape_pu (s : State) (f : List TapeWrite → List TapeWrite) : (s.onTape f).pu = s.pu := rfl
@[simp] theorem onTape_rtc (s : State) (f : List TapeWrite → List TapeWrite) : (s.onTape f).rtc = s.rtc := rfl
@[simp] theorem onTape_sv (s : State) (f : List TapeWrite → List TapeWrite) : (s.onTape f).sv = s.sv := rfl
@[simp] theorem onTape_hm (s : State) (f : List TapeWrite → List TapeWrite) : (s.onTape f).hm = s.hm := rfl
@[simp] theorem onTape_eu (s : State) (f : List TapeWrite → List TapeWrite) : (s.onTape f).eu = s.eu := rfl
@[simp] theorem onTape_sensors (s : State) (f : List TapeWrite → List TapeWrite) : (s.onTape f).sensors = s.sensors := rfl
@[simp] theorem onTape_tape (s : State) (f : List TapeWrite → List TapeWrite) : (s.onTape f).tape = f s.tape := rfl
@[simp] theorem onTape_free (s : State) (f : List TapeWrite → List TapeWrite) : (s.onTape f).free = s.free := rfl
@[simp] theorem onTape_pending (s : State) (f : List TapeWrite → List TapeWrite) : (s.onTape f).pending = s.pending := rfl
@[simp] theorem setFree_spu (s : State) (x : Nat) : (s.setFree x).spu = s.spu := rfl
@[simp] theorem setFree_cu (s : State) (x : Nat) : (s.setFree x).cu = s.cu := rfl
@[simp] theorem setFree_rc (s : State) (x : Nat) : (s.setFree x).rc = s.rc := rfl
@[simp] theorem setFree_rx (s : State) (x : Nat) : (s.setFree x).rx = s.rx := rfl
@[simp] theorem setFree_dbm (s : State) (x : Nat) : (s.setFree x).dbm = s.dbm := rfl
@[simp] theorem setFree_wf (s : State) (x : Nat) : (s.setFree x).wf = s.wf := rfl
@[simp] theorem setFree_rdr (s : State) (x : Nat) : (s.setFree x).rdr = s.rdr := rfl
@[simp] theorem setFree_sm (s : State) (x : Nat) : (s.setFree x).sm = s.sm := rfl
@[simp] theorem setFree_pu (s : State) (x : Nat) : (s.setFree x).pu = s.pu := rfl
@[simp] theorem setFree_rtc (s : State) (x : Nat) : (s.setFree x).rtc = s.rtc := rfl
@[simp] theorem setFree_sv (s : State) (x : Nat) : (s.setFree x).sv = s.sv := rfl
@[simp] theorem setFree_hm (s : State) (x : Nat) : (s.setFree x).hm = s.hm := rfl
@[simp] theorem setFree_eu (s : State) (x : Nat) : (s.setFree x).eu = s.eu := rfl
@[simp] theorem setFree_sensors (s : State) (x : Nat) : (s.setFree x).sensors = s.sensors := rfl
@[simp] theorem setFree_tape (s : State) (x : Nat) : (s.setFree x).tape = s.tape := rfl
@[simp] theorem setFree_free (s : State) (x : Nat) : (s.setFree x).free = x := rfl
@[simp] theorem setFree_pending (s : State) (x : Nat) : (s.setFree x).pending = s.pending := rfl
@[simp] theorem setPending_spu (s : State) (x : List Instr) : (s.setPending x).spu = s.spu := rfl
@[simp] theorem setPending_cu (s : State) (x : List Instr) : (s.setPending x).cu = s.cu := rfl
@[simp] theorem setPending_rc (s : State) (x : List Instr) : (s.setPending x).rc = s.rc := rfl
@[simp] theorem setPending_rx (s : State) (x : List Instr) : (s.setPending x).rx = s.rx := rfl
@[simp] theorem setPending_dbm (s : State) (x : List Instr) : (s.setPending x).dbm = s.dbm := rfl
@[simp] theorem setPending_wf (s : State) (x : List Instr) : (s.setPending x).wf = s.wf := rfl
@[simp] theorem setPending_rdr (s : State) (x : List Instr) : (s.setPending x).rdr = s.rdr := rfl
@[simp] theorem setPending_sm (s : State) (x : List Instr) : (s.setPending x).sm = s.sm := rfl
@[simp] theorem setPending_pu (s : State) (x : List Instr) : (s.setPending x).pu = s.pu := rfl
@[simp] theorem setPending_rtc (s : State) (x : List Instr) : (s.setPending x).rtc = s.rtc := rfl
@[simp] theorem setPending_sv (s : State) (x : List Instr) : (s.setPending x).sv = s.sv := rfl
@[simp] theorem setPending_hm (s : State) (x : List Instr) : (s.setPending x).hm = s.hm := rfl
@[simp] theorem setPending_eu (s : State) (x : List Instr) : (s.setPending x).eu = s.eu := rfl
@[simp] theorem setPending_sensors (s : State) (x : List Instr) : (s.setPending x).sensors = s.sensors := rfl
@[simp] theorem setPending_tape (s : State) (x : List Instr) : (s.setPending x).tape = s.tape := rfl
@[simp] theorem setPending_free (s : State) (x : List Instr) : (s.setPending x).free = s.free := rfl
@[simp] theorem setPending_pending (s : State) (x : List Instr) : (s.setPending x).pending = x := rfl
@[simp] theorem when_true (s : State) (f : State → State) : s.when true f = f s := rfl
@[simp] theorem when_false (s : State) (f : State → State) : s.when false f = s := rfl

@[simp] theorem send_cu (s : State) (p : Packet) : (s.send p).cu = s.cu := rfl
@[simp] theorem send_rc (s : State) (p : Packet) : (s.send p).rc = s.rc := rfl
@[simp] theorem send_rx (s : State) (p : Packet) : (s.send p).rx = s.rx := rfl
@[simp] theorem send_dbm (s : State) (p : Packet) : (s.send p).dbm = s.dbm := rfl
@[simp] theorem send_wf (s : State) (p : Packet) : (s.send p).wf = s.wf := rfl
@[simp] theorem send_rdr (s : State) (p : Packet) : (s.send p).rdr = s.rdr := rfl
@[simp] theorem send_sm (s : State) (p : Packet) : (s.send p).sm = s.sm := rfl
@[simp] theorem send_pu (s : State) (p : Packet) : (s.send p).pu = s.pu := rfl
@[simp] theorem send_rtc (s : State) (p : Packet) : (s.send p).rtc = s.rtc := rfl
@[simp] theorem send_sv (s : State) (p : Packet) : (s.send p).sv = s.sv := rfl
@[simp] theorem send_hm (s : State) (p : Packet) : (s.send p).hm = s.hm := rfl
@[simp] theorem send_eu (s : State) (p : Packet) : (s.send p).eu = s.eu := rfl
@[simp] theorem send_sensors (s : State) (p : Packet) : (s.send p).sensors = s.sensors := rfl
@[simp] theorem send_tape (s : State) (p : Packet) : (s.send p).tape = s.tape := rfl
@[simp] theorem send_free (s : State) (p : Packet) : (s.send p).free = s.free := rfl
@[simp] theorem send_pending (s : State) (p : Packet) : (s.send p).pending = s.pending := rfl
@[simp] theorem send_spu (s : State) (p : Packet) : (s.send p).spu = { s.spu with out := s.spu.out ++ [p] } := rfl

end Sys2Proof.Laws
end

