-- ==== Sys2Proof/Laws/Ops.lean ====
section
/-!
SUPPORT. Ops.lean: what the shared operations can change: an event touches the Event Unit and the outbound packets, a completion
the queue and the packets, a direction the buffer and the Speed Matcher, a motion goal the reels and what follows them.
-/
namespace Sys2Proof.Laws
open Sys2Proof.Machine

@[simp] theorem raise_cu (s : State) (ev : Event) : (s.raise ev).cu = s.cu := by
  unfold State.raise State.when
  dsimp only
  split <;> rfl
@[simp] theorem raise_rc (s : State) (ev : Event) : (s.raise ev).rc = s.rc := by
  unfold State.raise State.when
  dsimp only
  split <;> rfl
@[simp] theorem raise_rx (s : State) (ev : Event) : (s.raise ev).rx = s.rx := by
  unfold State.raise State.when
  dsimp only
  split <;> rfl
@[simp] theorem raise_dbm (s : State) (ev : Event) : (s.raise ev).dbm = s.dbm := by
  unfold State.raise State.when
  dsimp only
  split <;> rfl
@[simp] theorem raise_wf (s : State) (ev : Event) : (s.raise ev).wf = s.wf := by
  unfold State.raise State.when
  dsimp only
  split <;> rfl
@[simp] theorem raise_rdr (s : State) (ev : Event) : (s.raise ev).rdr = s.rdr := by
  unfold State.raise State.when
  dsimp only
  split <;> rfl
@[simp] theorem raise_sm (s : State) (ev : Event) : (s.raise ev).sm = s.sm := by
  unfold State.raise State.when
  dsimp only
  split <;> rfl
@[simp] theorem raise_pu (s : State) (ev : Event) : (s.raise ev).pu = s.pu := by
  unfold State.raise State.when
  dsimp only
  split <;> rfl
@[simp] theorem raise_rtc (s : State) (ev : Event) : (s.raise ev).rtc = s.rtc := by
  unfold State.raise State.when
  dsimp only
  split <;> rfl
@[simp] theorem raise_sv (s : State) (ev : Event) : (s.raise ev).sv = s.sv := by
  unfold State.raise State.when
  dsimp only
  split <;> rfl
@[simp] theorem raise_hm (s : State) (ev : Event) : (s.raise ev).hm = s.hm := by
  unfold State.raise State.when
  dsimp only
  split <;> rfl
@[simp] theorem raise_sensors (s : State) (ev : Event) : (s.raise ev).sensors = s.sensors := by
  unfold State.raise State.when
  dsimp only
  split <;> rfl
@[simp] theorem raise_tape (s : State) (ev : Event) : (s.raise ev).tape = s.tape := by
  unfold State.raise State.when
  dsimp only
  split <;> rfl
@[simp] theorem raise_free (s : State) (ev : Event) : (s.raise ev).free = s.free := by
  unfold State.raise State.when
  dsimp only
  split <;> rfl
@[simp] theorem raise_pending (s : State) (ev : Event) : (s.raise ev).pending = s.pending := by
  unfold State.raise State.when
  dsimp only
  split <;> rfl
/-- An event leaves the Stream Port's counts. -/
@[simp] theorem raise_credits (s : State) (ev : Event) : (s.raise ev).spu.credits = s.spu.credits := by
  unfold State.raise State.when
  dsimp only
  split <;> rfl
@[simp] theorem raise_readCredits (s : State) (ev : Event) : (s.raise ev).spu.readCredits = s.spu.readCredits := by
  unfold State.raise State.when
  dsimp only
  split <;> rfl
@[simp] theorem raise_linkErrors (s : State) (ev : Event) : (s.raise ev).spu.linkErrors = s.spu.linkErrors := by
  unfold State.raise State.when
  dsimp only
  split <;> rfl
/-- The Event Unit after an event: the occurrence taken at its latch. -/
@[simp] theorem raise_eu (s : State) (ev : Event) : (s.raise ev).eu = s.eu.occur ev.num := by
  unfold State.raise State.when
  dsimp only
  split <;> rfl
/-- An event leaves its latch set. -/
theorem occur_sets (e : Eu) (i : Fin 32) : (e.occur i).latches[i].set = true := by
  unfold Eu.occur
  dsimp only
  split
  · next h => simpa using h
  · simp [Eu.judge]
/-- An event leaves a latch that was set, set. -/
theorem occur_keeps (e : Eu) (i j : Fin 32) (h : e.latches[j].set = true) : (e.occur i).latches[j].set = true := by
  by_cases hij : i = j
  · subst hij
    exact occur_sets e i
  · have hv : i.val ≠ j.val := fun k => hij (Fin.ext k)
    unfold Eu.occur
    dsimp only
    split <;> simp [Eu.judge, hv] <;> exact h

@[simp] theorem complete_rc (s : State) (code : Code) (res : Results) : (s.complete code res).rc = s.rc := by
  unfold State.complete
  split
  · rfl
  · dsimp only
    split <;> rfl
@[simp] theorem complete_rx (s : State) (code : Code) (res : Results) : (s.complete code res).rx = s.rx := by
  unfold State.complete
  split
  · rfl
  · dsimp only
    split <;> rfl
@[simp] theorem complete_dbm (s : State) (code : Code) (res : Results) : (s.complete code res).dbm = s.dbm := by
  unfold State.complete
  split
  · rfl
  · dsimp only
    split <;> rfl
@[simp] theorem complete_wf (s : State) (code : Code) (res : Results) : (s.complete code res).wf = s.wf := by
  unfold State.complete
  split
  · rfl
  · dsimp only
    split <;> rfl
@[simp] theorem complete_rdr (s : State) (code : Code) (res : Results) : (s.complete code res).rdr = s.rdr := by
  unfold State.complete
  split
  · rfl
  · dsimp only
    split <;> rfl
@[simp] theorem complete_sm (s : State) (code : Code) (res : Results) : (s.complete code res).sm = s.sm := by
  unfold State.complete
  split
  · rfl
  · dsimp only
    split <;> rfl
@[simp] theorem complete_pu (s : State) (code : Code) (res : Results) : (s.complete code res).pu = s.pu := by
  unfold State.complete
  split
  · rfl
  · dsimp only
    split <;> rfl
@[simp] theorem complete_rtc (s : State) (code : Code) (res : Results) : (s.complete code res).rtc = s.rtc := by
  unfold State.complete
  split
  · rfl
  · dsimp only
    split <;> rfl
@[simp] theorem complete_sv (s : State) (code : Code) (res : Results) : (s.complete code res).sv = s.sv := by
  unfold State.complete
  split
  · rfl
  · dsimp only
    split <;> rfl
@[simp] theorem complete_hm (s : State) (code : Code) (res : Results) : (s.complete code res).hm = s.hm := by
  unfold State.complete
  split
  · rfl
  · dsimp only
    split <;> rfl
@[simp] theorem complete_eu (s : State) (code : Code) (res : Results) : (s.complete code res).eu = s.eu := by
  unfold State.complete
  split
  · rfl
  · dsimp only
    split <;> rfl
@[simp] theorem complete_sensors (s : State) (code : Code) (res : Results) : (s.complete code res).sensors = s.sensors := by
  unfold State.complete
  split
  · rfl
  · dsimp only
    split <;> rfl
@[simp] theorem complete_tape (s : State) (code : Code) (res : Results) : (s.complete code res).tape = s.tape := by
  unfold State.complete
  split
  · rfl
  · dsimp only
    split <;> rfl
@[simp] theorem complete_free (s : State) (code : Code) (res : Results) : (s.complete code res).free = s.free := by
  unfold State.complete
  split
  · rfl
  · dsimp only
    split <;> rfl
@[simp] theorem complete_pending (s : State) (code : Code) (res : Results) : (s.complete code res).pending = s.pending := by
  unfold State.complete
  split
  · rfl
  · dsimp only
    split <;> rfl
/-- A completion takes the head off the queue. -/
@[simp] theorem complete_queue (s : State) (code : Code) (res : Results) : (s.complete code res).cu.queue = s.cu.queue.tail := by
  unfold State.complete
  split
  · next h => simp [h]
  · next h =>
    dsimp only
    split <;> simp [h, State.send, State.onSpu, State.onCu]

@[simp] theorem setDirection_spu (s : State) (d : BufferDirection) : (s.setDirection d).spu = s.spu := by
  unfold State.setDirection
  split
  · rfl
  · dsimp only
    split <;> rfl
@[simp] theorem setDirection_cu (s : State) (d : BufferDirection) : (s.setDirection d).cu = s.cu := by
  unfold State.setDirection
  split
  · rfl
  · dsimp only
    split <;> rfl
@[simp] theorem setDirection_wf (s : State) (d : BufferDirection) : (s.setDirection d).wf = s.wf := by
  unfold State.setDirection
  split
  · rfl
  · dsimp only
    split <;> rfl
@[simp] theorem setDirection_rdr (s : State) (d : BufferDirection) : (s.setDirection d).rdr = s.rdr := by
  unfold State.setDirection
  split
  · rfl
  · dsimp only
    split <;> rfl
@[simp] theorem setDirection_pu (s : State) (d : BufferDirection) : (s.setDirection d).pu = s.pu := by
  unfold State.setDirection
  split
  · rfl
  · dsimp only
    split <;> rfl
@[simp] theorem setDirection_rtc (s : State) (d : BufferDirection) : (s.setDirection d).rtc = s.rtc := by
  unfold State.setDirection
  split
  · rfl
  · dsimp only
    split <;> rfl
@[simp] theorem setDirection_sv (s : State) (d : BufferDirection) : (s.setDirection d).sv = s.sv := by
  unfold State.setDirection
  split
  · rfl
  · dsimp only
    split <;> rfl
@[simp] theorem setDirection_hm (s : State) (d : BufferDirection) : (s.setDirection d).hm = s.hm := by
  unfold State.setDirection
  split
  · rfl
  · dsimp only
    split <;> rfl
@[simp] theorem setDirection_eu (s : State) (d : BufferDirection) : (s.setDirection d).eu = s.eu := by
  unfold State.setDirection
  split
  · rfl
  · dsimp only
    split <;> rfl
@[simp] theorem setDirection_sensors (s : State) (d : BufferDirection) : (s.setDirection d).sensors = s.sensors := by
  unfold State.setDirection
  split
  · rfl
  · dsimp only
    split <;> rfl
@[simp] theorem setDirection_tape (s : State) (d : BufferDirection) : (s.setDirection d).tape = s.tape := by
  unfold State.setDirection
  split
  · rfl
  · dsimp only
    split <;> rfl
@[simp] theorem setDirection_free (s : State) (d : BufferDirection) : (s.setDirection d).free = s.free := by
  unfold State.setDirection
  split
  · rfl
  · dsimp only
    split <;> rfl
@[simp] theorem setDirection_pending (s : State) (d : BufferDirection) : (s.setDirection d).pending = s.pending := by
  unfold State.setDirection
  split
  · rfl
  · dsimp only
    split <;> rfl
/-- The reels at rest are SETTLING at the place given, whatever goal stands (R133). -/
theorem rest_spec (s : State) (x : Nat) :
    (s.rest x).1.rtc.motion = .settling ∧ (s.rest x).1.rtc.place = some x ∧ (s.rest x).1.rtc.travel = none := by
  unfold State.rest
  dsimp only
  split <;> first | exact ⟨rfl, rfl, rfl⟩ | (split <;> exact ⟨rfl, rfl, rfl⟩)

end Sys2Proof.Laws
end

