-- ==== Sys2Proof/Laws/Position.lean ====
section
/-!
SUPPORT. Position.lean: what the shared operations that move or interrupt a search answer: the anchor of an object a space came to (R115,
R116, log 69), the position an interrupted scan leaves (R117), the Reader an ABORT leaves (R97).
-/
namespace Sys2Proof.Machine

/-- At or beyond a known EOD the anchor is the EOD's (R115 step 1). -/
theorem spaceAnchor_at_eod {s : State} {c : Scan} {o : Nat} {k : EodKnown} (h : s.eodHere = some k) (le : k.object ≤ o) :
    s.spaceAnchor c o = k.anchor := by
  have ended : s.eodHere.filter (fun k => decide (k.object ≤ o)) = some k := by simp [h, Option.filter, le]
  simp only [State.spaceAnchor, ended]

/-- The object lies below the EOD as far as that is known. -/
theorem eodHere_filter_none {s : State} {o : Nat} (below : ∀ k, s.eodHere = some k → o < k.object) :
    s.eodHere.filter (fun k => decide (k.object ≤ o)) = none := by
  cases h : s.eodHere with
  | none => rfl
  | some k => simpa using below k h

/-- Below the EOD an object that the proven datasets place has their anchor (R115 step 4). -/
theorem spaceAnchor_placed {s : State} {c : Scan} {o : Nat} {a : Nat × Loc} (below : ∀ k, s.eodHere = some k → o < k.object)
    (h : c.place (c.bound (s.eodHere.map (fun k => (k.last, k.object)))) o = .placed a) : s.spaceAnchor c o = a := by
  simp [State.spaceAnchor, eodHere_filter_none below, h]

/-- An object that starts in the one dataset proven is placed there, with the span start of its first copy (R115 steps 3, 4). -/
theorem place_held {c : Scan} {d : Descriptor} {o : Nat} (one : c.proven = [d]) (held : d.holds o = true) (bound : Option Nat) :
    c.place bound o = .placed (d.dataset, d.start) := by
  have starts : ¬ o < d.starting := by
    unfold Descriptor.holds at held
    split at held <;> simp_all
  simp [Scan.place, one, around, starts, held]

/-- Object 0, with no dataset proven and the EOD above it, has the model's anchor: dataset 0 at the first data pitch (log 69). -/
theorem spaceAnchor_unmet {s : State} {c : Scan} (below : ∀ k, s.eodHere = some k → 0 < k.object) (none_ : c.proven = []) :
    s.spaceAnchor c 0 = (0, s.firstPitch) := by
  have unplaced (bound : Option Nat) : c.place bound 0 = .goOn := by simp [Scan.place, none_, around]
  simp only [State.spaceAnchor, eodHere_filter_none below, unplaced, if_true]

/-- What an interrupted scan leaves: the locate before a read the state as it was (R104); any other the last proven boundary, where it lies
between the scan's start and the target, or else the position as it was with the anchor cleared (R117). -/
theorem provenBoundary_cases (s : State) (c : Scan) :
    (c.purpose = .read ∧ s.provenBoundary c = s)
    ∨ (c.purpose ≠ .read ∧ s.provenBoundary c = s.positionKept)
    ∨ (c.purpose ≠ .read ∧ ∃ d, c.proven.getLast? = some d ∧ c.startObject ≤ d.starting ∧ d.starting ≤ s.scanTarget c
        ∧ s.provenBoundary c = s.positionProven d) := by
  unfold State.provenBoundary
  by_cases read : c.purpose = .read
  · exact .inl ⟨read, if_pos read⟩
  · rw [if_neg read]
    split
    · split
      · next d last between => exact .inr (.inr ⟨read, d, last, between.1, between.2, rfl⟩)
      · exact .inr (.inl ⟨read, rfl⟩)
    · exact .inr (.inl ⟨read, rfl⟩)

@[simp] theorem applyScheduled_rdr (s : State) : s.applyScheduled.rdr = s.rdr := by
  unfold State.applyScheduled
  split <;> simp [Laws.raise_rdr]

@[simp] theorem startMotion_rdr (s : State) : s.startMotion.rdr = s.rdr := by
  unfold State.startMotion State.beginShuttle State.tryAccelerate State.accelerate State.takeSpeed
  repeat' split
  all_goals simp

/-- A motion goal moves no Reader. -/
@[simp] theorem setGoal_rdr (s : State) (g : Goal) : (s.setGoal g).rdr = s.rdr := by
  unfold State.setGoal State.decelerate
  repeat' (first | split | dsimp only)
  all_goals simp

/-- The Reader stopped is IDLE with all that R97 drops, wherever it stood. -/
@[simp] theorem stopReader_rdr (s : State) : s.stopReader.rdr = Rdr.stopped s.rdr := by
  unfold State.stopReader State.when
  dsimp only
  split <;> split <;> simp

/-- An ABORT stops the Reader, but leaves a header read as it was (R97, R143, log 72). -/
theorem abortReader_rdr (s : State) :
    s.abortReader.rdr = if s.rdr.activity = .header then s.rdr else Rdr.stopped s.rdr := by
  unfold State.abortReader State.when
  by_cases h : s.rdr.activity = .header <;> simp [h]

end Sys2Proof.Machine
end

