-- ==== Sys2Proof/Laws/Writing.lean ====
section
/-!
SUPPORT. Writing.lean: what the shared operations of the write path can change: a cut-off touches the trace alone, what gives up a mark
the Write Formatter alone, what learns a count the Position Unit alone, a grant the Stream Port Unit alone, a row set the trace and the free-value counter.
-/
namespace Sys2Proof.Laws
open Sys2Proof.Machine

@[simp] theorem cutOff_spu (s : State) : s.cutOff.spu = s.spu := by
  unfold State.cutOff
  split <;> rfl
@[simp] theorem cutOff_cu (s : State) : s.cutOff.cu = s.cu := by
  unfold State.cutOff
  split <;> rfl
@[simp] theorem cutOff_rc (s : State) : s.cutOff.rc = s.rc := by
  unfold State.cutOff
  split <;> rfl
@[simp] theorem cutOff_rx (s : State) : s.cutOff.rx = s.rx := by
  unfold State.cutOff
  split <;> rfl
@[simp] theorem cutOff_dbm (s : State) : s.cutOff.dbm = s.dbm := by
  unfold State.cutOff
  split <;> rfl
@[simp] theorem cutOff_wf (s : State) : s.cutOff.wf = s.wf := by
  unfold State.cutOff
  split <;> rfl
@[simp] theorem cutOff_rdr (s : State) : s.cutOff.rdr = s.rdr := by
  unfold State.cutOff
  split <;> rfl
@[simp] theorem cutOff_sm (s : State) : s.cutOff.sm = s.sm := by
  unfold State.cutOff
  split <;> rfl
@[simp] theorem cutOff_pu (s : State) : s.cutOff.pu = s.pu := by
  unfold State.cutOff
  split <;> rfl
@[simp] theorem cutOff_rtc (s : State) : s.cutOff.rtc = s.rtc := by
  unfold State.cutOff
  split <;> rfl
@[simp] theorem cutOff_sv (s : State) : s.cutOff.sv = s.sv := by
  unfold State.cutOff
  split <;> rfl
@[simp] theorem cutOff_hm (s : State) : s.cutOff.hm = s.hm := by
  unfold State.cutOff
  split <;> rfl
@[simp] theorem cutOff_eu (s : State) : s.cutOff.eu = s.eu := by
  unfold State.cutOff
  split <;> rfl
@[simp] theorem cutOff_sensors (s : State) : s.cutOff.sensors = s.sensors := by
  unfold State.cutOff
  split <;> rfl
@[simp] theorem cutOff_free (s : State) : s.cutOff.free = s.free := by
  unfold State.cutOff
  split <;> rfl
@[simp] theorem cutOff_pending (s : State) : s.cutOff.pending = s.pending := by
  unfold State.cutOff
  split <;> rfl
/-- The trace after a cut-off: as it was, with the mark of the cut at its end where something was being written. -/
theorem cutOff_tape (s : State) : s.cutOff.tape = s.tape ++ (s.beingWritten.map TapeWrite.cutOff).toList := by
  unfold State.cutOff
  cases h : s.beingWritten <;> simp [State.onTape]
/-- A mark's pitch is the one the write point stands behind, in the write point's own partition (R44, R152). -/
theorem beingWritten_marking {s : State} {w p q n : Nat} {k : MarkKind} {start : Loc} (head : s.rtc.headWrap = some w)
    (here : s.sv.lastPlace = some (.pitch p)) (stage : s.wf.stage = .marking k start n)
    (point : s.wf.writePoint = some (q, s.afterIn q ⟨w, p⟩)) : s.beingWritten = some ⟨w, p⟩ := by
  simp [State.beingWritten, head, here, stage, point]
@[simp] theorem wfYield_spu (s : State) : s.wfYield.spu = s.spu := by
  unfold State.wfYield State.when
  split <;> simp [State.onWf]
@[simp] theorem wfYield_cu (s : State) : s.wfYield.cu = s.cu := by
  unfold State.wfYield State.when
  split <;> simp [State.onWf]
@[simp] theorem wfYield_rc (s : State) : s.wfYield.rc = s.rc := by
  unfold State.wfYield State.when
  split <;> simp [State.onWf]
@[simp] theorem wfYield_rx (s : State) : s.wfYield.rx = s.rx := by
  unfold State.wfYield State.when
  split <;> simp [State.onWf]
@[simp] theorem wfYield_dbm (s : State) : s.wfYield.dbm = s.dbm := by
  unfold State.wfYield State.when
  split <;> simp [State.onWf]
@[simp] theorem wfYield_rdr (s : State) : s.wfYield.rdr = s.rdr := by
  unfold State.wfYield State.when
  split <;> simp [State.onWf]
@[simp] theorem wfYield_sm (s : State) : s.wfYield.sm = s.sm := by
  unfold State.wfYield State.when
  split <;> simp [State.onWf]
@[simp] theorem wfYield_pu (s : State) : s.wfYield.pu = s.pu := by
  unfold State.wfYield State.when
  split <;> simp [State.onWf]
@[simp] theorem wfYield_rtc (s : State) : s.wfYield.rtc = s.rtc := by
  unfold State.wfYield State.when
  split <;> simp [State.onWf]
@[simp] theorem wfYield_sv (s : State) : s.wfYield.sv = s.sv := by
  unfold State.wfYield State.when
  split <;> simp [State.onWf]
@[simp] theorem wfYield_hm (s : State) : s.wfYield.hm = s.hm := by
  unfold State.wfYield State.when
  split <;> simp [State.onWf]
@[simp] theorem wfYield_eu (s : State) : s.wfYield.eu = s.eu := by
  unfold State.wfYield State.when
  split <;> simp [State.onWf]
@[simp] theorem wfYield_sensors (s : State) : s.wfYield.sensors = s.sensors := by
  unfold State.wfYield State.when
  split <;> simp [State.onWf]
/-- The trace after the Write Formatter yields: the pitch being written is cut off where a mark or a header span was in hand. -/
theorem wfYield_tape (s : State) : s.wfYield.tape = if s.wf.hasExtra then s.cutOff.tape else s.tape := by
  unfold State.wfYield State.when
  split <;> simp [State.onWf]
@[simp] theorem wfYield_free (s : State) : s.wfYield.free = s.free := by
  unfold State.wfYield State.when
  split <;> simp [State.onWf]
@[simp] theorem wfYield_pending (s : State) : s.wfYield.pending = s.pending := by
  unfold State.wfYield State.when
  split <;> simp [State.onWf]
@[simp] theorem learnFilemarks_spu (s : State) (p d f : Nat) : (s.learnFilemarks p d f).spu = s.spu := by
  unfold State.learnFilemarks State.when
  dsimp only
  split <;> rfl
@[simp] theorem learnFilemarks_cu (s : State) (p d f : Nat) : (s.learnFilemarks p d f).cu = s.cu := by
  unfold State.learnFilemarks State.when
  dsimp only
  split <;> rfl
@[simp] theorem learnFilemarks_rc (s : State) (p d f : Nat) : (s.learnFilemarks p d f).rc = s.rc := by
  unfold State.learnFilemarks State.when
  dsimp only
  split <;> rfl
@[simp] theorem learnFilemarks_rx (s : State) (p d f : Nat) : (s.learnFilemarks p d f).rx = s.rx := by
  unfold State.learnFilemarks State.when
  dsimp only
  split <;> rfl
@[simp] theorem learnFilemarks_dbm (s : State) (p d f : Nat) : (s.learnFilemarks p d f).dbm = s.dbm := by
  unfold State.learnFilemarks State.when
  dsimp only
  split <;> rfl
@[simp] theorem learnFilemarks_wf (s : State) (p d f : Nat) : (s.learnFilemarks p d f).wf = s.wf := by
  unfold State.learnFilemarks State.when
  dsimp only
  split <;> rfl
@[simp] theorem learnFilemarks_rdr (s : State) (p d f : Nat) : (s.learnFilemarks p d f).rdr = s.rdr := by
  unfold State.learnFilemarks State.when
  dsimp only
  split <;> rfl
@[simp] theorem learnFilemarks_sm (s : State) (p d f : Nat) : (s.learnFilemarks p d f).sm = s.sm := by
  unfold State.learnFilemarks State.when
  dsimp only
  split <;> rfl
@[simp] theorem learnFilemarks_rtc (s : State) (p d f : Nat) : (s.learnFilemarks p d f).rtc = s.rtc := by
  unfold State.learnFilemarks State.when
  dsimp only
  split <;> rfl
@[simp] theorem learnFilemarks_sv (s : State) (p d f : Nat) : (s.learnFilemarks p d f).sv = s.sv := by
  unfold State.learnFilemarks State.when
  dsimp only
  split <;> rfl
@[simp] theorem learnFilemarks_hm (s : State) (p d f : Nat) : (s.learnFilemarks p d f).hm = s.hm := by
  unfold State.learnFilemarks State.when
  dsimp only
  split <;> rfl
@[simp] theorem learnFilemarks_eu (s : State) (p d f : Nat) : (s.learnFilemarks p d f).eu = s.eu := by
  unfold State.learnFilemarks State.when
  dsimp only
  split <;> rfl
@[simp] theorem learnFilemarks_sensors (s : State) (p d f : Nat) : (s.learnFilemarks p d f).sensors = s.sensors := by
  unfold State.learnFilemarks State.when
  dsimp only
  split <;> rfl
@[simp] theorem learnFilemarks_tape (s : State) (p d f : Nat) : (s.learnFilemarks p d f).tape = s.tape := by
  unfold State.learnFilemarks State.when
  dsimp only
  split <;> rfl
@[simp] theorem learnFilemarks_free (s : State) (p d f : Nat) : (s.learnFilemarks p d f).free = s.free := by
  unfold State.learnFilemarks State.when
  dsimp only
  split <;> rfl
@[simp] theorem learnFilemarks_pending (s : State) (p d f : Nat) : (s.learnFilemarks p d f).pending = s.pending := by
  unfold State.learnFilemarks State.when
  dsimp only
  split <;> rfl
@[simp] theorem grantCredits_cu (s : State) : s.grantCredits.cu = s.cu := by
  unfold State.grantCredits
  dsimp only
  split <;> rfl
@[simp] theorem grantOnRise_cu (s : State) (was : Nat) : (s.grantOnRise was).cu = s.cu := by
  unfold State.grantOnRise
  split
  · exact grantCredits_cu s
  · rfl
@[simp] theorem grantCredits_rc (s : State) : s.grantCredits.rc = s.rc := by
  unfold State.grantCredits
  dsimp only
  split <;> rfl
@[simp] theorem grantOnRise_rc (s : State) (was : Nat) : (s.grantOnRise was).rc = s.rc := by
  unfold State.grantOnRise
  split
  · exact grantCredits_rc s
  · rfl
@[simp] theorem grantCredits_rx (s : State) : s.grantCredits.rx = s.rx := by
  unfold State.grantCredits
  dsimp only
  split <;> rfl
@[simp] theorem grantOnRise_rx (s : State) (was : Nat) : (s.grantOnRise was).rx = s.rx := by
  unfold State.grantOnRise
  split
  · exact grantCredits_rx s
  · rfl
@[simp] theorem grantCredits_dbm (s : State) : s.grantCredits.dbm = s.dbm := by
  unfold State.grantCredits
  dsimp only
  split <;> rfl
@[simp] theorem grantOnRise_dbm (s : State) (was : Nat) : (s.grantOnRise was).dbm = s.dbm := by
  unfold State.grantOnRise
  split
  · exact grantCredits_dbm s
  · rfl
@[simp] theorem grantCredits_wf (s : State) : s.grantCredits.wf = s.wf := by
  unfold State.grantCredits
  dsimp only
  split <;> rfl
@[simp] theorem grantOnRise_wf (s : State) (was : Nat) : (s.grantOnRise was).wf = s.wf := by
  unfold State.grantOnRise
  split
  · exact grantCredits_wf s
  · rfl
@[simp] theorem grantCredits_rdr (s : State) : s.grantCredits.rdr = s.rdr := by
  unfold State.grantCredits
  dsimp only
  split <;> rfl
@[simp] theorem grantOnRise_rdr (s : State) (was : Nat) : (s.grantOnRise was).rdr = s.rdr := by
  unfold State.grantOnRise
  split
  · exact grantCredits_rdr s
  · rfl
@[simp] theorem grantCredits_sm (s : State) : s.grantCredits.sm = s.sm := by
  unfold State.grantCredits
  dsimp only
  split <;> rfl
@[simp] theorem grantOnRise_sm (s : State) (was : Nat) : (s.grantOnRise was).sm = s.sm := by
  unfold State.grantOnRise
  split
  · exact grantCredits_sm s
  · rfl
@[simp] theorem grantCredits_pu (s : State) : s.grantCredits.pu = s.pu := by
  unfold State.grantCredits
  dsimp only
  split <;> rfl
@[simp] theorem grantOnRise_pu (s : State) (was : Nat) : (s.grantOnRise was).pu = s.pu := by
  unfold State.grantOnRise
  split
  · exact grantCredits_pu s
  · rfl
@[simp] theorem grantCredits_rtc (s : State) : s.grantCredits.rtc = s.rtc := by
  unfold State.grantCredits
  dsimp only
  split <;> rfl
@[simp] theorem grantOnRise_rtc (s : State) (was : Nat) : (s.grantOnRise was).rtc = s.rtc := by
  unfold State.grantOnRise
  split
  · exact grantCredits_rtc s
  · rfl
@[simp] theorem grantCredits_sv (s : State) : s.grantCredits.sv = s.sv := by
  unfold State.grantCredits
  dsimp only
  split <;> rfl
@[simp] theorem grantOnRise_sv (s : State) (was : Nat) : (s.grantOnRise was).sv = s.sv := by
  unfold State.grantOnRise
  split
  · exact grantCredits_sv s
  · rfl
@[simp] theorem grantCredits_hm (s : State) : s.grantCredits.hm = s.hm := by
  unfold State.grantCredits
  dsimp only
  split <;> rfl
@[simp] theorem grantOnRise_hm (s : State) (was : Nat) : (s.grantOnRise was).hm = s.hm := by
  unfold State.grantOnRise
  split
  · exact grantCredits_hm s
  · rfl
@[simp] theorem grantCredits_eu (s : State) : s.grantCredits.eu = s.eu := by
  unfold State.grantCredits
  dsimp only
  split <;> rfl
@[simp] theorem grantOnRise_eu (s : State) (was : Nat) : (s.grantOnRise was).eu = s.eu := by
  unfold State.grantOnRise
  split
  · exact grantCredits_eu s
  · rfl
@[simp] theorem grantCredits_sensors (s : State) : s.grantCredits.sensors = s.sensors := by
  unfold State.grantCredits
  dsimp only
  split <;> rfl
@[simp] theorem grantOnRise_sensors (s : State) (was : Nat) : (s.grantOnRise was).sensors = s.sensors := by
  unfold State.grantOnRise
  split
  · exact grantCredits_sensors s
  · rfl
@[simp] theorem grantCredits_tape (s : State) : s.grantCredits.tape = s.tape := by
  unfold State.grantCredits
  dsimp only
  split <;> rfl
@[simp] theorem grantOnRise_tape (s : State) (was : Nat) : (s.grantOnRise was).tape = s.tape := by
  unfold State.grantOnRise
  split
  · exact grantCredits_tape s
  · rfl
@[simp] theorem grantCredits_free (s : State) : s.grantCredits.free = s.free := by
  unfold State.grantCredits
  dsimp only
  split <;> rfl
@[simp] theorem grantOnRise_free (s : State) (was : Nat) : (s.grantOnRise was).free = s.free := by
  unfold State.grantOnRise
  split
  · exact grantCredits_free s
  · rfl
@[simp] theorem grantCredits_pending (s : State) : s.grantCredits.pending = s.pending := by
  unfold State.grantCredits
  dsimp only
  split <;> rfl
@[simp] theorem grantOnRise_pending (s : State) (was : Nat) : (s.grantOnRise was).pending = s.pending := by
  unfold State.grantOnRise
  split
  · exact grantCredits_pending s
  · rfl
/-- A slot may be opened LOADING only while the ring has room and no slot is LOADING. -/
theorem mayLoad_spec (d : Dbm) (h : d.mayLoad = true) : d.find .loading = none ∧ 0 < d.free := by
  unfold Dbm.mayLoad at h
  simp only [Bool.and_eq_true, Option.isNone_iff_eq_none, decide_eq_true_eq] at h
  exact ⟨h.1.1, h.2⟩
/-- A row set laid down adds one item to the trace, takes one free value, and changes nothing else. -/
theorem traceSet_spec (s : State) (l : Loc) (rows : Vector (Option Nat) 16) :
    s.traceSet l rows =
      { s with tape := s.tape ++ [.rowSet l (rows.toList.zipIdx.map (fun x => s.traceRow l x.1 x.2))], free := s.free + 1 } := rfl
/-- Every row laid down carries the row number it was laid down for. -/
@[simp] theorem traceRow_row (s : State) (l : Loc) (row : Option Nat) (c : Nat) : (s.traceRow l row c).row = row := by
  cases row <;> rfl
/-- A separator laid down changes the trace and the Write Formatter alone. -/
theorem laySeparator_spec (s : State) (k : CloseKind) (l : Loc) :
    ∃ w, s.laySeparator k l = { s with tape := s.tape ++ [.separator l], wf := w } ∧ w.stage = .closing k (some l) := ⟨_, rfl, rfl⟩
/-- A restart's separator laid at a pitch is followed by the restart, whose attempt begins after that pitch. -/
@[simp] theorem restartWritten_closing (s : State) (l : Loc) (h : s.wf.stage = .closing .restart (some l)) :
    s.restartWritten = s.restartDone (s.after l) := by
  simp [State.restartWritten, h]
/-- The separators of a header read are no boundary. -/
@[simp] theorem readBoundary_header (s : State) (h : s.rdr.activity = .header) : s.readBoundary = s := by
  simp [State.readBoundary, State.when, h]

end Sys2Proof.Laws
end

