-- ==== Sys2Proof/WellFormed.lean ====
section
/-!
DEFINITION. WellFormed.lean: which commands can occur as they are written: names of four bytes, payload cells inside a
row, correction counts C1 can give, position and lateral readings in range. The meanings do not depend on it: they are
total on every term (log 33).
-/
namespace Sys2Proof

/-- C1 corrects 1 to 12 byte errors (R84). -/
def RowOutcome.wf : RowOutcome → Bool
  | .corrected k => decide (1 ≤ k) && decide (k ≤ 12)
  | _ => true

/-- A row's payload cells lie inside the row and none reads as an unlisted cell does. -/
def RowRead.wf (r : RowRead) : Bool :=
  r.outcome.wf && r.payload.all (fun c => decide (c.1 < Config.rowBytes) && decide (c.2 ≠ 0))

/-- A burst's instant is a fraction. -/
def Burst.wf (b : Burst) : Bool := decide (0 < b.time.den)

/-- The packet fields and readings of a command are such as the part can be given. -/
def Instr.wf : Instr → Bool
  | .verifyResult os => os.toList.all RowOutcome.wf
  | .readPitch (.rowSet rows) => rows.toList.all (fun r => r.all RowRead.wf)
  | .servoBurst b => b.wf
  | .timebaseLocked b => b.wf
  | .unknownCommand _ name _ => decide (name.length = 4)
  | .tblNameInvalid _ name _ _ => decide (name.length = 4)
  | .wdat _ data => decide (data.length ≤ 4103)
  | _ => true

end Sys2Proof
end

