-- ==== Sys2Proof/Tests/Slice0.lean ====
section
/-!
SUPPORT. Slice0.lean: the model's own tests: the smoke test of WellFormed, the spec's worked values, one small step per command, and for
every statement with hypotheses a state that meets them (each test below names its statement; its checks are the statement's hypotheses
and part of its conclusion).
-/
namespace Sys2Proof.Tests
set_option Elab.async false
open Sys2Proof Sys2Proof.Machine

/-! ### States to step from -/

/-- A formatted cartridge of one partition in a READY drive, its EOD at object 0. -/
def ready : State :=
  { State.reset with
    rtc := { Rtc.reset with cartridge := .ready, typeCode := some .dataA, writeProtect := some false, headWrap := some 0,
                            place := some 464, armed := true },
    pu := { Pu.reset with volume := .formatted, generation := some .a, header := some .opened, partitions := [(0, 159)],
                          eod := [some { object := 0, last := none, mark := ⟨0, 64⟩, onTape := false }],
                          directory := [⟨.valid, none, []⟩], anchor := some (0, ⟨0, 64⟩), eodFilemarks := [some 0] },
    sv := { Sv.reset with kind := .data },
    sensors := { seated := true, leader := .takeUp, typeCode := .dataA, tab := false } }

/-- The queue with a command that has begun, at a point of its execution. -/
def running (s : State) (c : Command) (p : Progress) : State :=
  { s with cu := { s.cu with queue := [{ tag := 7, command := c, begun := true }], progress := p } }

/-- The queue with a command that waits at the head. -/
def waiting (s : State) (c : Command) : State :=
  { s with cu := { s.cu with queue := [{ tag := 7, command := c, begun := false }] } }

/-- The reels changed. -/
def reels (s : State) (f : Rtc → Rtc) : State := s.onRtc f

/-- Streaming on wrap 0, LOCKED, a burst at pitch 100 just behind. -/
def streaming : State :=
  { ready with
    rtc := { ready.rtc with motion := .streaming, travel := some .forward, goal := .streamOn },
    sv := { ready.sv with timebase := .locked, clock := .servo, lastBurst := some ⟨0, 1⟩, lastPlace := some (.pitch 100) } }

/-- A slot of the read path in a state, dataset 0, with `n` entries. -/
def slotOf (st : SlotState) (n : Nat) : Slot :=
  { state := st, dataset := 0, partition := 0, first := some 0, filemarksBefore := some 0, entries := some n, payload := some 0,
    attempt := some 1, passes := none, outcome := some 3, objects := n, filemarks := n }

/-- A buffer with slots and a direction. -/
def holding (s : State) (xs : List Slot) (d : BufferDirection) : State := { s with dbm := { s.dbm with slots := xs, direction := d } }

/-- The next state of a command satisfies a test. -/
def after (i : Instr) (s : State) (f : State → Bool) : Bool :=
  match exec i s with
  | .next t => f t
  | _ => false

/-- A cleaning cartridge in its run. -/
def cleaningRun : State :=
  { State.reset with rtc := { Rtc.reset with cartridge := .cleaning, phase := some .run, typeCode := some .cleaning, cleanLength := 60,
                                             runMetres := 59, headWrap := some 0, place := some 400, motion := .streaming } }

/-- The code of a packet that refuses. -/
def refusal : Packet → Option Code
  | .resp _ _ (.refused c) => some c
  | _ => none

/-- The status of a packet that completes. -/
def status : Packet → Option Code
  | .resp _ _ (.done c _ _) => some c
  | _ => none

/-- The last packet handed over. -/
def last (s : State) : Packet := s.spu.out.getLastD (.wcrd 0)

/-! ### WellFormed: an ill-formed term for each check -/

def badRow : RowRead := { dataset := 0, row := 0, wrap := 0, attempt := 1, check := 0, outcome := .clean, payload := [(8192, 1)] }

theorem test_wf_corrected_13 : Instr.wf (.verifyResult (Vector.replicate 16 (.corrected 13))) = false := by decide +kernel
theorem test_wf_corrected_0 : Instr.wf (.verifyResult (Vector.replicate 16 (.corrected 0))) = false := by decide +kernel
theorem test_wf_row_cell_outside : Instr.wf (.readPitch (.rowSet (Vector.replicate 16 (some badRow)))) = false := by decide +kernel
theorem test_wf_row_cell_zero : Instr.wf (.readPitch (.rowSet (Vector.replicate 16 (some { badRow with payload := [(0, 0)] })))) = false := by
  decide +kernel
theorem test_wf_burst_instant : Instr.wf (.servoBurst { time := ⟨1, 0⟩, ch0 := none, ch1 := none }) = false := by decide +kernel
theorem test_wf_lock_instant : Instr.wf (.timebaseLocked { time := ⟨1, 0⟩, ch0 := none, ch1 := none }) = false := by decide +kernel
theorem test_wf_command_name : Instr.wf (.unknownCommand 1 [65, 66, 67] []) = false := by decide +kernel
theorem test_wf_table_name : Instr.wf (.tblNameInvalid 1 [65, 66, 67] 0 []) = false := by decide +kernel
theorem test_wf_wdat_length : Instr.wf (.wdat 0 (List.replicate 4104 0)) = false := by decide +kernel
theorem test_wf_good : Instr.wf (.verifyResult (Vector.replicate 16 (.corrected 12))) = true := by decide +kernel

/-! ### Checks and layouts (R190, R191, 12.1, 12.2) -/

/-- The check value of each code over the digits 1 to 9. -/
theorem test_crc16 : crc16 [0x31, 0x32, 0x33, 0x34, 0x35, 0x36, 0x37, 0x38, 0x39] = 0x29B1#16 := by decide +kernel
theorem test_crc32 : crc32 [0x31, 0x32, 0x33, 0x34, 0x35, 0x36, 0x37, 0x38, 0x39] = 0xCBF43926#32 := by decide +kernel
theorem test_entry_bytes :
    (IndexEntry.bytes { kind := .end_, reset := true, compressed := false, host := 258, stored := 63, check := 0x01020304 })
      = [3, 1, 0, 0, 2, 1, 0, 0, 63, 0, 0, 0, 4, 3, 2, 1] := by decide +kernel
theorem test_tokens : copyToken 9 3 = [176, 2] ∧ copyToken 3 3 = [128, 2] ∧ copyToken 18 2048 = [255, 255] := by decide +kernel
/-- The matches of the worked example of 2.7. -/
theorem test_longest_copy :
    longestCopy [65, 66, 67, 68] 4 [65, 66, 67, 68, 65, 66, 67, 68, 65, 66, 67, 68, 69, 70, 71, 72] = some (12, 4)
    ∧ longestCopy [88, 89, 90] 3 [88, 89, 90] = some (3, 3)
    ∧ longestCopy [88, 89, 90, 88, 89, 90] 6 [88, 89, 90, 88, 89, 90, 88, 89, 90] = some (9, 3)
    ∧ longestCopy [88, 89] 2 [90, 88] = none := by decide +kernel
/-- Expanding the two tokens of the worked record, and a copy from beyond the history. -/
theorem test_expand :
    (expandSegment { kind := .whole, reset := true, compressed := true, host := 9, stored := 2, check := 0 } [176, 2] [88, 89, 90] 3).bytes
      = [88, 89, 90, 88, 89, 90, 88, 89, 90]
    ∧ (expandSegment { kind := .whole, reset := true, compressed := true, host := 3, stored := 2, check := 0 } [128, 2] [] 0).fault = true := by
  decide +kernel
/-- Row placement by channel (R47): row 16 of set 1 on channel 1. -/
theorem test_nominal : nominalRow 0 5 = 5 ∧ nominalRow 1 1 = 16 ∧ nominalRow 1 0 = 31 ∧ nominalChannel 16 = 1 ∧ nominalChannel 31 = 0 := by
  decide +kernel
/-- A rewritten row avoids its last channel (R50). -/
theorem test_rewrites :
    placeRewrites [0, 1, 2] [⟨40, 1, 0⟩, ⟨41, 1, 0⟩] = ([(1, ⟨40, 1, 0⟩), (2, ⟨41, 1, 0⟩)], []) ∧
    placeRewrites [0] [⟨40, 1, 0⟩] = ([], [⟨40, 1, 0⟩]) := by decide +kernel
theorem test_memory : Memory.write [(1, 2), (5, 6)] 3 0 = [(1, 2), (5, 6)] ∧ Memory.write [(1, 2), (5, 6)] 3 4 = [(1, 2), (3, 4), (5, 6)]
    ∧ Memory.write [(1, 2), (5, 6)] 1 0 = [(5, 6)] ∧ Memory.wf [(1, 2), (5, 6)] = true ∧ Memory.wf [(5, 6), (1, 2)] = false := by
  decide +kernel

/-! ### The queue of commands -/

theorem test_step_front : ({ ready with pending := [.seatedSensorOff] } : State).pending = .seatedSensorOff :: [] := by decide +kernel
theorem test_step_idle : ready.pending = [] := by decide +kernel

/-! ### Queued commands at arrival: QueuedCommandAtArrival -/

def joins (i : Instr) : Bool :=
  match queuedParts i with
  | some (tag, _, some c) => !ready.rtc.cleaningRun && tag != 0 && ready.rtc.permits c
      && after i ready (fun t => t.cu.queue == [{ tag := tag, command := c, begun := false }])
  | _ => false

theorem test_joins : joins (.load 1 []) = true ∧ joins (.unld 1 []) = true ∧ joins (.rwnd 1 []) = true ∧
    joins (.loct 1 [0, 1, 0, 0, 0]) = true ∧ joins (.spac 1 [0, 0xFF, 0xFF, 0xFF, 0xFF]) = true ∧ joins (.writeRecords 1 [1, 0]) = true ∧
    joins (.writeFilemarks 1 [0, 0]) = true ∧ joins (.readRecords 1 [1, 0, 0, 0, 0x10, 0]) = true ∧ joins (.sync 1 []) = true ∧
    joins (.eras 1 []) = true ∧ joins (.definePartitions 1 [1, 0, 0, 0, 0]) = true := by
  decide +kernel
theorem test_refused_cleaning : after (.load 1 []) cleaningRun (fun t => refusal (last t) == some .notReady) = true := by decide +kernel
theorem test_refused_tag_zero : after (.sync 0 []) ready (fun t => refusal (last t) == some .tagInvalid) = true := by decide +kernel
theorem test_refused_tag_in_use : after (.sync 7 []) (waiting ready .rwnd) (fun t => refusal (last t) == some .tagInUse) = true := by
  decide +kernel
theorem test_refused_limit : after (.readRecords 1 [1, 0, 1, 0, 0x10, 0]) ready (fun t => refusal (last t) == some .parameterInvalid) = true := by
  decide +kernel
theorem test_refused_empty_drive : after (.load 1 []) State.reset (fun t => refusal (last t) == some .notReady) = true := by decide +kernel
theorem test_queue_full : after (.sync 9 []) { ready with cu := { ready.cu with queue := [1, 2, 3, 4].map (fun n => ⟨n, .sync, false⟩) } }
    (fun t => t.spu.out == [.resp 9 (ascii 'S' 'Y' 'N' 'C') .queueFull]) = true := by decide +kernel
theorem test_permission_hypotheses : ready.rtc.cleaningRun = false ∧ ready.rtc.unknownRecovering = false ∧ cleaningRun.rtc.cleaningRun = true := by
  decide +kernel
theorem test_unknown_command : after (.unknownCommand 0 [65, 66, 67, 68] []) ready (fun t => refusal (last t) == some .unknownCommand) = true := by
  decide +kernel
theorem test_unknown_table : after (.tblNameInvalid 0 [65, 66, 67, 68] (crc16 [65, 66, 67, 68]) []) ready
    (fun t => refusal (last t) == some .tableInvalid) = true := by decide +kernel

/-! ### Quick commands and resets -/

theorem test_quick_cleaning : after (.readPosition 0 []) cleaningRun (fun t => refusal (last t) == some .notReady) = true := by decide +kernel
theorem test_quick_parameter : after (.ackEvents 0 [1, 32]) ready (fun t => refusal (last t) == some .parameterInvalid) = true := by
  decide +kernel
theorem test_query_status : after (.queryStatus 5 []) cleaningRun (fun t => status (last t) == some .good && t.eu == cleaningRun.eu) = true := by
  decide +kernel
theorem test_read_position : after (.readPosition 5 []) ready
    (fun t => t.spu.out == [.resp 5 (ascii 'R' 'P' 'O' 'S') (.done .good {} ([1, 0, 0, 0, 0, 0] ++ [0, 0, 0, 0, 0, 64, 0]
      ++ [1, 0, 0, 0, 0, 255, 255, 255, 255, 0, 64, 0, 0]))]) = true := by decide +kernel
theorem test_acknowledge : after (.ackEvents 0 [1, 6]) ((ready.raise .backhitch).raise .speedChanged)
    (fun t => t.eu.latches[6] == ⟨false, 0⟩ && t.eu.latches[5] == ⟨true, 1⟩ && t.eu.attn) = true := by decide +kernel
theorem test_abort : after (.abort 0 []) { running ready (.wrec 3) .writing with spu := { ready.spu with credits := 5, readCredits := 9 } }
    (fun t => t.cu.queue.isEmpty && t.spu.credits == 0 && t.spu.readCredits == 0 && status (last t) == some .good
      && status (t.spu.out.headD (.wcrd 0)) == some .aborted) = true := by decide +kernel
/-- AbortEmptiesTheQueue: the FILLING slot cut back to the segment's start and sealed. -/
theorem test_abort_filling : after (.abort 0 [])
    { holding ready [{ slotOf .filling 1 with payload := some 9 }] .write with
      wf := { Wf.reset with stage := .span },
      rc := { Rc.reset with segment := some { start := 4, bytes := [1], stored := 5, compressed := true, reset := true } } }
    (fun t => t.dbm.slots == [{ slotOf .sealed 1 with payload := some 4 }] && t.rc.segment.isNone) = true := by decide +kernel
/-- AbortEmptiesTheQueue: the Reader, with no read path, ENDED by a tension fault in the header read, and in a header read still under way. -/
theorem test_abort_reader :
    let s (a : RdrActivity) : State := { ready with rdr := { Rdr.reset with activity := a, expected := some (0, 15), readAhead := true,
                                                                            copies := [⟨0, 4⟩], tallies := Vector.replicate 16 ⟨3, 1⟩ } }
    after (.abort 0 []) (reels (s (.ended .fault)) (fun r => { r with cartridge := .faulted }))
      (fun t => t.rdr == Rdr.reset) = true ∧
    after (.abort 0 []) (reels (s .header) (fun r => { r with cartridge := .headerRead })) (fun t => t.rdr == (s .header).rdr) = true := by
  decide +kernel
theorem test_reset_device : after (.resetDevice 3 [] State.reset.sensors) (waiting ready .rwnd)
    (fun t => t.cu.queue.isEmpty && t.spu.out.length == 1 && t.rtc.cartridge == .empty) = true := by decide +kernel
theorem test_nreset_threaded : after (.nreset ready.sensors) streaming
    (fun t => t.rtc.cartridge == .threadedUnknown && t.rtc.motion == .settling && t.dbm.slots.isEmpty) = true := by decide +kernel
/-- DeviceReset: what the sensors make of the part. -/
theorem test_reset_sensors :
    let found (l : Leader) (ty : TypeCode) (f : State → Bool) : Bool := after (.nreset { seated := true, leader := l, typeCode := ty, tab := true }) ready
      (fun t => t.rtc.typeCode == some ty && t.rtc.writeProtect == some true && f t)
    found .home .dataB (fun t => t.rtc.cartridge == .seated) = true ∧ found .home .unknown (fun t => t.rtc.cartridge == .ejected && t.eu.latches[20].set) = true ∧
    found .home .cleaning (fun t => t.rtc.cartridge == .threading && t.rtc.threadTimer == some ⟨0, 6000⟩ && t.sensors.leader == .between) = true ∧
    found .takeUp .cleaning (fun t => t.rtc.cartridge == .tensioning && t.rtc.tensionFor == .rewind) = true ∧
    found .between .unknown (fun t => t.rtc.cartridge == .tensioning && t.eu.latches[20].set) = true ∧
    after (.nreset Sensors.emptyDrive) ready (fun t => t.rtc == Rtc.reset && t.sm == Sm.reset && t.pu == Pu.reset && t.sv == Sv.reset) = true := by
  decide +kernel
theorem test_power_on : after (.powerOnReset { seated := true, leader := .home, typeCode := .dataB, tab := true }) streaming
    (fun t => t.rtc.cartridge == .seated && t.hm == Hm.reset && t.rtc.motion == .stopped) = true := by decide +kernel

/-! ### Tables -/

def signed (mk : Byte → BitVec 16 → List Byte → Instr) (name fs : List Byte) : Instr := mk 4 (crc16 (name ++ fs)) fs

theorem test_table_check : after (.rpol 4 0 [6, 2, 3, 4, 15]) ready
    (fun t => refusal (last t) == some .tableCheck && t.eu.latches[24].set) = true := by decide +kernel
theorem test_table_cleaning : after (signed .rpol (ascii 'R' 'P' 'O' 'L') [6, 2, 3, 4, 15]) cleaningRun
    (fun t => refusal (last t) == some .notReady) = true := by decide +kernel
theorem test_table_length : after (signed .rpol (ascii 'R' 'P' 'O' 'L') [6, 2, 3, 4]) ready
    (fun t => refusal (last t) == some .tableInvalid) = true := by decide +kernel
theorem test_rpol : after (signed .rpol (ascii 'R' 'P' 'O' 'L') [15, 9, 0, 9, 4]) ready
    (fun t => t.cu.policy == { margin := 12, restartLimit := 3, missLimit := 1, retries := 8, offTrack := 5 }) = true := by decide +kernel
theorem test_ppol : after (signed .ppol (ascii 'P' 'P' 'O' 'L') [2, 1, 0, 9, 1]) ready
    (fun t => t.pu.policy == [⟨.appendOnly, false⟩, ⟨.readOnly, true⟩, ⟨.writable, true⟩, ⟨.writable, true⟩]) = true := by decide +kernel
theorem test_ppol_count : after (signed .ppol (ascii 'P' 'P' 'O' 'L') [0]) ready
    (fun t => refusal (last t) == some .tableInvalid) = true := by decide +kernel

def oneSpeed : List Byte := [1, 0xD0, 7, 80, 0, 0x80, 1, 32, 0, 2, 0xD0, 7, 5]
theorem test_spdt : after (signed .spdt (ascii 'S' 'P' 'D' 'T') oneSpeed) ready
    (fun t => t.sm.table == { entries := [(2000, 80)], high := 384, low := 32, confirm := 2, sealTimeout := 2000, tolerance := 5 }
      && t.rtc.speed == 2000 && t.sv.speed == 2000) = true := by decide +kernel
theorem test_spdt_busy : after (signed .spdt (ascii 'S' 'P' 'D' 'T') oneSpeed) streaming
    (fun t => refusal (last t) == some .busy) = true := by decide +kernel
theorem test_spdt_structure : after (signed .spdt (ascii 'S' 'P' 'D' 'T') [0, 0x80, 1, 32, 0, 2, 0xD0, 7, 5]) ready
    (fun t => refusal (last t) == some .tableInvalid) = true := by decide +kernel
theorem test_cpol : after (signed .cpol (ascii 'C' 'P' 'O' 'L') [8, 0, 2, 0, 128, 0, 1, 4, 0xE8, 3, 0, 0, 1, 60, 0])
    { ready with hm := { Hm.reset with metres := 5000 } } (fun t => t.hm.policy.metreLimit == 1000 && t.hm.head == .advised) = true := by
  decide +kernel
theorem test_cpol_refused : parseCpol [2, 0, 8, 0, 128, 0, 1, 4, 0xE8, 3, 0, 0, 1, 60, 0] = none ∧
    after (signed .cpol (ascii 'C' 'P' 'O' 'L') [2, 0, 8, 0, 128, 0, 1, 4, 0xE8, 3, 0, 0, 1, 60, 0]) ready
      (fun t => refusal (last t) == some .tableInvalid && t.hm == ready.hm) = true := by decide +kernel
def headFields (floor : Byte) : List Byte := [1, 0, 0, 0, 2, 0, 0, 0, 3, 0, 0, 0, 4, 0, 0, 0, floor]
theorem test_hrec : after (signed .hrec (ascii 'H' 'R' 'E' 'C') (headFields 2)) ready
    (fun t => t.hm.metres == 1 && t.hm.loads == 4 && t.hm.head == .required && t.hm.cleanReq && !t.hm.armed) = true := by decide +kernel
theorem test_hrec_floor : after (signed .hrec (ascii 'H' 'R' 'E' 'C') (headFields 3)) ready
    (fun t => refusal (last t) == some .tableInvalid && t.hm == ready.hm) = true := by decide +kernel
theorem test_hrec_locked : after (signed .hrec (ascii 'H' 'R' 'E' 'C') (headFields 0)) { ready with hm := { Hm.reset with armed := false } }
    (fun t => refusal (last t) == some .locked) = true := by decide +kernel
/-- The masked event of 11.7: the NOTE goes out when the mask bit is set, with its count. -/
theorem test_evmk : after (signed .evmk (ascii 'E' 'V' 'M' 'K') [0xFF, 0xFF, 0xFF, 0xFF])
    ((({ ready with eu := { Eu.reset with mask := 0xFFFFFFBF } } : State).raise .backhitch).raise .backhitch)
    (fun t => t.spu.out.head? == some (.note 6 2) && t.eu.attn) = true := by decide +kernel

/-! ### Record data, credits, events -/

def writingNow : State := { running ready (.wrec 3) .writing with spu := { ready.spu with credits := 2 } }
theorem test_wdat_credited : after (.wdat 1 [65]) writingNow (fun t => t.spu.credits == 1 && t.dbm.staging == [⟨true, [65]⟩]) = true := by
  decide +kernel
theorem test_wdat_uncredited : writingNow.writingRecords = true ∧ after (.wdat 1 []) writingNow
    (fun t => t.cu.queue.isEmpty && t.spu.credits == 0 && status (last t) == some .protocolError) = true := by decide +kernel
theorem test_wdat_unsolicited : after (.wdat 1 [65]) ready (fun t => t.eu.latches[25].set && t.dbm.staging.isEmpty) = true := by
  decide +kernel
theorem test_rcrd : after (.rcrd 4096) ready (fun t => t.spu.readCredits == 4096) = true ∧
    after (.rcrd 4097) ready (fun t => t.spu.readCredits == 0 && t.eu.latches[25].set) = true ∧
    after (.rcrd 1) { ready with spu := { ready.spu with readCredits := 65535 } } (fun t => t.spu.readCredits == 65535 && t.eu.latches[25].set) = true := by
  decide +kernel
theorem test_dropped : packetGood [1, 0] = false ∧ after (.linkCheckFailure [1, 0]) ready (fun t => t.spu.linkErrors == 1 && t.eu.latches[26].set) = true := by
  decide +kernel
theorem test_event : ready.eu.latches[Event.num .backhitch].set = false ∧ (ready.raise .backhitch).eu.latches[Event.num .backhitch].set = true := by
  decide +kernel

/-! ### Beginning execution -/

theorem test_begin_waits : after .commandBeginsExecution (reels (waiting ready .sync) (fun r => { r with cartridge := .threading }))
    (fun t => t.cu.queue.length == 1) = true := by decide +kernel
theorem test_begin_deferred : after .commandBeginsExecution
    { waiting ready .sync with cu := { (waiting ready .sync).cu with deferred := some ⟨.volumeOverflow, 0, 5, 2⟩ } }
    (fun t => t.cu.deferred.isNone && t.pu.object == 5 && t.spu.out == [.resp 7 (ascii 'S' 'Y' 'N' 'C')
      (.done .deferredError { count := 2, object := 5, deferred := 1 } [])]) = true := by decide +kernel
theorem test_begin_not_permitted : after .commandBeginsExecution (reels (waiting ready .sync) (fun r => { r with cartridge := .ejected }))
    (fun t => status (last t) == some .notReady && t.cu.queue.isEmpty) = true := by decide +kernel
theorem test_begin_sync : after .commandBeginsExecution (waiting ready .sync)
    (fun t => status (last t) == some .good && t.cu.queue.isEmpty) = true := by decide +kernel
/-- CommandBegins: the flush of a command with direction WRITE, and write commands that go on with the write path. -/
def flushable (c : Command) (n : Nat) : State :=
  { holding (waiting ready c) [slotOf .sealed 1, { slotOf .filling n with payload := some 0 }] .write with
    wf := { Wf.reset with stage := .span }, pu := { ready.pu with object := 5, anchor := none } }
def flushes (c : Command) (n : Nat) (p : Progress) (left : List SlotState) : Bool :=
  after .commandBeginsExecution (flushable c n) (fun t => t.cu.progress == p && t.dbm.slots.map Slot.state == left && t.spu.out.isEmpty
    && t.cu.queue == [{ tag := 7, command := c, begun := true }])
theorem test_flush_begins : flushes .rwnd 1 .flushing [.sealed, .sealed] = true ∧ flushes .sync 0 .flushInPlace [.sealed] = true ∧
    flushes (.wfmk 0) 1 .flushInPlace [.sealed, .sealed] = true ∧ flushes (.loct 0 9) 1 .flushing [.sealed, .sealed] = true ∧
    flushes (.spac .records 0) 1 .flushing [.sealed, .sealed] = true ∧ flushes (.rrec 1 9) 1 .flushing [.sealed, .sealed] = true ∧
    flushes .unld 1 .flushing [.sealed, .sealed] = true ∧ flushes .eras 1 .flushing [.sealed, .sealed] = true ∧
    after .commandBeginsExecution { flushable (.dpar 1 [0, 0, 0, 0]) 1 with pu := ready.pu } (fun t => t.cu.progress == .flushing) = true := by decide +kernel
/-- CommandBegins: what the flush leaves in the DRAM: the payload's end padded, the trailer with the first entry's continues flag. -/
theorem test_flush_trailer :
    let s := flushable .rwnd 1
    let e : IndexEntry := { kind := .end_, reset := false, compressed := false, host := 1, stored := 1, check := 0 }
    after .commandBeginsExecution { s with dbm := { s.dbm with dram := Memory.writeBytes (Memory.writeBytes [] 2097151 [5, 6]) 4063152 e.bytes } }
      (fun t => t.dbm.dram.read 2097151 == 5 && t.dbm.dram.read 2097152 == 0 && (t.dbm.dram.trailer 2097152).continues
        && (t.dbm.dram.entry 2097152 0).kind == .end_) = true := by decide +kernel
theorem test_write_goes_on :
    after .commandBeginsExecution (flushable (.wrec 2) 1) (fun t => t.spu.out == [.wcrd 256] && t.cu.progress == .writing
      && t.dbm == (flushable (.wrec 2) 1).dbm) = true ∧
    after .commandBeginsExecution (flushable (.wfmk 2) 1) (fun t => t.dbm.slots.map (fun x => (x.state, x.entries, x.filemarks))
      == [(.sealed, some 1, 1), (.filling, some 3, 3)] && t.pu.object == 7 && status (last t) == some .good && t.dbm.sealTimer.isSome) = true := by
  decide +kernel
theorem test_begin_wrec : after .commandBeginsExecution (waiting ready (.wrec 2))
    (fun t => t.dbm.direction == .write && t.spu.credits == 256 && t.spu.out == [.wcrd 256]) = true := by decide +kernel

/-- CommandsOwnWork: what each command begins, or how it ends at once. -/
def begins (s : State) (c : Command) (f : State → Bool) : Bool :=
  after .commandBeginsExecution (waiting s c) (fun t => t.cu.queue == [{ tag := 7, command := c, begun := true }] && f t)
def endsWith (s : State) (c : Command) (k : Code) : Bool :=
  after .commandBeginsExecution (waiting s c) (fun t => t.cu.queue.isEmpty && status (last t) == some k)
/-- The partition's EOD changed, and the position. -/
def atObject (o : Nat) (e : Option EodKnown) : State := { ready with pu := { ready.pu with object := o, eod := [e] } }
def fiveObjects : Option EodKnown := some { object := 5, last := some 1, mark := ⟨0, 300⟩, onTape := true }
def cartridgeIs (c : Cartridge) (l : Leader) : State :=
  { reels ready (fun r => { r with cartridge := c }) with sensors := { ready.sensors with leader := l } }

theorem test_work_load : endsWith ready .load .good = true ∧
    begins (cartridgeIs .seated .home) .load (fun t => t.rtc.cartridge == .threading && !t.hm.armed) = true ∧
    begins (cartridgeIs .threadedUnknown .takeUp) .load (fun t => t.rtc.cartridge == .tensioning) = true := by decide +kernel
theorem test_work_unld : endsWith (cartridgeIs .seated .home) .unld .good = true ∧ endsWith (cartridgeIs .ejected .home) .unld .good = true ∧
    endsWith (cartridgeIs .faulted .home) .unld .good = true ∧
    begins (cartridgeIs .faulted .between) .unld (fun t => t.rtc.windTimer.isSome) = true ∧
    begins (cartridgeIs .threadedUnknown .takeUp) .unld (fun t => t.rtc.tensionFor == .rewind) = true ∧
    begins ready .unld (fun t => t.rtc.cartridge == .unloading) = true := by decide +kernel
theorem test_work_positions : begins ready .rwnd (fun t => t.cu.progress == .shuttle .good) = true ∧
    endsWith ready (.loct 1 0) .parameterInvalid = true ∧
    begins ready (.loct 0 0) (fun t => t.cu.progress == .shuttle .eod) = true ∧
    begins (atObject 0 none) (.loct 0 3) (fun t => t.pu.scan.map Scan.purpose == some (.locate 3)) = true ∧
    begins ready (.spac .eod 0) (fun t => t.cu.progress == .shuttle .good) = true ∧
    begins (atObject 0 none) (.spac .eod 0) (fun t => t.pu.scan.map Scan.purpose == some (.place 0)) = true ∧
    endsWith ready (.spac .records 0) .good = true ∧
    begins ready (.spac .records 2) (fun t => t.cu.progress == .shuttle .eod) = true ∧
    begins (atObject 0 none) (.spac .filemarks (-1)) (fun t => t.pu.scan.map Scan.purpose == some (.place 0)) = true := by decide +kernel
theorem test_work_refused :
    let barred := reels ready (fun r => { r with writeProtect := some true })
    let append (o : Nat) : State := { atObject o fiveObjects with pu := { (atObject o fiveObjects).pu with policy := [⟨.appendOnly, true⟩] } }
    endsWith barred (.wrec 1) .writeProtected = true ∧ endsWith barred .eras .writeProtected = true ∧
    endsWith barred (.dpar 1 [0, 0, 0, 0]) .writeProtected = true ∧
    endsWith { ready with pu := { ready.pu with volume := .headerFault } } (.wfmk 2) .volumeFault = true ∧
    endsWith (append 2) (.wrec 1) .appendViolation = true ∧ endsWith (append 0) (.dpar 1 [0, 0, 0, 0]) .appendViolation = true ∧
    endsWith { ready with wf := { Wf.reset with volumeFull := some 0 } } (.wrec 1) .volumeFull = true ∧
    endsWith (atObject 1 fiveObjects) (.dpar 1 [0, 0, 0, 0]) .notAtBop = true ∧
    endsWith ready (.dpar 5 [0, 0, 0, 0]) .parameterInvalid = true := by decide +kernel
/-- An ERAS at EOD takes the tape from the mark of a hard error that is being written, and cuts its pitch off (R152, log 25). -/
theorem test_work_erase_cuts : after .commandBeginsExecution
    { waiting streaming .eras with
      wf := { Wf.reset with stage := .marking .hardError ⟨0, 100⟩ 1, writePoint := some (0, ⟨0, 101⟩), eodPending := true } }
    (fun t => t.tape == [.cutOff ⟨0, 100⟩] && t.wf.stage == .runUp ⟨0, 64⟩ (.mark .flush) false && t.cu.progress == .erasing) = true := by
  decide +kernel
/-- So does a LOCT to another partition, at the last pitch of the last wrap of the partition it leaves (R152). -/
theorem test_work_locate_cuts : after .commandBeginsExecution
    { waiting streaming (.loct 1 0) with
      pu := { ready.pu with partitions := [(0, 3), (6, 159)], eod := [some (.empty 0), some (.empty 6)] },
      rtc := { streaming.rtc with headWrap := some 3 }, sv := { streaming.sv with lastPlace := some (.pitch 39999) },
      wf := { Wf.reset with stage := .marking .hardError ⟨3, 39998⟩ 2, writePoint := some (0, ⟨3, 40000⟩), eodPending := true } }
    (fun t => t.tape == [.cutOff ⟨3, 39999⟩] && t.wf.stage == .idle && t.pu.partition == 1 && t.rtc.motion == .decelerating) = true := by
  decide +kernel
theorem test_work_writes : begins (atObject 2 fiveObjects) (.wrec 1) (fun t => t.pu.scan.map Scan.purpose == some .truncate) = true ∧
    begins (atObject 2 none) .eras (fun t => t.pu.scan.map Scan.purpose == some .resolve) = true ∧
    endsWith (atObject 5 fiveObjects) .eras .good = true ∧ endsWith ready (.wfmk 0) .good = true ∧
    after .commandBeginsExecution (waiting ready (.wfmk 1)) (fun t => t.dbm.slots.map Slot.filemarks == [1] && t.pu.object == 1
      && status (last t) == some .good) = true ∧
    begins ready (.dpar 2 [50, 0, 0, 0]) (fun t => t.pu.partitions == [(0, 49), (52, 159)] && t.wf.header.isSome) = true := by decide +kernel
theorem test_work_reads : endsWith ready (.rrec 1 9) .eod = true ∧
    begins { atObject 2 none with pu := { (atObject 2 none).pu with anchor := none } } (.rrec 1 9)
      (fun t => t.pu.scan.map Scan.purpose == some .read) = true ∧
    begins { atObject 2 fiveObjects with pu := { (atObject 2 fiveObjects).pu with anchor := some (1, ⟨0, 200⟩) } } (.rrec 1 9)
      (fun t => t.rdr.activity == .repositioning && t.rdr.target == some ⟨0, 200⟩ && t.dbm.slots.map Slot.state == [.loading]) = true ∧
    begins (holding ready [slotOf .ready 1] .read) (.rrec 1 9) (fun t => t.cu.progress == .reading && t.rdr.readAhead) = true := by decide +kernel

theorem test_work_space_back :
    let learnt (n : Option Nat) : State := { atObject 5 fiveObjects with pu := { (atObject 5 fiveObjects).pu with eodFilemarks := [n] } }
    begins (learnt (some 0)) (.spac .records (-1)) (fun t => t.pu.scan.map Scan.purpose == some (.spaceRecords 4 5)) = true ∧
    after .commandBeginsExecution (waiting (atObject 0 (some { EodKnown.empty 0 with mark := ⟨0, 70⟩ })) (.spac .records (-1)))
      (fun t => status (last t) == some .bop && t.pu.anchor == some (0, ⟨0, 70⟩)) = true ∧
    after .commandBeginsExecution (waiting (learnt (some 0)) (.spac .filemarks (-1)))
      (fun t => status (last t) == some .bop && t.pu.object == 0 && t.pu.anchor == some (0, ⟨0, 64⟩)) = true ∧
    begins (learnt (some 2)) (.spac .filemarks (-1)) (fun t => t.pu.scan.map Scan.purpose == some (.spaceFilemark 2 2)) = true ∧
    begins (learnt none) (.spac .filemarks (-1)) (fun t => t.pu.scan.map Scan.purpose == some (.place 5)) = true ∧
    begins (atObject 2 fiveObjects) (.spac .records 1) (fun t => t.pu.scan.map Scan.purpose == some (.place 2)) = true := by decide +kernel
theorem test_work_marks_and_moving :
    endsWith ready (.wfmk 3) .good = true ∧
    begins ready .eras (fun t => t.wf.eodPending && t.wf.stage == .runUp ⟨0, 64⟩ (.mark .flush) false) = true ∧
    begins { ready with pu := { ready.pu with header := some .sealed } } .eras
      (fun t => t.wf.header == some { purpose := .unseal, attempt := 1 } && t.wf.stage == .runUp ⟨0, 0⟩ .span false) = true ∧
    begins { holding ready [] .read with rdr := { Rdr.reset with activity := .seeking } } (.rrec 1 9)
      (fun t => t.rdr.readAhead && t.dbm.slots.isEmpty) = true := by decide +kernel

/-! ### The mechanism -/

theorem test_seated_data : after (.seatedSensorOn .dataB true) State.reset
    (fun t => t.rtc.cartridge == .seated && t.rtc.writeProtect == some true && t.eu.latches[19].set) = true := by decide +kernel
theorem test_seated_unknown : after (.seatedSensorOn .unknown false) State.reset
    (fun t => t.rtc.cartridge == .ejected && t.eu.latches[20].set) = true := by decide +kernel
theorem test_seated_off : after .seatedSensorOff (reels ready (fun r => { r with cartridge := .ejected }))
    (fun t => t.rtc.cartridge == .empty && t.rtc.typeCode == none) = true := by decide +kernel

def threading (n : Nat) (th : Threader) : State :=
  reels (running ready .load .sequence) (fun r => { r with cartridge := .threading, threader := th, attempts := n, threadTimer := some ⟨6000, 6000⟩ })
theorem test_leader_taken : after .leaderOnTakeUpReel (threading 1 .threading)
    (fun t => t.rtc.cartridge == .tensioning && t.rtc.tensionTimer == some ⟨0, 2000⟩) = true := by decide +kernel
theorem test_thread_retry : after .threadTimerExpiry (threading 1 .threading) (fun t => t.rtc.threader == .withdrawing) = true ∧
    after .leaderHome (threading 1 .withdrawing) (fun t => t.rtc.attempts == 2 && t.rtc.threader == .threading) = true := by decide +kernel
theorem test_thread_fault : after .threadTimerExpiry (threading 2 .threading)
    (fun t => t.rtc.cartridge == .faulted && status (last t) == some .threadFault && t.eu.latches[21].set) = true := by decide +kernel
/-- ThreadingSteps: the timer while the leader is withdrawn, and while it is returned. -/
theorem test_thread_expiries :
    let returning (n : Nat) : State := reels (running ready .unld .sequence)
      (fun r => { r with cartridge := .unloading, phase := some .unthread, threader := .returning, attempts := n, threadTimer := some ⟨6000, 6000⟩ })
    after .threadTimerExpiry (threading 1 .withdrawing) (fun t => t.rtc.cartridge == .faulted && status (last t) == some .threadFault) = true ∧
    after .threadTimerExpiry (returning 1) (fun t => t.rtc.attempts == 2 && t.rtc.threadTimer == some ⟨0, 6000⟩ && t.spu.out.isEmpty) = true ∧
    after .threadTimerExpiry (returning 2) (fun t => t.rtc.cartridge == .faulted && t.eu.latches[21].set && t.pu == Pu.reset
      && status (last t) == some .threadFault) = true := by decide +kernel
theorem test_leader_returned : after .leaderHome (reels (running ready .unld .sequence)
    (fun r => { r with cartridge := .unloading, phase := some .unthread, threader := .returning, threadTimer := some ⟨5, 6000⟩ }))
    (fun t => t.rtc.cartridge == .ejected && status (last t) == some .good) = true := by decide +kernel

def tensioning (why : TensionFor) : State :=
  reels (running ready .load .sequence) (fun r => { r with cartridge := .tensioning, tensionTimer := some ⟨3, 2000⟩, tensionFor := why })
theorem test_tensioned : after (.tensioningComplete 10) (tensioning .headerRead)
    (fun t => t.rtc.cartridge == .headerRead && t.rdr.expected == some (0, 15) && t.rtc.motion == .shuttling) = true ∧
    after (.tensioningComplete 10) (tensioning .clean) (fun t => t.rtc.phase == some .run && t.rtc.cleanLength == 60) = true ∧
    after (.tensioningComplete 10) (tensioning .rewind) (fun t => t.rtc.phase == some .rewind) = true := by decide +kernel
theorem test_tension_expiry : (tensioning .headerRead).unldExecuting = false ∧ after .tensionTimerExpiry (tensioning .headerRead)
    (fun t => t.rtc.cartridge == .faulted && status (last t) == some .tensionFault && t.pu.volume == .none) = true := by decide +kernel
/-- TensioningEnds: an UNLD's expiry; the results of the header read; the seal decided at the end of an unloading's rewind. -/
theorem test_tension_expiry_unld :
    let s := running (tensioning .rewind) .unld .sequence
    s.unldExecuting = true ∧ after .tensionTimerExpiry s (fun t => t.rtc.cartridge == .faulted && t.rtc.windTimer == some ⟨0, 180000⟩
      && t.cu.queue.length == 1 && t.rtc.stepTo.isNone) = true := by decide +kernel
def headering (p : Nat) (open_ : Bool) (pass : Nat) (m : Memory) : State :=
  { running (reels streaming (fun r => { r with cartridge := .headerRead })) .load .sequence with
    dbm := { ready.dbm with dram := m },
    sv := { streaming.sv with lastPlace := some (.pitch p) },
    rdr := { Rdr.reset with activity := .header, expected := some (0, 15), pass := some pass, copyOpen := open_, copy := some 1,
                            copies := [⟨0, 2⟩], opened := some ⟨0, 2⟩, rows := Vector.replicate 256 (.good 1 1) } }
/-- The header dataset of `ready` as it stands in the DRAM, its state byte and its record check given. -/
def headerImage (state check : Memory) : Memory :=
  state ++ [(2, 1), (10, 0x9F), (28, 0xFF), (29, 0xFF), (30, 0xFF), (31, 0xFF), (34, 0x40), (39, 1), (1966001, 1), (1966004, 0x80), (1966008, 0x80)]
    ++ check ++ [(1966016, 15), (1966018, 1), (1966028, 0x80)]
def sealedImage : Memory := headerImage [] [(1966012, 0x57), (1966013, 0x1E), (1966014, 0x76), (1966015, 0xE2)]
def openImage : Memory := headerImage [(1, 1)] [(1966012, 0x3A), (1966013, 0xC8), (1966014, 0x9E), (1966015, 0x1E)]
set_option maxRecDepth 2500 in
theorem test_header_corrected :
    (headering 30 true 1 sealedImage).evaluation.isSome = true ∧
    after (.readPitch .separator) (headering 30 true 1 sealedImage) (fun t => t.rtc.cartridge == .ready && t.pu.volume == .formatted
      && t.pu.header == some .sealed && t.pu.eod == ready.pu.eod && t.hm.loads == 1 && t.cu.queue.isEmpty && status (last t) == some .good) = true ∧
    after (.readPitch .separator) (headering 30 true 1 openImage) (fun t => t.pu.header == some .opened && t.pu.eod == [none]
      && t.pu.directory == [⟨.invalid, none, []⟩]) = true ∧
    after (.readPitch .separator) (headering 30 true 1 (headerImage [(0, 1)] [])) (fun t => t.pu.volume == .headerFault
      && t.eu.latches[23].set && t.rtc.cartridge == .ready) = true := by decide +kernel
theorem test_header_uncorrected :
    let erased (p : Nat) : State := { headering 30 true p [] with rdr := { (headering 30 true p []).rdr with rows := Vector.replicate 256 .absent } }
    after (.readPitch .separator) (erased 1) (fun t => t.rdr.activity == .header && t.rdr.pass == some 2 && t.rdr.target == some ⟨0, 2⟩) = true ∧
    after (.readPitch .separator) (erased 5) (fun t => t.pu.volume == .headerFault && t.rtc.cartridge == .ready) = true := by decide +kernel
theorem test_header_not_found :
    let s (p n : Nat) (u : Option Loc) (run : Nat) : State :=
      { headering p false n [] with rdr := { (headering p false n []).rdr with unseen := u, blankRun := run, copies := [], opened := none } }
    after (.readPitch .blank) (s 63 1 none 63) (fun t => t.pu.volume == .blank && t.rtc.cartridge == .ready) = true ∧
    after (.readPitch .blank) (s 63 1 none 3) (fun t => t.rdr.target == some ⟨0, 0⟩ && t.rdr.pass == some 2) = true ∧
    after (.readPitch .blank) (s 63 5 none 3) (fun t => t.pu.volume == .headerFault) = true ∧
    after (.readPitch .endPattern) (s 30 1 (some ⟨0, 8⟩) 0) (fun t => t.rdr.target == some ⟨0, 8⟩ && t.rdr.pass == some 2) = true ∧
    after (.readPitch .endPattern) (s 30 5 (some ⟨0, 8⟩) 0) (fun t => t.pu.volume == .headerFault && t.eu.latches[23].set) = true := by decide +kernel
theorem test_unload_rewound :
    let s := running (reels ready (fun r => { r with cartridge := .unloading, phase := some .rewind, motion := .decelerating,
                                                     goal := .shuttle ⟨0, 0⟩ .unloadRewind true })) .unld .sequence
    after (.reelsAtRest 400) s (fun t => t.rtc.phase == some .headerWrite && t.wf.header == some { purpose := .seal, attempt := 1 }) = true ∧
    after (.reelsAtRest 400) { s with pu := { s.pu with eod := [none] } }
      (fun t => t.rtc.phase == some .unthread && t.rtc.threader == .returning && t.rtc.threadTimer == some ⟨0, 6000⟩) = true := by decide +kernel
theorem test_tension_band : after .tensionLeavesBand ready (fun t => t.rtc.faultTimer == some ⟨0, 250⟩) = true ∧
    after .tensionReturnsToBand (reels ready (fun r => { r with faultTimer := some ⟨9, 250⟩ })) (fun t => t.rtc.faultTimer.isNone) = true := by
  decide +kernel
theorem test_emergency : after .tensionFaultTimerExpiry
    (holding (reels streaming (fun r => { r with faultTimer := some ⟨250, 250⟩ })) [slotOf .writing 2] .write)
    (fun t => t.rtc.cartridge == .faulted && t.rtc.settleTimer == some ⟨0, 50⟩ && t.dbm.direction == .neutral && t.dbm.slots.isEmpty
      && t.cu.deferred == some ⟨.tensionFault, 0, 0, 2⟩ && t.sv.timebase == .off && t.eu.latches[22].set) = true := by decide +kernel
/-- EmergencyStop: a write command that reports, and an UNLD that finds the leader home or not. -/
theorem test_emergency_reports : after .tensionFaultTimerExpiry
    (running (holding (reels streaming (fun r => { r with faultTimer := some ⟨250, 250⟩ })) [slotOf .writing 2] .write) (.wrec 3) .writing)
    (fun t => t.cu.deferred.isNone && t.cu.queue.isEmpty && t.spu.out.getLast? == some (.resp 7 (ascii 'W' 'R' 'E' 'C')
      (.done .deferredError { count := 2, object := 0, deferred := 2 } []))) = true := by decide +kernel
theorem test_emergency_unld :
    let s := running (reels ready (fun r => { r with cartridge := .unloading, phase := some .rewind, faultTimer := some ⟨250, 250⟩ })) .unld .sequence
    after .tensionFaultTimerExpiry { s with sensors := { s.sensors with leader := .home } }
      (fun t => t.rtc.cartridge == .ejected && status (last t) == some .good) = true ∧
    after .tensionFaultTimerExpiry s (fun t => t.rtc.cartridge == .faulted && t.rtc.windTimer == some ⟨0, 180000⟩) = true ∧
    after .tensionFaultTimerExpiry (running s .load .sequence) (fun t => status (last t) == some .tensionFault) = true := by decide +kernel
/-- EmergencyStop: commands that end NOT_READY, the Reader, the window, a cleaning run. -/
theorem test_emergency_others :
    let stops (s : State) (c : Command) (p : Progress) (f : State → Bool) : Bool :=
      after .tensionFaultTimerExpiry (running (reels s (fun r => { r with faultTimer := some ⟨250, 250⟩ })) c p) f
    let ends (s : State) (c : Command) (p : Progress) : Bool := stops s c p (fun t => t.cu.queue.isEmpty && status (last t) == some .notReady)
    ends ready .rwnd (.shuttle .good) = true ∧ ends ready (.loct 0 3) (.shuttle .eod) = true ∧ ends ready (.spac .eod 0) (.shuttle .good) = true ∧
    ends ready (.dpar 1 [0, 0, 0, 0]) .header = true ∧
    stops { streaming with rdr := { Rdr.reset with activity := .seeking }, dbm := (holding ready [slotOf .ready 1, slotOf .loading 0] .read).dbm } (.rrec 1 9)
      .reading (fun t => t.rdr.activity == .ended .fault && t.dbm.slots.map Slot.state == [.ready] && t.cu.queue.length == 1) = true ∧
    stops { ready with sm := { Sm.reset with window := some 9 } } .rwnd (.shuttle .good) (fun t => t.sm.window.isNone) = true ∧
    after .tensionFaultTimerExpiry (reels cleaningRun (fun r => { r with faultTimer := some ⟨250, 250⟩ }))
      (fun t => t.hm == cleaningRun.hm && t.rtc.cartridge == .faulted && !t.eu.latches[17].set && !t.eu.latches[18].set) = true := by decide +kernel
theorem test_recovery_wind : after .recoveryWindComplete (reels ready (fun r => { r with cartridge := .faulted, windTimer := some ⟨1, 180000⟩ }))
    (fun t => t.rtc.threader == .returning && t.rtc.threadTimer == some ⟨0, 6000⟩) = true ∧
    after .recoveryWindTimerExpiry (reels ready (fun r => { r with cartridge := .faulted, windTimer := some ⟨180000, 180000⟩ }))
    (fun t => t.rtc.cartridge == .faulted && t.eu.latches[21].set) = true := by decide +kernel
theorem test_metre : after (.metreTravelled 600) (reels streaming (fun r => { r with remainder := 500 }))
    (fun t => t.hm.metres == 1 && t.hm.total == 1 && t.rtc.loadMetres == 1 && t.rtc.remainder == 100) = true ∧
    after (.metreTravelled 499) (reels streaming (fun r => { r with remainder := 500 })) (fun t => t.hm == ready.hm && t.rtc.remainder == 999) = true ∧
    after (.metreTravelled 600) (reels ready (fun r => { r with remainder := 500 })) (fun t => t.rtc.remainder == 500) = true := by
  decide +kernel
/-- MetreCounted: a cleaning cartridge's metre in RUN, short of the length and reaching it, and in its rewind. -/
theorem test_metre_cleaning :
    let s (n : Nat) : State := reels cleaningRun (fun r => { r with remainder := 500, runMetres := n })
    after (.metreTravelled 500) (s 58) (fun t => t.rtc == { (s 59).rtc with remainder := 0 } && t.hm == Hm.reset && !t.eu.latches[17].set) = true ∧
    after (.metreTravelled 500) (s 59) (fun t => t.rtc.runMetres == 60 && t.rtc.remainder == 0 && t.rtc.phase == some .rewind
      && t.rtc.motion == .decelerating && t.hm.cleanings == 1 && t.hm.total == 0 && t.eu.latches[17].set) = true ∧
    after (.metreTravelled 499) (s 59) (fun t => t.rtc == { (s 59).rtc with remainder := 999 }) = true ∧
    after (.metreTravelled 500) (reels (s 59) (fun r => { r with phase := some .rewind }))
      (fun t => t.rtc.runMetres == 59 && t.rtc.remainder == 0 && t.hm == Hm.reset) = true := by decide +kernel
theorem test_run_length : after .runLengthReached cleaningRun
    (fun t => t.hm.cleanings == 1 && t.rtc.phase == some .rewind && t.eu.latches[17].set && t.rtc.motion == .decelerating) = true := by decide +kernel
theorem test_end_marker : after .endMarkerSensed cleaningRun
    (fun t => t.hm == cleaningRun.hm && t.rtc.phase == some .rewind && t.eu.latches[18].set) = true := by decide +kernel

def settling (g : Goal) (step : Option Nat) : State :=
  reels ready (fun r => { r with motion := .settling, settleTimer := some ⟨50, 50⟩, goal := g, stepTo := step })
theorem test_settled : after .settleTimerExpiry (settling .none none) (fun t => t.rtc.motion == .stopped && t.rtc.settleTimer.isNone) = true ∧
    after .settleTimerExpiry (settling (.runUp ⟨0, 64⟩ true) none) (fun t => t.rtc.motion == .accelerating) = true ∧
    after .settleTimerExpiry (settling (.runUp ⟨0, 64⟩ true) (some 0)) (fun t => t.rtc.motion == .stopped) = true ∧
    after .settleTimerExpiry (settling (.wrapTurn 0) none) (fun t => t.rtc.motion == .accelerating && t.rtc.goal == .wrapTurn 0) = true := by
  decide +kernel
theorem test_stepped : after .headStepComplete (settling (.runUp ⟨1, 0⟩ true) (some 1)) (fun t => t.rtc.headWrap == some 1 && t.rtc.motion == .settling) = true ∧
    after .headStepComplete (reels (settling (.runUp ⟨1, 0⟩ true) (some 1)) (fun r => { r with motion := .stopped, settleTimer := none }))
      (fun t => t.rtc.motion == .accelerating && t.rtc.travel == some .reverse) = true ∧
    after .headStepComplete (reels ready (fun r => { r with cartridge := .tensioning, stepTo := some 0, headWrap := none }))
      (fun t => t.rtc.headWrap.isNone && t.rtc.stepTo.isNone) = true := by decide +kernel
theorem test_streaming_turned :
    let turning (h : Nat) : State := reels ready (fun r => { r with motion := .accelerating, goal := .wrapTurn 1, headWrap := some h })
    after .streamingReached (turning 1) (fun t => t.rtc.goal == .streamOn) = true ∧
    after .streamingReached (turning 0) (fun t => t.rtc.goal == .wrapTurn 1) = true := by decide +kernel
theorem test_streaming_reached : after .streamingReached
    { ready with rtc := { ready.rtc with motion := .accelerating }, sv := { ready.sv with timebase := .acquiring, runCount := 64 } }
    (fun t => t.rtc.motion == .streaming && t.sv.timebase == .locked) = true := by decide +kernel
theorem test_approach : after .shuttleApproach (reels ready (fun r => { r with motion := .shuttling, goal := .shuttle ⟨0, 0⟩ .rwnd false }))
    (fun t => t.rtc.motion == .decelerating && t.rtc.goal == .shuttle ⟨0, 0⟩ .rwnd true) = true := by decide +kernel
theorem test_rest_stop : ready.writeIdle = true ∧ after (.reelsAtRest 900) (reels streaming (fun r => { r with motion := .decelerating, goal := .stop }))
    (fun t => t.rtc.motion == .settling && t.rtc.place == some 900 && t.sv.timebase == .off) = true := by decide +kernel
theorem test_rest_turn : after (.reelsAtRest 40600) (reels streaming (fun r => { r with motion := .decelerating, goal := .wrapTurn 1 }))
    (fun t => t.rtc.stepTo == some 1 && t.rtc.goal == .wrapTurn 1) = true ∧
    streaming.readIdle = true ∧ streaming.generation.wraps = 160 ∧
    after (.reelsAtRest 40600) (reels streaming (fun r => { r with motion := .decelerating, goal := .wrapTurn 160 }))
      (fun t => t.rtc.stepTo.isNone && t.rtc.goal == .none) = true := by decide +kernel
theorem test_rest_rwnd : after (.reelsAtRest 400)
    (reels (running ready .rwnd (.shuttle .good)) (fun r => { r with motion := .decelerating, goal := .shuttle ⟨0, 0⟩ .rwnd true }))
    (fun t => status (last t) == some .good && t.cu.queue.isEmpty) = true := by decide +kernel

/-! ### The servo -/

/-- A burst at a pitch of wrap 0, 12,000 µs after instant 0 (T at 2,000 mm/s). -/
def burstAt (p : Nat) (lateral : Int) : Burst := { time := ⟨12000, 1⟩, ch0 := some ⟨400 + p, lateral⟩, ch1 := some ⟨400 + p, lateral⟩ }
def acquiring (n : Nat) : State := { streaming with sv := { streaming.sv with timebase := .acquiring, clock := .reference, runCount := n } }
theorem test_burst_hypotheses : (acquiring 63).writeIdle = true ∧ (acquiring 63).readIdle = true ∧ (acquiring 63).wf.stage = .idle
    ∧ (acquiring 63).judged = true ∧ (acquiring 63).sv.accepts (burstAt 101 16).time true = true
    ∧ mergeReadings (burstAt 101 16).ch0 (burstAt 101 16).ch1 = some (501, 16) := by decide +kernel
theorem test_burst_locks : after (.servoBurst (burstAt 101 16)) (acquiring 63)
    (fun t => t.sv.timebase == .locked && t.sv.inhibit && t.sv.lateral == some 16 && t.rtc.place == some 501) = true ∧
    after (.timebaseLocked (burstAt 101 16)) (acquiring 63) (fun t => t.sv.timebase == .locked && t.sv.clock == .servo) = true := by decide +kernel
/-- BurstsBringLock: TIMEBASE_LOCKED where the 64th burst's own announcement begins the turn of a full wrap, so that LOCKED ends in the
step, and where the burst is the 63rd. -/
theorem test_lock_and_turn :
    let full (n : Nat) : State := { reels (acquiring n) (fun r => { r with goal := .wrapTurn 1 }) with
                                    sv := { (acquiring n).sv with lastPlace := some (.pitch 39999) } }
    (full 63).judged = true ∧
    after (.timebaseLocked (burstAt 40001 0)) (full 63) (fun t => t.rtc.motion == .decelerating && t.rtc.place == some 40401) = true ∧
    after (.timebaseLocked (burstAt 40001 0)) (full 63) (fun t => after (.servoBurst (burstAt 40001 0)) (full 63) (fun u => t == u)) = true ∧
    after (.timebaseLocked (burstAt 40001 0)) (full 62) (fun t => t == full 62) = true := by decide +kernel
/-- BurstsBringLock: the ends of the window at 2,000 mm/s, T = 12,000 µs. -/
theorem test_burst_window :
    let v : Sv := { streaming.sv with lastBurst := some ⟨1, 2⟩ }
    v.accepts ⟨21001, 2⟩ true = true ∧ v.accepts ⟨27001, 2⟩ true = true ∧ v.accepts ⟨21000, 2⟩ true = false ∧ v.accepts ⟨27002, 2⟩ true = false ∧
    v.accepts ⟨21001, 2⟩ false = false ∧ v.accepts ⟨0, 1⟩ true = false ∧ v.speed = 2000 := by decide +kernel
theorem test_merge : mergeReadings (some ⟨500, -9⟩) (some ⟨501, 4⟩) = some (500, -2) ∧ mergeReadings (some ⟨500, 110⟩) (some ⟨501, 92⟩) = some (500, 100) ∧
    mergeReadings none (some ⟨501, -130⟩) = some (501, -100) ∧ mergeReadings none none = none := by decide +kernel
/-- BurstsWhileLocked: the worked figures of 8.8, a mean of 5,440 µs, and one that is no whole number of microseconds. -/
theorem test_measured : measuredSpeed (List.replicate 16 ⟨5440, 1⟩) = 4411 ∧ measuredSpeed (⟨10881, 2⟩ :: List.replicate 15 ⟨5440, 1⟩) = 4411 := by
  decide +kernel
theorem test_burst_counts : after (.servoBurst (burstAt 101 0)) (acquiring 62) (fun t => t.sv.runCount == 63 && t.sv.timebase == .acquiring) = true ∧
    after (.servoBurst { burstAt 101 0 with time := ⟨14000, 1⟩ }) (acquiring 62) (fun t => t.sv.runCount == 0) = true ∧
    after (.servoBurst (burstAt 101 0)) ready (fun t => t.sv == ready.sv && t.rtc == ready.rtc) = true := by decide +kernel
theorem test_burst_missing : streaming.judged = true ∧ after .burstMissing streaming (fun t => t.sv.missCount == 1 && t.sv.lastPlace == some (.pitch 101)) = true ∧
    after .burstMissing { streaming with sv := { streaming.sv with missCount := 2 } } (fun t => t.sv.timebase == .lost && t.eu.latches[3].set) = true ∧
    after .timebaseLost { streaming with sv := { streaming.sv with missCount := 2 } } (fun t => t.sv.timebase == .lost) = true := by decide +kernel
/-- BurstsWhileLocked: a valid burst, a deviation that begins with the 16th interval, an interval outside its window, a burst after the
loss, a turnaround position. -/
def historyOf (n : Nat) (d : Nat) : State :=
  { streaming with sv := { streaming.sv with history := List.replicate n ⟨d, 1⟩, lastValid := true } }
theorem test_locked_burst : streaming.writeIdle = true ∧ streaming.readIdle = true ∧ streaming.sv.accepts (burstAt 101 16).time true = true ∧
    after (.servoBurst (burstAt 101 16)) streaming (fun t => t.sv.lastPlace == some (.pitch 101) && t.sv.inhibit && t.rtc.place == some 501) = true ∧
    after (.servoBurst (burstAt 101 0)) (historyOf 15 11000) (fun t => t.sv.history.length == 16 && t.sv.deviating && t.eu.latches[4].set) = true ∧
    after (.servoBurst (burstAt 101 0)) (historyOf 14 11000) (fun t => t.sv.history.length == 15 && t.sv.measured.isNone) = true ∧
    after (.servoBurst { burstAt 101 5 with time := ⟨14000, 1⟩ }) streaming (fun t => t.sv.missCount == 1 && t.sv.lateral == some 5) = true := by
  decide +kernel
theorem test_lost_and_turn :
    after (.servoBurst { time := ⟨12000, 1⟩, ch0 := none, ch1 := none })
      { reels streaming (fun r => { r with headWrap := none }) with sv := { streaming.sv with timebase := .lost, clock := .reference } }
      (fun t => t.sv.timebase == .acquiring && t.sv.runCount == 0) = true ∧
    after (.servoBurst (burstAt 40001 0)) (reels streaming (fun r => { r with goal := .wrapTurn 1 }))
      (fun t => t.rtc.motion == .decelerating && t.rtc.place == some 40401 && t.wf.stage == streaming.wf.stage) = true := by decide +kernel
/-- BurstsWhileLocked: a third miss that passes the tape into the far turnaround zone, LOST with the head on a wrap and a valid burst there, a
missing one, a turn begun by a burst whose interval joins the history. -/
theorem test_turn_unlocked :
    let atEnd := reels { streaming with sv := { streaming.sv with missCount := 2 } } (fun r => { r with goal := .wrapTurn 1, place := some 40399 })
    let lost : State := { streaming with sv := { streaming.sv with timebase := .lost, clock := .reference } }
    atEnd.turnsAt atEnd.wordOnward = true ∧ after .burstMissing atEnd (fun t => t.sv.timebase == .acquiring && t.rtc.motion == .decelerating) = true ∧
    after .timebaseLost atEnd (fun t => t.eu.latches[3].set) = true ∧
    after (.servoBurst (burstAt 101 0)) lost (fun t => t.sv.timebase == .acquiring && t.sv.runCount == 1) = true ∧
    after .burstMissing lost (fun t => t.sv.timebase == .acquiring && t.sv.runCount == 0) = true ∧
    after (.servoBurst (burstAt 40001 0)) (reels (historyOf 3 12000) (fun r => { r with goal := .wrapTurn 1 }))
      (fun t => t.rtc.motion == .decelerating && t.sv.history.isEmpty) = true := by decide +kernel
/-- AnnouncedPitchWritten: a nominal row set, a row set still unverified, the first set of an attempt where the span is due and at its target,
a rewrite set, a target jumped over, the separator, an EOD mark's pitch. -/
def writesAt (st : WfStage) (f : Option InFlight) : State :=
  { holding streaming [slotOf .writing 2] .write with
    wf := { Wf.reset with stage := st, nextSet := 1, planned := true, writePoint := some (0, ⟨0, 101⟩), inFlight := f } }
theorem test_announced_set : after (.servoBurst (burstAt 101 0)) (writesAt .span none) (fun t => t.wf.nextSet == 2
      && t.wf.writePoint == some (0, ⟨0, 102⟩) && t.wf.inFlight.map InFlight.place == some ⟨0, 101⟩ && t.tape.length == 1) = true ∧
    after (.servoBurst (burstAt 101 0)) (writesAt .span (some { rows := nominalRows 0, place := ⟨0, 100⟩ }))
      (fun t => t.wf.nextSet == 1 && t.tape.isEmpty) = true := by decide +kernel
theorem test_announced_first :
    let first (st : WfStage) : State := { writesAt st none with wf := { (writesAt st none).wf with nextSet := 0 } }
    after (.servoBurst (burstAt 101 0)) (first .span) (fun t => t.wf.nextSet == 1 && t.wf.spanStart == some ⟨0, 101⟩ && t.wf.eodPending) = true ∧
    after (.servoBurst (burstAt 101 0)) (first (.runUp ⟨0, 101⟩ .span true)) (fun t => t.wf.nextSet == 1 && t.wf.stage == .span) = true ∧
    after (.servoBurst (burstAt 101 0)) (first (.runUp ⟨0, 99⟩ .span false))
      (fun t => t.tape.isEmpty && t.wf.misses == 1 && t.wf.stage == .runUp ⟨0, 99⟩ .span true) = true := by decide +kernel
theorem test_announced_rewrite : after (.servoBurst (burstAt 101 0))
    { writesAt .span none with wf := { (writesAt .span none).wf with nextSet := 16, queue := [⟨40, 1, 0⟩, ⟨41, 1, 1⟩] } }
    (fun t => t.wf.rewriteSets == 1 && t.wf.queue.isEmpty
      && t.wf.inFlight.map (fun f => (f.rows[0], f.rows[1], f.rows[2])) == some (some 41, some 40, none)) = true := by decide +kernel
theorem test_announced_end :
    after (.servoBurst (burstAt 101 0)) (writesAt (.closing .done none) none) (fun t => t.wf.stage == .closing .done (some ⟨0, 101⟩)
      && t.tape == [.separator ⟨0, 101⟩]) = true ∧
    after (.servoBurst (burstAt 101 0)) (writesAt (.marking .flush ⟨0, 100⟩ 1) none) (fun t => t.wf.stage == .marking .flush ⟨0, 100⟩ 2
      && t.tape == [.endPattern ⟨0, 101⟩]) = true := by decide +kernel
theorem test_lateral : after (.lateralFrame (some 20) (some 11)) streaming (fun t => t.sv.lateral == some 15 && !t.sv.inhibit) = true ∧
    after (.lateralFrame (some (-16)) none) streaming (fun t => t.sv.inhibit) = true := by decide +kernel

/-! ### Reading -/

/-- A row of dataset 0 on a channel of wrap 0. -/
def rowOn (row : Nat) : RowRead :=
  { dataset := 0, row := BitVec.ofNat 16 row, wrap := 0, attempt := 1, check := headerCheck 0 row 0 1, outcome := .clean, payload := [(0, 9)] }
def rowSet0 : Vector (Option RowRead) 16 := Vector.ofFn (fun c => some (rowOn c.val))
def seeking : State :=
  { holding streaming [{ slotOf .loading 0 with first := none, passes := some 1 }] .read with
    rdr := { Rdr.reset with activity := .seeking, expected := some (0, 0), pass := some 1 } }
theorem test_pitch_hypotheses : seeking.writeIdle = true ∧ seeking.locked = true ∧ seeking.pitchHere = some ⟨0, 100⟩ ∧ seeking.pu.scan = none
    ∧ goodRows (Vector.replicate 16 none) 0 = [] ∧ (goodRows rowSet0 0).length = 16 := by decide +kernel
theorem test_pitch_rows : after (.readPitch (.rowSet rowSet0)) seeking
    (fun t => t.rdr.activity == .capturing && t.rdr.copies == [⟨0, 100⟩] && t.rdr.rows[15] == .good 1 1
      && t.dbm.dram == (List.range 16).map (fun n => (8192 * n, 9))) = true := by decide +kernel
theorem test_pitch_bad_header : after (.readPitch (.rowSet ((Vector.replicate 16 none).set 3 (some { rowOn 3 with check := 0 })))) seeking
    (fun t => t.rdr.headerErrors == 1 && t.rdr.copies.isEmpty) = true := by decide +kernel
theorem test_pitch_blank : after (.readPitch .blank) { seeking with rdr := { seeking.rdr with blankRun := 63, blankStart := some ⟨0, 37⟩ } }
    (fun t => t.rdr.activity == .ended .endOfData && t.dbm.slots.isEmpty) = true := by decide +kernel
/-- CopyEvaluated: a copy with every row GOOD and its trailer, one with every row missing on each pass, an end pattern. -/
def capturing (rows : RowState) (pass : Nat) (dram : Memory) : State :=
  { seeking with
    dbm := { seeking.dbm with dram := dram },
    rdr := { seeking.rdr with activity := .capturing, copyOpen := true, copy := some 1, copies := [⟨0, 90⟩], opened := some ⟨0, 90⟩,
                              pass := some pass, rows := Vector.replicate 256 rows } }
def oneEntry : Memory := Memory.writeBytes []
  1966016 (Trailer.bytes { partition := 0, continues := false, entries := 1, dataset := 0, first := 0, payload := 0, filemarks := 0 })
theorem test_copy_good : (capturing (.good 1 1) 1 oneEntry).evaluation.isSome = true ∧
    after (.readPitch .separator) (capturing (.good 1 1) 1 oneEntry)
      (fun t => t.dbm.slots.map Slot.state == [.ready] && t.dbm.slots.map Slot.outcome == [some 0]) = true := by decide +kernel
theorem test_copy_bad : (capturing .absent 1 []).evaluation = none ∧
    after (.readPitch .separator) (capturing .absent 1 []) (fun t => t.rdr.activity == .seeking) = true ∧
    after (.readPitch .separator) (capturing .absent 2 []) (fun t => t.rdr.activity == .repositioning && t.rdr.target == some ⟨0, 90⟩
      && t.rdr.pass == some 3) = true ∧
    after (.readPitch .separator) (capturing .absent 5 []) (fun t => t.dbm.slots.map Slot.outcome == [some 256] && t.eu.latches[1].set
      && t.rdr.activity == .ended .failed) = true ∧
    after (.readPitch .endPattern) (capturing .absent 1 []) (fun t => t.dbm.slots.isEmpty && t.rdr.activity == .ended .endOfData) = true := by
  decide +kernel
/-- CopyEvaluated: a lost row regenerated as it was written, kept in the slot where the trailer then fails. -/
def lostRow (dram : Memory) : State :=
  let s := capturing (.good 1 1) 1 dram
  { s with rdr := { s.rdr with rows := s.rdr.rows.set 3 .absent },
           tape := [.rowSet ⟨0, 90⟩ ((List.range 256).map (fun r =>
             { dataset := 0, row := some r, wrap := 0, attempt := 1, check := 0, payload := if r = 3 then [(5, 6)] else dram.row 0 r }))] }
theorem test_copy_regenerated : after (.readPitch .separator) (lostRow [])
    (fun t => t.dbm.dram == [(8192 * 3 + 5, 6)] && t.rdr.activity == .seeking && t.dbm.slots.map Slot.state == [.loading]) = true := by decide +kernel
/-- CopyEvaluated: dataset D converted, and end of data in its place. -/
theorem test_copy_converted :
    let s := capturing (.good 1 1) 1 (Memory.writeBytes oneEntry 1966000 [4, 1])
    after (.readPitch .separator) { running s (.wrec 2) .settleD with
        rdr := { s.rdr with alone := true },
        pu := { s.pu with cut := some { dataset := 0, start := ⟨0, 90⟩, first := 0, continues := false, filemarks := 0, cutAt := 1 } } }
      (fun t => t.dbm.slots.map (fun x => (x.state, x.entries, x.filemarks)) == [(.filling, some 1, 1)] && t.dbm.direction == .write
        && t.pu.eod == [some { object := 1, last := none, mark := ⟨0, 90⟩, onTape := false }] && t.wf.eodPending && t.rc.resetOwed
        && t.cu.progress == .writing && t.spu.credits == 256) = true := by decide +kernel
theorem test_copy_alone_ends :
    let s := capturing (.good 1 1) 1 oneEntry
    after (.readPitch .endPattern) { running s (.wrec 2) .settleD with
        rdr := { s.rdr with alone := true },
        pu := { s.pu with eod := [none], object := 3,
                          cut := some { dataset := 0, start := ⟨0, 90⟩, first := 0, continues := true, filemarks := 0, cutAt := 1 } } }
      (fun t => t.pu.eod == [some { object := 0, last := none, mark := ⟨0, 90⟩, onTape := false }] && t.pu.object == 0 && t.dbm.slots.isEmpty
        && t.dbm.direction == .neutral && t.rdr.activity == .idle && status (last t) == some .mediumError) = true := by decide +kernel
/-- A row that C2 regenerates is the row of the attempt that wrote the good rows as they were read, a later attempt that was cut off passed
over (R192, log 13). -/
theorem test_written_row :
    let laid (row attempt : Nat) (v : Byte) : TapeWrite :=
      .rowSet ⟨0, 90⟩ [{ dataset := 0, row := some row, wrap := 0, attempt := attempt, check := 0, payload := [(5, v)] }]
    let tape := [laid 0 1 7, laid 3 1 6, laid 0 2 7, .separator ⟨0, 93⟩, laid 0 1 8, .cutOff ⟨0, 90⟩]
    writtenRow tape 0 [(0, [(5, 7)])] 3 = some [(5, 6)] ∧ writtenRow tape 0 [(0, [(5, 8)])] 3 = none ∧
    writtenRow tape 1 [(0, [(5, 7)])] 3 = none := by decide +kernel
/-- PitchRead: rows placed in a copy with a span start: GOOD, ERASED, a GOOD record standing; rows that imply a later start, an earlier one,
rewrite rows, and a copy whose start is not listed. -/
def rowAt (row attempt : Nat) (o : RowOutcome) : RowRead :=
  { dataset := 0, row := BitVec.ofNat 16 row, wrap := 0, attempt := BitVec.ofNat 8 attempt, check := headerCheck 0 row 0 attempt, outcome := o,
    payload := [(1, 9)] }
def oneRow (c : Fin 16) (r : RowRead) : PitchContent := .rowSet ((Vector.replicate 16 none).set c (some r))
def placing (start : List Loc) (row : RowState) : State :=
  let s := capturing row 2 []
  { s with rdr := { s.rdr with copies := start, tallies := Vector.replicate 16 { rows := 5, failed := 1 } } }
theorem test_rows_placed :
    after (.readPitch (oneRow 4 (rowAt 163 1 .clean))) (placing [⟨0, 90⟩] .absent) (fun t => t.rdr.rows[163] == .absent && t.rdr.copies == [⟨0, 90⟩]) = true ∧
    after (.readPitch (oneRow 13 (rowAt 163 1 .clean))) (placing [⟨0, 90⟩] .absent) (fun t => t.rdr.rows[163] == .good 2 1
      && t.dbm.dram == [(163 * 8192 + 1, 9)] && t.rdr.tallies[13] == ⟨6, 1⟩ && t.rdr.tallies[4] == ⟨5, 1⟩) = true ∧
    after (.readPitch (oneRow 13 (rowAt 163 1 .uncorrectable))) (placing [⟨0, 90⟩] .absent) (fun t => t.rdr.rows[163] == .erased 2 1
      && t.dbm.dram.isEmpty && t.rdr.tallies[13] == ⟨6, 2⟩) = true ∧
    after (.readPitch (oneRow 13 (rowAt 163 1 .clean))) (placing [⟨0, 90⟩] (.good 1 1)) (fun t => t.rdr.rows[163] == .good 1 1 && t.dbm.dram.isEmpty) = true := by
  decide +kernel
theorem test_rows_by_start :
    after (.readPitch (oneRow 13 (rowAt 163 1 .clean))) (placing [⟨0, 80⟩] (.good 1 1)) (fun t => t.rdr.rows[163] == .good 2 1 && t.rdr.rows[0] == .absent
      && t.rdr.copies == [⟨0, 90⟩] && t.rdr.tallies[13] == ⟨1, 0⟩ && t.rdr.tallies[0] == ⟨0, 0⟩) = true ∧
    after (.readPitch (oneRow 13 (rowAt 163 1 .clean))) (placing [⟨0, 95⟩] .absent) (fun t => t.rdr.rows[163] == .absent && t.rdr.copies == [⟨0, 95⟩]
      && t.rdr.tallies[13] == ⟨5, 1⟩) = true ∧
    after (.readPitch (oneRow 2 (rowAt 7 2 .clean))) (placing [⟨0, 84⟩] .absent) (fun t => t.rdr.rows[7] == .good 2 1) = true ∧
    after (.readPitch (oneRow 2 (rowAt 7 2 .clean))) (placing [⟨0, 85⟩] .absent) (fun t => t.rdr.rows[7] == .absent) = true ∧
    after (.readPitch (oneRow 2 (rowAt 7 2 .clean))) (placing [] .absent) (fun t => t.rdr.rows[7] == .absent && t.rdr.copies.isEmpty) = true ∧
    after (.readPitch (oneRow 13 (rowAt 163 1 .clean))) (placing [] .absent) (fun t => t.rdr.rows[163] == .good 2 1 && t.rdr.copies == [⟨0, 90⟩]) = true := by
  decide +kernel

/-- PositionUnit: a LOCT whose scan closes a copy, proven or not, and meets the end of data. -/
def located (c : Option Capture) (proven : List Descriptor) : State :=
  let s := running { streaming with pu := { ready.pu with eod := [none] } } (.loct 0 0) .scan
  { s with pu := { s.pu with scan := some {
      purpose := .locate 0, fromStart := true, startDataset := 0, startObject := 0, seek := ⟨0, 64⟩, reached := true, pass := 1, expected := 0,
      closedUnproven := false, capture := c, firstStart := none, before := ⟨0, 64⟩, proven := proven, unproven := [],
      highest := proven.getLast?.map Descriptor.dataset, blankRun := 0, blankStart := none, unseen := none, lastSep := ⟨0, 64⟩ } } }
def captured (rows : List (Nat × Cells)) : Capture := { opened := ⟨0, 80⟩, start := some ⟨0, 80⟩, rows := rows }
theorem test_scan_proves :
    after (.readPitch .separator) (located (some (captured [(239, oneEntry.cells (239 * 8192) 8192)])) [])
      (fun t => t.pu.object == 0 && t.pu.anchor == some (0, ⟨0, 80⟩) && status (last t) == some .good) = true ∧
    after (.readPitch .separator) (located (some (captured [])) [])
      (fun t => t.pu.scan.map Scan.closedUnproven == some true && t.spu.out.isEmpty) = true ∧
    after (.readPitch (.rowSet (Vector.replicate 16 none))) (located none []) (fun t => t.spu.out.isEmpty) = true := by decide +kernel
/-- EmergencyStop: a LOCT that scans ends at the last proven boundary. -/
theorem test_emergency_scan :
    let s := located none [{ dataset := 2, first := 0, continues := false, entries := 0, filemarks := 0, start := ⟨0, 80⟩, kinds := some [], before := ⟨0, 64⟩ }]
    after .tensionFaultTimerExpiry (reels s (fun r => { r with faultTimer := some ⟨250, 250⟩ }))
      (fun t => t.pu.scan.isNone && t.pu.object == 0 && status (last t) == some .notReady) = true := by decide +kernel
/-- EmergencyStop: a search for dataset D that fails, is aborted or is stopped takes the last dataset proven before its target, or leaves the position and clears the
anchor (R117, R118); the locate before a read does neither (R104). -/
theorem test_search_interrupted :
    let d (n o : Nat) : Descriptor := { dataset := n, first := o, continues := false, entries := 0, filemarks := 0, start := ⟨0, 80⟩, kinds := some [],
                                        before := ⟨0, 64⟩ }
    let s (c : Command) (purpose : ScanFor) (ds : List Descriptor) : State :=
      let t := running (located none ds) c .scan
      { t with pu := { t.pu with object := 9, anchor := some (7, ⟨2, 0⟩), scan := t.pu.scan.map (fun x => { x with purpose := purpose }) } }
    let ends (t : State) (o : Nat) (a : Option (Nat × Loc)) : Bool :=
      after (.abort 0 []) t (fun u => u.pu.object == o && u.pu.anchor == a && u.pu.scan.isNone && u.cu.queue.isEmpty)
    ends (s (.wrec 1) .truncate [d 2 5]) 5 (some (2, ⟨0, 80⟩)) = true ∧ ends (s (.wrec 1) .truncate []) 9 none = true ∧
    after .tensionFaultTimerExpiry (reels (s (.wrec 1) .truncate [d 2 5]) (fun r => { r with faultTimer := some ⟨250, 250⟩ }))
      (fun t => t.pu.object == 5 && status (last t) == some .notReady) = true ∧
    after .tensionFaultTimerExpiry (reels (s (.rrec 1 9) .read [d 2 5]) (fun r => { r with faultTimer := some ⟨250, 250⟩ }))
      (fun t => t.pu.object == 9 && status (last t) == some .notReady) = true ∧
    ends (s .eras .truncate [d 3 10]) 9 none = true ∧ ends (s (.rrec 1 9) .read [d 2 5]) 9 (some (7, ⟨2, 0⟩)) = true ∧
    (match (s (.wrec 1) .truncate [d 2 5]).pu.scan with
      | some c => let t := (s (.wrec 1) .truncate [d 2 5]).scanFails c
                  t.pu.object == 5 && t.pu.anchor == some (2, ⟨0, 80⟩) && status (last t) == some .mediumError
      | none => false) = true := by decide +kernel
theorem test_scan_end :
    after (.readPitch .endPattern)
      (located none [{ dataset := 2, first := 0, continues := false, entries := 0, filemarks := 0, start := ⟨0, 80⟩, kinds := some [], before := ⟨0, 64⟩ }])
      (fun t => t.pu.eod == [some { object := 0, last := some 2, mark := ⟨0, 100⟩, onTape := true }] && status (last t) == some .eod) = true := by
  decide +kernel
/-- PositionUnit: a SPAC whose scan closes a proven copy of objects 0 to 3, of which 1 is a filemark, or meets the end of data after objects 0 and 1. -/
def threeAndMark : Capture :=
  let m := Memory.writeBytes [] 1966016
    (Trailer.bytes { partition := 0, continues := false, entries := 4, dataset := 0, first := 0, payload := 0, filemarks := 0 })
  let entry (k : EntryKind) : List Byte := IndexEntry.bytes { kind := k, reset := false, compressed := false, host := 0, stored := 0, check := 0 }
  captured [(239, (Memory.writeBytes m 1965952 ([.whole, .whole, .filemark, .whole].flatMap entry)).cells (239 * 8192) 8192)]
/-- A copy of a dataset of objects 5 and 6. -/
def laterCopy : Capture :=
  let m := Memory.writeBytes [] 1966016
    (Trailer.bytes { partition := 0, continues := false, entries := 2, dataset := 3, first := 5, payload := 0, filemarks := 0 })
  let entry : List Byte := IndexEntry.bytes { kind := .whole, reset := false, compressed := false, host := 0, stored := 0, check := 0 }
  captured [(239, (Memory.writeBytes m 1965984 (entry ++ entry)).cells (239 * 8192) 8192)]
def spacing (k : SpaceKind) (n : Int) (object : Nat) (purpose : ScanFor) (s : State) : State :=
  { running s (.spac k n) .scan with pu := { s.pu with object := object, scan := s.pu.scan.map (fun c => { c with purpose := purpose }) } }
def spaceEnds (i : Instr) (s : State) (code : Code) (o residual : Nat) : Bool :=
  after i s (fun t => t.pu.scan.isNone && t.pu.object == o && last t == .resp 7 (ascii 'S' 'P' 'A' 'C') (.done code { count := residual, object := o } []))
theorem test_space_copy :
    let closes (k : SpaceKind) (n : Int) (object : Nat) (f : ScanFor) := spaceEnds (.readPitch .separator) (spacing k n object f (located (some threeAndMark) []))
    closes .records 2 0 (.spaceRecords 0 2) .filemark 2 1 = true ∧ closes .records 2 2 (.spaceRecords 2 4) .good 4 0 = true ∧
    closes .records 2 2 (.place 2) .good 4 0 = true ∧ closes .records (-2) 3 (.spaceRecords 1 3) .filemark 2 1 = true ∧
    closes .records (-1) 3 (.spaceRecords 2 3) .good 2 0 = true ∧ closes .records (-2) 1 (.spaceRecords 0 1) .bop 0 1 = true ∧
    closes .filemarks 1 0 (.spaceFilemark 1 0) .good 2 0 = true ∧ closes .filemarks (-1) 3 (.spaceFilemark 1 1) .good 1 0 = true ∧
    closes .filemarks (-2) 3 (.place 3) .bop 0 1 = true ∧
    after (.readPitch .separator) (spacing .eod 0 2 (.place 2) (located (some threeAndMark) []))
      (fun t => t.pu.scan.map Scan.purpose == some .spaceEnd && t.cu.queue.length == 1) = true := by decide +kernel
/-- A space that comes to object 0 has the anchor of the copy met there; where no copy of dataset 0 was met, its first data pitch (R115, R116). -/
theorem test_space_to_start :
    let anchored (k : SpaceKind) (n : Int) (object : Nat) (f : ScanFor) (s : State) (a : Nat × Loc) : Bool :=
      after (.readPitch .separator) (spacing k n object f s) (fun t => t.pu.object == 0 && t.pu.anchor == some a)
    let met := located (some threeAndMark) []
    let later := { met with pu := { met.pu with scan := met.pu.scan.map (fun c => { c with expected := 3, fromStart := false, capture := some laterCopy }) } }
    anchored .records (-1) 1 (.spaceRecords 0 1) met (0, ⟨0, 80⟩) = true ∧ anchored .records (-2) 1 (.spaceRecords 0 1) met (0, ⟨0, 80⟩) = true ∧
    anchored .filemarks (-2) 3 (.place 3) met (0, ⟨0, 80⟩) = true ∧ anchored .filemarks (-9) 6 (.place 6) later (0, ⟨0, 64⟩) = true := by decide +kernel
theorem test_space_end :
    let meets (k : SpaceKind) (n : Int) (object : Nat) (f : ScanFor) := spaceEnds (.readPitch .endPattern) (spacing k n object f
      (located none [{ dataset := 2, first := 0, continues := false, entries := 2, filemarks := 0, start := ⟨0, 80⟩, kinds := some [.whole, .filemark],
                       before := ⟨0, 64⟩ }]))
    meets .eod 0 0 .spaceEnd .good 2 0 = true ∧ meets .eod 0 0 (.place 0) .good 2 0 = true ∧ meets .eod 0 2 (.place 2) .good 2 0 = true ∧
    meets .records 5 2 (.spaceRecords 2 7) .eod 2 5 = true ∧ meets .records 5 2 (.place 2) .eod 2 5 = true ∧
    meets .filemarks 2 0 (.spaceFilemark 2 0) .eod 2 1 = true := by decide +kernel
/-- An object between two proven datasets, the one before it known not to hold it, lies in the dataset passed unproven between them (R115); a
write that is to cut there needs its descriptor first (R118). -/
theorem test_unproven_between :
    let d (n o : Nat) : Descriptor :=
      { dataset := n, first := o, continues := false, entries := 1, filemarks := 0, start := ⟨0, 80 + 40 * n⟩, kinds := some [.whole], before := ⟨0, 64⟩ }
    (located none [d 0 0, d 2 4]).pu.scan.map (fun c =>
        let c := { c with unproven := [{ dataset := 1, start := ⟨0, 121⟩, before := ⟨0, 101⟩ }] }
        (match c.place none 2 with | .placed x => some x | _ => none, match c.exact none 2 with | .need n => some n | _ => none))
      = some (some (1, ⟨0, 121⟩), some 1) := by decide +kernel
theorem test_partition_sizes : dparSizes 160 0 [0, 0, 0, 0] = none ∧ dparSizes 160 2 [3, 0, 0, 0] = none ∧ dparSizes 160 2 [0, 8, 0, 0] = none ∧
    dparSizes 160 2 [154, 0, 0, 0] = some [154, 4] ∧ dparSizes 160 2 [156, 0, 0, 0] = none ∧ dparSizes 160 2 [150, 8, 0, 0] = some [150, 8] ∧
    dparSizes 160 2 [150, 10, 0, 0] = none := by decide +kernel
theorem test_partitions_and_directory : dparSizes 160 2 [50, 0, 0, 0] = some [50, 108] ∧ partitionsOf 0 [50, 108] = [(0, 49), (52, 159)] ∧
    (PartitionDirectory.take ⟨.valid, some 0, [⟨0, 0, 0, 0⟩]⟩ ⟨1, 1, 5, 0⟩ true).entries = [⟨0, 0, 0, 0⟩, ⟨1, 1, 5, 0⟩] ∧
    (PartitionDirectory.cut ⟨.valid, some 1, [⟨0, 0, 0, 0⟩, ⟨1, 1, 5, 0⟩]⟩ 1) = ⟨.valid, some 0, [⟨0, 0, 0, 0⟩]⟩ := by decide +kernel
theorem test_open_loading : after .openLoadingSlot { holding streaming [] .read with rdr := { seeking.rdr with wanted := true } }
    (fun t => t.dbm.slots.map Slot.state == [.loading] && !t.rdr.wanted) = true := by decide +kernel
theorem test_open_refused : after .openLoadingSlot { holding streaming [slotOf .failed 1] .read with rdr := { seeking.rdr with wanted := true } }
    (fun t => t.dbm.slots == [slotOf .failed 1] && t.rdr.wanted) = true := by decide +kernel
theorem test_read_ahead : after .readAheadResume
    { holding ready [] .read with rdr := { seeking.rdr with activity := .paused, readAhead := true, resume := some ⟨0, 90⟩ }, pu := { ready.pu with eod := [none] } }
    (fun t => t.rdr.activity == .repositioning && t.rdr.target == some ⟨0, 90⟩) = true := by decide +kernel

def reads (xs : List Slot) : State := holding (running ready (.rrec 1 4096) .reading) xs .read
theorem test_expander_takes : after .expanderTakesSlot (reads [slotOf .ready 1]) (fun t => t.dbm.slots.map Slot.state == [.expanding] && t.dbm.recovered == 3) = true ∧
    after .expanderTakesSlot { reads [slotOf .failed 1] with rx := { Rx.reset with history := [65], entry := 1, offset := 3, object := 4 } }
      (fun t => status (last t) == some .mediumError && t.dbm.slots.isEmpty && t.rx.object == 4 && t.rx.history == [65] && t.rx.offset == 3) = true ∧
    after .expanderTakesSlot { reads [] with rdr := { Rdr.reset with activity := .ended .endOfData } } (fun t => status (last t) == some .eod) = true := by
  decide +kernel
/-- A slot whose entry 0 is a FILEMARK. -/
def withFilemark : State := { reads [slotOf .expanding 1] with dbm := { (reads [slotOf .expanding 1]).dbm with
  dram := Memory.writeBytes [] 1966000 [4, 1, 0, 0] } }
theorem test_filemark : (withFilemark.dbm.dram.entry 0 0).kind = .filemark ∧ after .expandEntry withFilemark
    (fun t => status (last t) == some .filemark && t.pu.object == 1 && t.dbm.slots.isEmpty) = true ∧
    after .expandEntry { withFilemark with pu := { withFilemark.pu with object := 5 } } (fun t => t.spu.out.isEmpty && t.rx.object == 1) = true ∧
    after .expandEntry { withFilemark with dbm := { withFilemark.dbm with dram := Memory.writeBytes withFilemark.dbm.dram 1966008 [9] } }
      (fun t => t.rx.offset == 9) = true := by
  decide +kernel
/-- EntryExpanded: an entry with its stored bytes at the slot's base, and an assembly. -/
def withEntry (k : EntryKind) (packed : Bool) (host : Nat) (bytes check : List Byte) (a : Option Assembly) : State :=
  let s := reads [slotOf .expanding 2]
  let e : IndexEntry := { kind := k, reset := false, compressed := packed, host := host, stored := bytes.length, check := crc32 check }
  { s with dbm := { s.dbm with dram := Memory.writeBytes (Memory.writeBytes [] 1966000 e.bytes) 0 bytes },
           rx := { Rx.reset with history := [88, 89, 90], sinceReset := 3, assembly := a } }
def begun : Assembly := { object := 0, data := [65], segments := 1, stored := 1, fault := false, acc := crc32Take crc32Start [65] }
/-- ExpanderTakesSlot: a READY slot taken, or not, while a record stands; the reads that end with one. -/
def continued (k : EntryKind) (continues : Bool) (first : Nat) (a : Assembly) : State :=
  let e : IndexEntry := { kind := k, reset := false, compressed := false, host := 1, stored := 1, check := 0 }
  let trailer : Trailer := { partition := 0, continues := continues, entries := 1, dataset := 0, first := first, payload := 1, filemarks := 0 }
  let s := reads [{ slotOf .ready 1 with first := some first }]
  { s with dbm := { s.dbm with dram := Memory.writeBytes (Memory.writeBytes [] 1966000 e.bytes) 1966016 trailer.bytes },
           rx := { Rx.reset with history := [65], sinceReset := 1, assembly := some a } }
theorem test_taken_while_assembling :
    let takes (k : EntryKind) (continues : Bool) (first : Nat) (a : Assembly) (f : State → Bool) : Bool := after .expanderTakesSlot (continued k continues first a) f
    let taken (t : State) : Bool := t.dbm.slots.map Slot.state == [.expanding] && t.rx.history.isEmpty
    let faulty (t : State) : Bool := t.rx.sending.map (fun d => (d.object, d.rest, d.fault)) == some (0, [65], true)
    takes .middle true 0 begun (fun t => taken t && t.rx.assembly == some begun) = true ∧
    takes .whole false 0 begun (fun t => taken t && t.rx.assembly.isNone) = true ∧
    takes .whole true 0 begun (fun t => taken t && faulty t) = true ∧
    takes .end_ true 3 begun (fun t => t.dbm.slots.map Slot.state == [.ready] && faulty t) = true ∧
    takes .whole true 0 { begun with data := [] } (fun t => status (last t) == some .dataCheck && t.rx.assembly.isNone && t.pu.object == 1) = true := by
  decide +kernel
theorem test_assembly_ends :
    let past (s : State) : State := { s with pu := { s.pu with object := 2 } }
    after .expanderTakesSlot (past (continued .whole true 0 begun)) (fun t => t.rx.assembly.isNone && t.rx.object == 1 && t.dbm.slots.length == 1) = true ∧
    after .expanderTakesSlot (past (continued .end_ true 3 begun)) (fun t => t.rx.assembly.isNone && t.rx.object == 3 && t.spu.out.isEmpty) = true ∧
    after .expanderTakesSlot { continued .end_ true 0 { begun with object := 4 } with dbm := (reads [slotOf .failed 1]).dbm }
      (fun t => t.rx.assembly.isNone && last t == .resp 7 (ascii 'R' 'R' 'E' 'C') (.done .mediumError { object := 4, outcome := 3 } [])) = true ∧
    after .expanderTakesSlot { continued .end_ true 0 { begun with object := 4 } with dbm := (reads []).dbm, rdr := { Rdr.reset with activity := .ended .fault } }
      (fun t => last t == .resp 7 (ascii 'R' 'R' 'E' 'C') (.done .notReady { object := 4 } []) && t.rx.assembly.isSome) = true := by decide +kernel
theorem test_whole_entry :
    after .expandEntry (withEntry .whole false 3 [1, 2, 3] [1, 2, 3] none)
      (fun t => t.rx.sending.map (fun d => (d.rest, d.actual, d.fault)) == some ([1, 2, 3], 3, false) && t.rx.history == [88, 89, 90, 1, 2, 3]) = true ∧
    after .expandEntry (withEntry .whole true 10 [176, 2, 0, 65] [88, 89, 90, 88, 89, 90, 88, 89, 90, 65] none)
      (fun t => t.rx.sending.map (fun d => (d.rest, d.fault)) == some ([88, 89, 90, 88, 89, 90, 88, 89, 90, 65], false)) = true ∧
    after .expandEntry (withEntry .whole true 9 [176] [] none) (fun t => t.rx.sending.map Sending.fault == some true) = true ∧
    after .expandEntry { withEntry .whole false 1 [1] [1] none with pu := { ready.pu with object := 2 } }
      (fun t => t.rx.sending.isNone && t.rx.object == 1 && t.rx.entry == 1) = true := by decide +kernel
theorem test_part_entries :
    after .expandEntry (withEntry .start false 1 [65] [] none) (fun t => t.rx.assembly == some begun && t.rx.object == 0) = true ∧
    after .expandEntry (withEntry .middle false 1 [66] [] (some begun)) (fun t => t.rx.assembly.map Assembly.data == some [65, 66]) = true ∧
    after .expandEntry (withEntry .end_ false 1 [66] [65, 66] (some begun))
      (fun t => t.rx.sending.map (fun d => (d.rest, d.stored, d.fault)) == some ([65, 66], 2, false)) = true ∧
    after .expandEntry (withEntry .middle false 1 [66] [] none) (fun t => t.rx.assembly.isNone && t.rx.object == 0) = true ∧
    after .expandEntry (withEntry .end_ false 1 [66] [] none) (fun t => t.rx.sending.isNone && t.rx.object == 1) = true := by decide +kernel
def sending (n : Nat) : State :=
  { reads [slotOf .expanding 2] with
    rx := { Rx.reset with sending := some { object := 0, rest := List.replicate n 7, actual := n, limit := 4096, stored := 9, begun := false, fault := false } },
    spu := { Spu.reset with readCredits := 1 } }
theorem test_rdat : after .rdatSend (sending 3) (fun t => t.spu.out.head? == some (.rdat true [7, 7, 7]) && status (last t) == some .good
      && t.pu.object == 1 && t.spu.readCredits == 0) = true ∧
    after .rdatSend { sending 3 with rx := { (sending 3).rx with sending := (sending 3).rx.sending.map (fun d => { d with fault := true }) } }
      (fun t => t.spu.out.getLast? == some (.resp 7 (ascii 'R' 'R' 'E' 'C') (.done .dataCheck { count := 1, object := 1 } [])) && t.eu.latches[2].set) = true ∧
    after .rdatSend { sending 3 with rx := { (sending 3).rx with sending := (sending 3).rx.sending.map (fun d => { d with limit := 2 }) } }
      (fun t => t.spu.out.getLast? == some (.resp 7 (ascii 'R' 'R' 'E' 'C') (.done .lengthMismatch { count := 1, object := 1, actualLength := 3 } []))) = true ∧
    after .rdatSend { sending 3 with cu := (running ready (.rrec 2 4096) .reading).cu }
      (fun t => t.spu.out.length == 1 && t.cu.count == 1 && t.cu.queue.length == 1 && t.rx.sending.isNone) = true ∧
    after .rdatSend { sending 3 with spu := Spu.reset } (fun t => t.spu.out.isEmpty && t.pu.object == 0) = true ∧
    after .rdatSend (sending 4097) (fun t => t.spu.out.length == 1 && t.rx.h == 4096 && t.rx.s == 9) = true := by decide +kernel

/-! ### Writing -/

def spanning : State :=
  { holding streaming [slotOf .writing 2] .write with
    wf := { Wf.reset with stage := .span, nextSet := 1, planned := true, writePoint := some (0, ⟨0, 101⟩), rowCounts := Vector.replicate 256 1,
                          inFlight := some { rows := nominalRows 0, place := ⟨0, 100⟩ } } }
theorem test_verify : after (.verifyResult (Vector.replicate 16 (.corrected 6))) spanning
    (fun t => t.wf.inFlight.isNone && t.wf.queue.isEmpty && t.wf.tallies[4] == ⟨1, 0⟩) = true ∧
    after (.verifyResult ((Vector.replicate 16 .clean).set 4 (.corrected 7))) spanning
    (fun t => t.wf.queue == [⟨4, 1, 4⟩] && t.wf.tallies[4] == ⟨1, 1⟩ && t.wf.stage == .span) = true := by decide +kernel
/-- VerifyScoresRows: several rows fail, the last set verified, a fifth rewrite set needed. -/
theorem test_verify_many :
    let s (sets : Nat) (q : List Rewrite) : State := { spanning with wf := { spanning.wf with nextSet := 16, rewriteSets := sets, queue := q } }
    let bad : Vector RowOutcome 16 := ((Vector.replicate 16 .clean).set 9 .uncorrectable).set 4 (.corrected 7)
    after (.verifyResult bad) (s 1 [⟨40, 1, 0⟩]) (fun t => t.wf.queue == [⟨40, 1, 0⟩, ⟨4, 1, 4⟩, ⟨9, 1, 9⟩] && t.wf.stage == .span) = true ∧
    after (.verifyResult (Vector.replicate 16 .clean)) (s 2 []) (fun t => t.wf.stage == .closing .done none) = true ∧
    after (.verifyResult (Vector.replicate 16 .clean)) (s 2 [⟨40, 1, 0⟩]) (fun t => t.wf.stage == .span) = true ∧
    after (.verifyResult bad) (s 4 []) (fun t => t.wf.stage == .closing .restart none && t.wf.tallies[9] == ⟨1, 1⟩) = true := by decide +kernel
/-- VerifyScoresRows: the outcomes about the default margin of 6 and about 0. -/
theorem test_margin : fails 6 (.corrected 6) = false ∧ fails 6 (.corrected 7) = true ∧ fails 0 (.corrected 1) = true ∧ fails 12 (.corrected 12) = false ∧
    fails 12 .headerBad = true ∧ fails 12 .uncorrectable = true ∧ fails 0 .clean = false := by decide +kernel
theorem test_dataset_done : after .datasetDone { spanning with wf := { spanning.wf with stage := .closing .done (some ⟨0, 120⟩), inFlight := none } }
    (fun t => t.pu.eod == [some { object := 2, last := some 0, mark := ⟨0, 121⟩, onTape := false }] && t.dbm.slots.isEmpty
      && t.wf.stage == .backhitching true && t.dbm.drain == 1) = true := by decide +kernel
/-- DatasetDone: a SEALED slot that follows is WRITING at once. -/
theorem test_dataset_follows : after .datasetDone
    { spanning with dbm := { spanning.dbm with slots := [slotOf .writing 2, slotOf .sealed 3] },
                    wf := { spanning.wf with stage := .closing .done (some ⟨0, 120⟩), inFlight := none } }
    (fun t => t.dbm.slots.map Slot.state == [.writing] && t.wf.stage == .span && t.wf.writePoint == some (0, ⟨0, 121⟩)) = true := by decide +kernel
/-- WriteAttemptFails: a row's third failure, the same at the restart limit, the separator of a restart, the volume full. -/
def thirdTry (n : Nat) : State :=
  { holding streaming [{ slotOf .writing 2 with attempt := some n }] .write with
    wf := { spanning.wf with rowCounts := Vector.replicate 256 3 } }
theorem test_attempt_fails : (thirdTry 1).executing = none ∧
    after (.verifyResult ((Vector.replicate 16 .clean).set 4 .uncorrectable)) (thirdTry 1)
      (fun t => t.wf.stage == .closing .restart none && t.wf.tallies[4] == ⟨1, 1⟩ && t.dbm.slots.length == 1) = true ∧
    after (.verifyResult ((Vector.replicate 16 .clean).set 4 .uncorrectable)) (thirdTry 3)
      (fun t => t.dbm.slots.isEmpty && t.cu.deferred == some ⟨.writeError, 0, 0, 2⟩ && t.eu.latches[0].set && t.wf.stage == .idle) = true := by
  decide +kernel
/-- WriteAttemptFails and LateralFrameSetsInhibit: a hard error with its mark pending; a row set cut off track, queued or restarted. -/
theorem test_mark_after_failure : after (.verifyResult ((Vector.replicate 16 .clean).set 4 .uncorrectable))
    { thirdTry 3 with wf := { (thirdTry 3).wf with eodPending := true, appendPoint := some ⟨0, 80⟩ } }
    (fun t => t.wf.stage == .runUp ⟨0, 80⟩ (.mark .hardError) false && t.wf.eodPending
      && t.pu.eod == [some { object := 0, last := none, mark := ⟨0, 80⟩, onTape := false }]) = true := by decide +kernel
theorem test_lateral_cut :
    after (.lateralFrame (some 50) none) spanning (fun t => t.tape == [.cutOff ⟨0, 100⟩] && t.wf.queue.length == 16 && t.wf.stage == .span
      && t.wf.queue.head? == some ⟨0, 1, 0⟩ && t.wf.tallies == spanning.wf.tallies) = true ∧
    after (.lateralFrame (some 50) none) (thirdTry 1) (fun t => t.tape == [.cutOff ⟨0, 100⟩] && t.wf.stage == .closing .restart none) = true := by
  decide +kernel
/-- DeviceReset: the row set in flight is cut off. -/
theorem test_reset_cuts : after (.nreset ready.sensors) spanning (fun t => t.tape == [.cutOff ⟨0, 100⟩] && t.wf.stage == .idle && t.wf.inFlight.isNone) = true ∧
    after (.powerOnReset ready.sensors) spanning (fun t => t.tape == [.cutOff ⟨0, 100⟩]) = true := by decide +kernel
/-- WriteAttemptFails: a restart's separator laid, the attempt begun behind it at the speed in effect and at a scheduled one, the separator lost. -/
def restarting (l : Option Loc) : State := { thirdTry 1 with wf := { (thirdTry 1).wf with stage := .closing .restart l, inFlight := none } }
theorem test_restart_separator : after (.servoBurst (burstAt 101 0)) (restarting none)
    (fun t => t.tape == [.separator ⟨0, 101⟩] && t.wf.stage == .closing .restart (some ⟨0, 101⟩) && t.wf.restarts == 0
      && t.wf.writePoint == some (0, ⟨0, 102⟩)) = true ∧
    after (.servoBurst (burstAt 101 0)) (restarting (some ⟨0, 100⟩))
      (fun t => t.dbm.slots.map Slot.attempt == [some 2] && t.wf.restarts == 1 && t.wf.stage == .span && t.wf.nextSet == 1
        && t.wf.spanStart == some ⟨0, 101⟩ && t.tape.length == 1 && t.eu.latches[7].set) = true ∧
    after (.servoBurst (burstAt 101 0)) { restarting (some ⟨0, 100⟩) with sm := { Sm.reset with scheduled := some 1 } }
      (fun t => t.sv.timebase == .acquiring && t.wf.nextSet == 0 && t.tape.isEmpty && t.sm.index == 1 && t.eu.latches[5].set) = true := by
  decide +kernel
/-- WriteAttemptFails: the tallies handed over at a restart make the head REQUIRED, and the cap is the speed of the new attempt. -/
theorem test_restart_cap :
    let s : State := { restarting (some ⟨0, 100⟩) with sm := { Sm.reset with index := 3 }, hm := { Hm.reset with floor := .required } }
    s.sm.scheduled = none ∧ (s.takeTally s.wf.tallies).sm.scheduled = some 1 ∧
    after (.servoBurst (burstAt 101 0)) s (fun t => t.sv.timebase == .acquiring && t.sm.index == 1 && t.wf.nextSet == 0) = true := by decide +kernel
theorem test_restart_lost : (restarting (some ⟨0, 100⟩)).rtc.takesGoals = true ∧
    after .timebaseLost { restarting (some ⟨0, 100⟩) with sv := { streaming.sv with missCount := 2 } }
      (fun t => t.tape == [.cutOff ⟨0, 100⟩] && t.wf.stage == .runUp ⟨0, 100⟩ (.separator .restart) true && t.rtc.motion == .decelerating
        && t.wf.restarts == 0) = true := by decide +kernel
/-- DatasetDone: the header unsealed, with the append point near behind its zone. -/
theorem test_unsealed : after .datasetDone
    { holding streaming [slotOf .sealed 2] .write with
      pu := { ready.pu with header := some .sealed },
      wf := { Wf.reset with stage := .closing .done (some ⟨0, 17⟩), header := some { purpose := .unseal, attempt := 1 }, appendPoint := some ⟨0, 600⟩ } }
    (fun t => t.pu.header == some .opened && t.wf.stage == .runUp ⟨0, 600⟩ .span false && t.rtc.goal == .trip ⟨0, 600⟩
      && t.rtc.motion == .decelerating && t.dbm.slots.map Slot.state == [.writing]) = true := by decide +kernel
theorem test_volume_full :
    let s : State := { spanning with dbm := { spanning.dbm with slots := [slotOf .writing 2, slotOf .sealed 3] },
                                     wf := { spanning.wf with stage := .closing .done (some ⟨159, 39990⟩), inFlight := none } }
    after .datasetDone s (fun t => t.dbm.slots.isEmpty && t.cu.deferred == some ⟨.volumeOverflow, 0, 0, 3⟩ && t.eu.latches[9].set
      && t.wf.volumeFull == some 0) = true ∧
    after .datasetDone { s with wf := { s.wf with eodPending := true } }
      (fun t => t.wf.stage == .runUp ⟨159, 39991⟩ (.mark .volumeFull) false) = true ∧
    after .datasetDone { s with wf := { s.wf with eodPending := true, stage := .closing .done (some ⟨159, 39998⟩) } }
      (fun t => t.wf.stage == .idle && !t.wf.eodPending
        && t.pu.eod == [some { object := 0, last := some 0, mark := ⟨159, 39999⟩, onTape := false }]) = true := by decide +kernel
/-- EodMarkWritten: a SYNC and a RWND that waited for the mark. -/
def marking (c : Command) (p : Progress) : State :=
  running { holding streaming [] .write with wf := { Wf.reset with stage := .marking .flush ⟨0, 121⟩ 2, eodPending := true } } c p
theorem test_mark_waited : after .eodMarkWritten (marking .sync .flushInPlace)
      (fun t => status (last t) == some .good && t.dbm.direction == .write && t.wf.stage == .backhitching false) = true ∧
    after .eodMarkWritten (marking .rwnd .flushing)
      (fun t => t.dbm.direction == .neutral && t.cu.progress == .shuttle .good && t.pu.object == 0) = true := by decide +kernel
theorem test_mark_written : after .eodMarkWritten { holding streaming [] .write with wf := { Wf.reset with stage := .marking .flush ⟨0, 121⟩ 2, eodPending := true } }
    (fun t => !t.wf.eodPending && t.wf.appendPoint == some ⟨0, 121⟩ && t.pu.eod.map (fun e => e.map EodKnown.onTape) == [some true]) = true := by
  decide +kernel

def filling (n : Nat) : State :=
  { holding streaming [{ slotOf .filling n with payload := some 0 }] .write with
    wf := { Wf.reset with stage := .span }, dbm := { (holding streaming [{ slotOf .filling n with payload := some 0 }] .write).dbm with sealTimer := some ⟨2000, 2000⟩ } }
theorem test_seal_timer : after .sealTimerExpiry (filling 1) (fun t => t.dbm.slots.map Slot.state == [.sealed] && t.dbm.sealTimer.isNone
      && t.dbm.dram == [(1966018, 1)]) = true ∧
    after .sealTimerExpiry (filling 0) (fun t => t.dbm.slots.isEmpty) = true := by decide +kernel
theorem test_entry_limit : after .entryLimitSeal (filling 4096) (fun t => t.dbm.slots.map Slot.state == [.sealed]) = true ∧
    after .entryLimitSeal (filling 4095) (fun t => t.dbm.slots.map Slot.state == [.filling]) = true := by decide +kernel

/-- FillingSlotOpenedFilledSealed: the slot whose freeing brings the FREE count to 3 while a WRITE_RECORDS waits for credits. -/
theorem test_seal_grants :
    let s := running (filling 0) (.wrec 2) .writing
    after .sealTimerExpiry { s with dbm := { s.dbm with slots := List.replicate 509 (slotOf .sealed 1) ++ s.dbm.slots } }
      (fun t => t.spu.credits == 256 && t.spu.out == [.wcrd 256]) = true := by decide +kernel
def staged (final : Bool) (data : List Byte) (xs : List Slot) (r : Option RecordIn) : State :=
  let s := running (filling 0) (.wrec 2) .writing
  { s with dbm := { s.dbm with slots := xs, staging := [⟨final, data⟩] }, rc := { Rc.reset with record := r } }
theorem test_place_taken : after .stagingPlaceTaken (staged false [1, 2] [slotOf .filling 0] (some ⟨0, 0, crc32Start, false, false⟩))
    (fun t => t.rc.lookahead == [1, 2] && t.rc.h == 2 && t.dbm.staging.isEmpty && t.dbm.sealTimer == some ⟨0, 2000⟩) = true := by decide +kernel
/-- Record 122 of the worked example of 2.7: XYZXYZ falls back to raw and its WHOLE entry carries the record's check. -/
theorem test_record_placed : after .stagingPlaceTaken (staged true [88, 89, 90, 88, 89, 90] [slotOf .filling 0] none)
    (fun t => t.dbm.slots.map (fun x => (x.entries, x.payload)) == [(some 1, some 6)] && t.cu.count == 1
      && (t.dbm.dram.entry 0 0) == { kind := .whole, reset := true, compressed := false, host := 6, stored := 6, check := crc32 [88, 89, 90, 88, 89, 90] }
      && t.dbm.dram.readBytes 0 6 == [88, 89, 90, 88, 89, 90]) = true := by decide +kernel
theorem test_open_filling : after .openFillingSlot (staged false [1] [] none)
    (fun t => t.dbm.slots.map (fun x => (x.state, x.dataset, x.first)) == [(.filling, 0, some 0)]) = true ∧
    after .openFillingSlot (staged false [1] [slotOf .sealed 2] none)
      (fun t => t.dbm.slots.map (fun x => (x.state, x.dataset, x.filemarksBefore)) == [(.sealed, 0, some 0), (.filling, 1, some 2)]) = true := by
  decide +kernel

/-! ### Windows -/

theorem test_window : after .windowExpiry { holding ready [] .write with sm := { Sm.reset with window := some 199, rate := 1000 }, rc := { Rc.reset with h := 800000, s := 400000 } }
    (fun t => t.sm.last.r == 4000 && t.sm.rate == 1750 && t.sm.ratio == 320 && t.sm.window == some 0 && t.rc.h == 0) = true := by decide +kernel
theorem test_confirm : after .confirmReached { ready with sm := { Sm.reset with window := some 9, pending := some 3, confirmCount := 1 } }
    (fun t => t.sm.scheduled == some 3 && t.sm.pending.isNone) = true ∧
    after .confirmReached { ready with sm := { Sm.reset with window := some 9, pending := some 3, confirmCount := 0 } } (fun t => t.sm.pending == some 3) = true := by
  decide +kernel
/-- WindowStages: a change of candidate counted and scheduled, one withdrawn, the class and the zone with their events, the cap; and
CandidateConfirmed where the pending candidate is in effect. -/
def windowAt (rate index : Nat) (pending : Option Nat) : State :=
  { holding ready [slotOf .sealed 1] .write with
    sm := { Sm.reset with window := some 199, rate := rate, index := index, pending := pending, confirmCount := 1, scheduled := some 4 } }
theorem test_window_candidates :
    after .windowExpiry (windowAt 200000 0 none) (fun t => t.sm.pending == some 1 && t.sm.confirmCount == 1 && t.sm.scheduled == some 4
      && t.sm.zone == .low && t.eu == ready.eu) = true ∧
    after .windowExpiry { windowAt 0 0 none with sm := { (windowAt 0 0 none).sm with zone := .mid } } (fun t => t.sm.zone == .low && t.eu.latches[11].set) = true ∧
    after .windowExpiry (windowAt 200000 0 (some 1)) (fun t => t.sm.scheduled == some 1 && t.sm.pending.isNone) = true ∧
    after .windowExpiry (windowAt 200000 1 (some 1)) (fun t => t.sm.scheduled.isNone && t.sm.pending.isNone) = true ∧
    after .windowExpiry { windowAt 1200000 0 none with hm := { Hm.reset with head := .required } } (fun t => t.sm.pending == some 1) = true ∧
    after .confirmReached (windowAt 0 1 (some 1)) (fun t => t.sm.pending == some 1 && t.sm.scheduled == some 4) = true := by decide +kernel
theorem test_window_class : after .windowExpiry { windowAt 0 0 none with rc := { Rc.reset with h := 4000, s := 1000 } }
    (fun t => t.sm.ratio == 448 && t.sm.compressibility == .moderate && t.eu.latches[12].set) = true := by decide +kernel
def channel (st : ChannelState) (f run : Nat) : State :=
  { ready with hm := { Hm.reset with channels := Hm.reset.channels.set 2 { state := st, n := 255, f := f, deadRun := run, lastF := none } } }
theorem test_channel_trips : after (.channelWindowClose 2 true) (channel .good 7 0) (fun t => t.hm.channels[2].state == .marginal && t.eu.latches[13].set
      && t.hm.head == .advised) = true ∧
    after (.channelWindowClose 2 false) (channel .marginal 2 0) (fun t => t.hm.channels[2].state == .good) = true ∧
    after (.channelWindowClose 2 false) (channel .marginal 3 0) (fun t => t.hm.channels[2].state == .marginal) = true := by decide +kernel
theorem test_channel_dies : after (.channelWindowClose 2 false) (channel .good 128 1) (fun t => t.hm.channels[2].state == .dead && t.eu.latches[14].set
      && t.hm.head == .required && t.hm.cleanReq) = true ∧
    after (.channelWindowClose 2 false) (channel .dead 0 2) (fun t => t.hm.channels[2].state == .dead) = true := by decide +kernel

/-! ### The invariants hold somewhere: the hypotheses of the statements about every step -/

/-- The ring invariant in a write path and a read path that hold every state. -/
theorem test_ring_sound : (holding ready [slotOf .writing 1, slotOf .sealed 1, slotOf .filling 1] .write).dbm.RingSound ∧
    (holding ready [slotOf .expanding 1, slotOf .ready 1, slotOf .loading 1] .read).dbm.RingSound ∧
    (holding ready [{ slotOf .filling 1 with payload := some 9 }] .write).dbm.RingSound := by
  refine ⟨⟨by decide, by decide, fun h => (nomatch h), fun _ => ⟨[.writing], [.filling], 1, by decide, .inr rfl, .inr rfl⟩, fun h => (nomatch h)⟩,
    ⟨by decide, by decide, fun h => (nomatch h), fun h => (nomatch h), fun _ => ⟨[.expanding], [.loading], 1, by decide, .inr rfl, .inr (.inl rfl)⟩⟩,
    ⟨by decide, by decide, fun h => (nomatch h), fun _ => ⟨[], [.filling], 0, by decide, .inl rfl, .inr rfl⟩, fun h => (nomatch h)⟩⟩
theorem test_reader_sound : (holding ready [slotOf .failed 1] .read).ReaderSound :=
  ⟨fun _ => ⟨by decide +kernel, fun _ h => (nomatch h)⟩, fun _ h => (nomatch h)⟩
theorem test_invariants_reset : State.reset.dbm.dram.wf = true ∧ State.reset.eu.attn = State.reset.eu.attnLevel
    ∧ State.reset.hm.head = State.reset.hm.judged ∧ State.reset.spu.credits + State.reset.dbm.staging.length ≤ 256 := by decide +kernel

end Sys2Proof.Tests
end

section
/-!
SUPPORT. What the proofs about every step speak of (Safety.lean): what a step gives the Reader to do, and what it keeps.
-/
namespace Sys2Proof.Machine

/-! ### The Reader's side -/

/-- A slot is FAILED. -/
def Dbm.holdsFailed (d : Dbm) : Prop := ∃ x ∈ d.slots, x.state = .failed

/-- The locate before a read is under way at the Position Unit (R104). -/
def Pu.locates (u : Pu) : Bool := u.scan.any (fun c => c.purpose == .read)

/-- The executing command is a READ_RECORDS that waits for a scan. -/
def Cu.locates (c : Cu) : Bool :=
  match c.queue with
  | q :: _ => q.begun && c.progress == .scan && (match q.command with | .rrec _ _ => true | _ => false)
  | [] => false

/-- A step of the part that gives the Reader nothing to do: no slot becomes FAILED, a calm Reader stays so, no locate before a read begins, and
one under way stays its command's own. -/
structure Calm (s t : State) : Prop where
  failed : t.dbm.holdsFailed → s.dbm.holdsFailed
  rdr : s.rdr.calm = true → t.rdr.calm = true
  scan : t.pu.locates = true → s.pu.locates = true
  command : t.pu.locates = true → s.cu.locates = true → t.cu.locates = true

/-- No locate before a read is under way with its command, so that the command may end. -/
def State.mayEnd (s : State) : Prop := s.pu.locates = true → s.cu.locates = false

/-! ### What is kept -/

/-- What is kept between two states of the part: the soundness of each block (Safety.lean), and, with `quiet`, that the Reader is given nothing
to do. -/
structure Keeps (quiet : Bool) (s t : State) : Prop where
  eu : s.eu.Sound → t.eu.Sound
  dram : s.dbm.dram.wf = true → t.dbm.dram.wf = true
  cu : s.cu.Sound → t.cu.Sound
  hm : s.hm.Sound → t.hm.Sound
  sv : s.sv.Sound → t.sv.Sound
  rtc : s.rtc.Sound → t.rtc.Sound
  port : s.PortSound → t.PortSound
  ring : s.dbm.RingSound → t.dbm.RingSound
  calm : quiet = true → Calm s t

end Sys2Proof.Machine
end

section
/-!
SUPPORT. Ring of slots: what each operation on the occupied run keeps of it (R3, R4, R13).
-/
namespace Sys2Proof.Machine
open Sys2Proof.Laws

/-- A slot's record changed without its state leaves the run of states. -/
theorem map_state_modify (xs : List Slot) (i : Nat) (f : Slot → Slot) (keep : ∀ x, (f x).state = x.state) :
    (xs.modify i f).map Slot.state = xs.map Slot.state := by
  apply List.ext_getElem (by simp)
  intro k h _
  simp only [List.getElem_map, List.getElem_modify]
  split <;> simp [keep]

/-- The number of a slot is below 512. -/
theorem number_lt (d : Dbm) (i : Nat) : d.number i < 512 := Nat.mod_lt _ (by decide)

/-- The run of states of a write path: WRITING if any, then SEALED, then FILLING if any (R4). -/
def WriteRun (xs : List SlotState) : Prop :=
  ∃ (front back : List SlotState) (n : Nat), xs = front ++ List.replicate n .sealed ++ back
    ∧ (front = [] ∨ front = [.writing]) ∧ (back = [] ∨ back = [.filling])

/-- The run of states of a read path: EXPANDING if any, then READY, then LOADING or FAILED if any (R4). -/
def ReadRun (xs : List SlotState) : Prop :=
  ∃ (front back : List SlotState) (n : Nat), xs = front ++ List.replicate n .ready ++ back
    ∧ (front = [] ∨ front = [.expanding]) ∧ (back = [] ∨ back = [.loading] ∨ back = [.failed])

theorem ringSound_iff (d : Dbm) : d.RingSound ↔ d.drain < 512 ∧ d.slots.length ≤ 512 ∧ (d.direction = .neutral → d.slots = [])
    ∧ (d.direction = .write → WriteRun (d.slots.map Slot.state)) ∧ (d.direction = .read → ReadRun (d.slots.map Slot.state)) := Iff.rfl

theorem writeRun_nil : WriteRun [] := ⟨[], [], 0, rfl, .inl rfl, .inl rfl⟩
theorem readRun_nil : ReadRun [] := ⟨[], [], 0, rfl, .inl rfl, .inl rfl⟩

/-- A list that ends in a state other than that of the run's middle. -/
theorem append_replicate_eq_concat {front back older : List SlotState} {n : Nat} {m x : SlotState}
    (h : front ++ List.replicate n m ++ back = older ++ [x]) :
    (∃ b, back = b ++ [x] ∧ older = front ++ List.replicate n m ++ b)
    ∨ (back = [] ∧ x = m ∧ ∃ k, n = k + 1 ∧ older = front ++ List.replicate k m)
    ∨ (back = [] ∧ n = 0 ∧ front = older ++ [x]) := by
  rcases List.eq_nil_or_concat back with rfl | ⟨b, y, rfl⟩
  · rw [List.append_nil] at h
    cases n with
    | zero => exact .inr (.inr ⟨rfl, rfl, by simpa using h⟩)
    | succ k =>
      rw [List.replicate_succ', ← List.append_assoc] at h
      obtain ⟨ho, hx⟩ := List.append_inj' h rfl
      exact .inr (.inl ⟨rfl, by simpa using hx.symm, k, rfl, ho.symm⟩)
  · rw [List.concat_eq_append, ← List.append_assoc] at h
    obtain ⟨ho, hx⟩ := List.append_inj' h rfl
    simp only [List.cons.injEq, and_true] at hx
    exact .inl ⟨b, by simp [hx], ho.symm⟩

/-- A list of one slot ends in that slot alone. -/
theorem single_eq_concat {b : List SlotState} {x y : SlotState} (h : [y] = b ++ [x]) : b = [] ∧ x = y := by
  cases b <;> simp_all

/-- The states that occur in a write path, and in a read path (R3). -/
theorem WriteRun.mem {xs : List SlotState} (h : WriteRun xs) {x : SlotState} (hx : x ∈ xs) : x = .writing ∨ x = .sealed ∨ x = .filling := by
  obtain ⟨front, back, n, rfl, hf, hb⟩ := h
  rcases hf with rfl | rfl <;> rcases hb with rfl | rfl <;> simp at hx <;> tauto

theorem ReadRun.mem {xs : List SlotState} (h : ReadRun xs) {x : SlotState} (hx : x ∈ xs) :
    x = .expanding ∨ x = .ready ∨ x = .loading ∨ x = .failed := by
  obtain ⟨front, back, n, rfl, hf, hb⟩ := h
  rcases hf with rfl | rfl <;> rcases hb with rfl | rfl | rfl <;> simp at hx <;> tauto

/-- The slots behind the newest of a write path, which are WRITING or SEALED, and the newest itself. -/
theorem WriteRun.concat {older : List SlotState} {x : SlotState} (h : WriteRun (older ++ [x])) :
    (∃ (front : List SlotState) (n : Nat), older = front ++ List.replicate n .sealed ∧ (front = [] ∨ front = [.writing]))
    ∧ (x = .filling ∨ x = .sealed ∨ (x = .writing ∧ older = [])) := by
  obtain ⟨front, back, n, eq, hf, hb⟩ := h
  rcases append_replicate_eq_concat eq.symm with ⟨b, hbx, ho⟩ | ⟨_, hx, k, _, ho⟩ | ⟨_, hn, hfx⟩
  · rcases hb with rfl | rfl
    · simp at hbx
    · obtain ⟨rfl, rfl⟩ := single_eq_concat hbx
      exact ⟨⟨front, n, by simpa using ho, hf⟩, .inl rfl⟩
  · exact ⟨⟨front, k, ho, hf⟩, .inr (.inl hx)⟩
  · rcases hf with rfl | rfl
    · simp at hfx
    · obtain ⟨rfl, rfl⟩ := single_eq_concat hfx
      exact ⟨⟨[], 0, rfl, .inl rfl⟩, .inr (.inr ⟨rfl, rfl⟩)⟩

/-- The same of a read path: behind the newest slot stand none but an EXPANDING and READY ones. -/
theorem ReadRun.concat {older : List SlotState} {x : SlotState} (h : ReadRun (older ++ [x])) :
    (∃ (front : List SlotState) (n : Nat), older = front ++ List.replicate n .ready ∧ (front = [] ∨ front = [.expanding]))
    ∧ (x = .loading ∨ x = .failed ∨ x = .ready ∨ (x = .expanding ∧ older = [])) := by
  obtain ⟨front, back, n, eq, hf, hb⟩ := h
  rcases append_replicate_eq_concat eq.symm with ⟨b, hbx, ho⟩ | ⟨_, hx, k, _, ho⟩ | ⟨_, hn, hfx⟩
  · rcases hb with rfl | rfl | rfl
    · simp at hbx
    all_goals
      obtain ⟨rfl, rfl⟩ := single_eq_concat hbx
      exact ⟨⟨front, n, by simpa using ho, hf⟩, by simp⟩
  · exact ⟨⟨front, k, ho, hf⟩, .inr (.inr (.inl hx))⟩
  · rcases hf with rfl | rfl
    · simp at hfx
    · obtain ⟨rfl, rfl⟩ := single_eq_concat hfx
      exact ⟨⟨[], 0, rfl, .inl rfl⟩, .inr (.inr (.inr ⟨rfl, rfl⟩))⟩

/-- A run without its newest slot is a run. -/
theorem WriteRun.dropLast {xs : List SlotState} (h : WriteRun xs) : WriteRun xs.dropLast := by
  rcases List.eq_nil_or_concat xs with rfl | ⟨older, x, rfl⟩
  · exact h
  · rw [List.concat_eq_append] at h
    obtain ⟨⟨front, n, ho, hf⟩, _⟩ := h.concat
    exact ⟨front, [], n, by simp [ho], hf, .inl rfl⟩

theorem ReadRun.dropLast {xs : List SlotState} (h : ReadRun xs) : ReadRun xs.dropLast := by
  rcases List.eq_nil_or_concat xs with rfl | ⟨older, x, rfl⟩
  · exact h
  · rw [List.concat_eq_append] at h
    obtain ⟨⟨front, n, ho, hf⟩, _⟩ := h.concat
    exact ⟨front, [], n, by simp [ho], hf, .inl rfl⟩

/-- A run without its oldest slot is a run. -/
theorem WriteRun.tail {xs : List SlotState} (h : WriteRun xs) : WriteRun xs.tail := by
  obtain ⟨front, back, n, rfl, hf, hb⟩ := h
  rcases hf with rfl | rfl
  · cases n with
    | zero => rcases hb with rfl | rfl <;> exact writeRun_nil
    | succ k => exact ⟨[], back, k, by simp [List.replicate_succ], .inl rfl, hb⟩
  · exact ⟨[], back, n, by simp, .inl rfl, hb⟩

theorem ReadRun.tail {xs : List SlotState} (h : ReadRun xs) : ReadRun xs.tail := by
  obtain ⟨front, back, n, rfl, hf, hb⟩ := h
  rcases hf with rfl | rfl
  · cases n with
    | zero => rcases hb with rfl | rfl | rfl <;> exact readRun_nil
    | succ k => exact ⟨[], back, k, by simp [List.replicate_succ], .inl rfl, hb⟩
  · exact ⟨[], back, n, by simp, .inl rfl, hb⟩

/-- The newest slot of a write path SEALED. -/
theorem WriteRun.sealLast {older : List SlotState} {x : SlotState} (h : WriteRun (older ++ [x])) : WriteRun (older ++ [.sealed]) := by
  obtain ⟨⟨front, n, ho, hf⟩, _⟩ := h.concat
  exact ⟨front, [], n + 1, by simp [ho, List.replicate_succ'], hf, .inl rfl⟩

/-- A FILLING slot opened behind a write path that has none. -/
theorem WriteRun.open {xs : List SlotState} (h : WriteRun xs) (new : xs.getLast? ≠ some .filling) : WriteRun (xs ++ [.filling]) := by
  rcases List.eq_nil_or_concat xs with rfl | ⟨older, x, rfl⟩
  · exact ⟨[], [.filling], 0, rfl, .inl rfl, .inr rfl⟩
  · rw [List.concat_eq_append] at h new ⊢
    obtain ⟨⟨front, n, ho, hf⟩, hx⟩ := h.concat
    rcases hx with rfl | rfl | ⟨rfl, rfl⟩
    · simp at new
    · exact ⟨front, [.filling], n + 1, by simp [ho, List.replicate_succ'], hf, .inr rfl⟩
    · exact ⟨[.writing], [.filling], 0, rfl, .inr rfl, .inr rfl⟩

/-- A LOADING slot opened behind a read path without one and without a FAILED one. -/
theorem ReadRun.open {xs : List SlotState} (h : ReadRun xs) (loading : xs.getLast? ≠ some .loading)
    (failed : xs.getLast? ≠ some .failed) : ReadRun (xs ++ [.loading]) := by
  rcases List.eq_nil_or_concat xs with rfl | ⟨older, x, rfl⟩
  · exact ⟨[], [.loading], 0, rfl, .inl rfl, .inr (.inl rfl)⟩
  · rw [List.concat_eq_append] at h loading failed ⊢
    obtain ⟨⟨front, n, ho, hf⟩, hx⟩ := h.concat
    rcases hx with rfl | rfl | rfl | ⟨rfl, rfl⟩
    · simp at loading
    · simp at failed
    · exact ⟨front, [.loading], n + 1, by simp [ho, List.replicate_succ'], hf, .inr (.inl rfl)⟩
    · exact ⟨[.expanding], [.loading], 0, rfl, .inr rfl, .inr (.inl rfl)⟩

/-- The newest slot of a read path with at least a LOADING or READY slot there becomes READY or FAILED. -/
theorem ReadRun.endLast {older : List SlotState} {x y : SlotState} (h : ReadRun (older ++ [x]))
    (y_ok : y = .ready ∨ y = .failed) : ReadRun (older ++ [y]) := by
  obtain ⟨⟨front, n, ho, hf⟩, _⟩ := h.concat
  rcases y_ok with rfl | rfl
  · exact ⟨front, [], n + 1, by simp [ho, List.replicate_succ'], hf, .inl rfl⟩
  · exact ⟨front, [.failed], n, by simp [ho], hf, .inr (.inr rfl)⟩

/-- The oldest slot of a write path, SEALED, becomes WRITING. -/
theorem WriteRun.beginHead {xs : List SlotState} (h : WriteRun (.sealed :: xs)) : WriteRun (.writing :: xs) := by
  obtain ⟨front, back, n, eq, hf, hb⟩ := h
  rcases hf with rfl | rfl
  · cases n with
    | zero => rcases hb with rfl | rfl <;> simp at eq
    | succ k =>
      simp only [List.replicate_succ, List.nil_append, List.cons_append, List.cons.injEq, true_and] at eq
      exact ⟨[.writing], back, k, by simp [eq], .inr rfl, hb⟩
  · simp at eq

/-- The oldest slot of a read path, READY, becomes EXPANDING. -/
theorem ReadRun.expandHead {xs : List SlotState} (h : ReadRun (.ready :: xs)) : ReadRun (.expanding :: xs) := by
  obtain ⟨front, back, n, eq, hf, hb⟩ := h
  rcases hf with rfl | rfl
  · cases n with
    | zero => rcases hb with rfl | rfl | rfl <;> simp at eq
    | succ k =>
      simp only [List.replicate_succ, List.nil_append, List.cons_append, List.cons.injEq, true_and] at eq
      exact ⟨[.expanding], back, k, by simp [eq], .inr rfl, hb⟩
  · simp at eq

/-- Where a LOADING slot stands in a read path it is the newest. -/
theorem ReadRun.loading_last {xs : List SlotState} (h : ReadRun xs) {i : Nat} (hi : xs[i]? = some .loading) : i + 1 = xs.length := by
  obtain ⟨front, back, n, rfl, hf, hb⟩ := h
  have hlt : i < (front ++ List.replicate n SlotState.ready ++ back).length := by
    by_contra hge
    rw [List.getElem?_eq_none (by omega)] at hi
    simp at hi
  by_cases hi2 : i < (front ++ List.replicate n SlotState.ready).length
  · have mem : SlotState.loading ∈ front ++ List.replicate n SlotState.ready := by
      rw [List.getElem?_append_left hi2] at hi
      exact List.mem_of_getElem? hi
    rcases hf with rfl | rfl <;> simp at mem
  · rcases hb with rfl | rfl | rfl <;> simp at hlt hi2 ⊢ <;> omega

end Sys2Proof.Machine
end

section
/-!
SUPPORT. The ring of slots as an invariant (R3, R4, R13): each operation of the Dataset Buffer Manager keeps it.
-/
namespace Sys2Proof.Machine
open Sys2Proof.Laws

/-- What the ring's soundness speaks of: the drain pointer, the run of states and the direction. -/
theorem Dbm.RingSound.congr {d e : Dbm} (h : d.RingSound) (drain : e.drain = d.drain)
    (states : e.slots.map Slot.state = d.slots.map Slot.state) (direction : e.direction = d.direction) : e.RingSound := by
  obtain ⟨hd, hl, hn, hw, hr⟩ := (ringSound_iff d).mp h
  have length : e.slots.length = d.slots.length := by simpa using congrArg List.length states
  rw [ringSound_iff, drain, states, direction, length]
  refine ⟨hd, hl, fun neutral => ?_, hw, hr⟩
  simpa [hn neutral] using states

/-- An empty run is sound whatever the direction. -/
theorem Dbm.ringSound_of_empty {d : Dbm} (drain : d.drain < 512) (slots : d.slots = []) : d.RingSound := by
  rw [ringSound_iff, slots]
  exact ⟨drain, by simp, fun _ => rfl, fun _ => writeRun_nil, fun _ => readRun_nil⟩

/-- A sound ring whose run is replaced by one that is sound for its direction. -/
theorem Dbm.RingSound.replace {d e : Dbm} (h : d.RingSound) (drain : e.drain < 512) (length : e.slots.length ≤ 512)
    (direction : e.direction = d.direction) (empty : d.slots = [] → e.slots = [])
    (write : WriteRun (d.slots.map Slot.state) → WriteRun (e.slots.map Slot.state))
    (read : ReadRun (d.slots.map Slot.state) → ReadRun (e.slots.map Slot.state)) : e.RingSound := by
  obtain ⟨_, _, hn, hw, hr⟩ := (ringSound_iff d).mp h
  rw [ringSound_iff, direction]
  exact ⟨drain, length, fun n => empty (hn n), fun w => write (hw w), fun r => read (hr r)⟩

theorem Dbm.RingSound.dropNewest {d : Dbm} (h : d.RingSound) : d.dropNewest.RingSound := by
  have length := h.2.1
  exact h.replace h.1 (by simp [Dbm.dropNewest]; omega) rfl (fun e => by simp [Dbm.dropNewest, e])
    (fun w => by simpa [Dbm.dropNewest] using w.dropLast) (fun r => by simpa [Dbm.dropNewest] using r.dropLast)

theorem Dbm.freeOldest_slots (d : Dbm) : d.freeOldest.slots = d.slots.tail := by
  unfold Dbm.freeOldest
  split <;> simp_all

theorem Dbm.RingSound.freeOldest {d : Dbm} (h : d.RingSound) : d.freeOldest.RingSound := by
  have length := h.2.1
  refine h.replace ?_ (by simp [freeOldest_slots]; omega) ?_ (fun e => by simp [freeOldest_slots, e])
    (fun w => by simpa [freeOldest_slots] using w.tail) (fun r => by simpa [freeOldest_slots] using r.tail)
  · unfold Dbm.freeOldest
    split
    · exact h.1
    · exact number_lt d 1
  · unfold Dbm.freeOldest
    split <;> rfl

theorem Dbm.RingSound.discardAll (d : Dbm) : d.discardAll.RingSound := Dbm.ringSound_of_empty (number_lt d _) rfl

theorem Dbm.RingSound.setSlot {d : Dbm} (h : d.RingSound) (i : Nat) (f : Slot → Slot) (keep : ∀ x, (f x).state = x.state) :
    (d.setSlot i f).RingSound := h.congr rfl (map_state_modify _ _ _ keep) rfl

/-- What `Dbm.filling` answers: the newest slot, with its position. -/
theorem filling_eq_some {d : Dbm} {i : Nat} {x : Slot} :
    d.filling = some (i, x) ↔ x.state = .filling ∧ ∃ older, d.slots = older ++ [x] ∧ i = older.length := by
  unfold Dbm.filling
  rcases List.eq_nil_or_concat d.slots with e | ⟨older, y, e⟩
  · simp [e]
  · rw [List.concat_eq_append] at e
    simp only [e, List.getLast?_append, List.getLast?_singleton, Option.some_or, List.length_append, List.length_singleton,
      Nat.add_sub_cancel, List.append_eq_append_iff]
    by_cases hy : y.state = .filling
    · simp only [hy, beq_self_eq_true, if_true, Option.some.injEq, Prod.mk.injEq]
      constructor
      · rintro ⟨rfl, rfl⟩
        exact ⟨hy, older, .inl ⟨[], by simp⟩, rfl⟩
      · rintro ⟨_, o, ho, rfl⟩
        have := List.append_inj' (s₁ := older) (t₁ := [y]) (s₂ := o) (t₂ := [x]) (List.append_eq_append_iff.mpr ho) rfl
        simp_all
    · simp only [beq_iff_eq, hy, if_false, false_iff, reduceCtorEq]
      rintro ⟨hx, o, ho, rfl⟩
      have := List.append_inj' (s₁ := older) (t₁ := [y]) (s₂ := o) (t₂ := [x]) (List.append_eq_append_iff.mpr ho) rfl
      simp_all

/-- The last element of a list changed. -/
theorem modify_concat {α : Type} (older : List α) (x : α) (f : α → α) : (older ++ [x]).modify older.length f = older ++ [f x] := by
  induction older with
  | nil => rfl
  | cons o os ih => simpa using ih

/-- The FILLING slot SEALED. -/
theorem Dbm.RingSound.sealed {d : Dbm} {i : Nat} {x : Slot} (h : d.RingSound) (fill : d.filling = some (i, x)) :
    (d.setSlot i (fun y => { y with state := .sealed })).RingSound := by
  obtain ⟨hx, older, hs, rfl⟩ := filling_eq_some.mp fill
  refine h.replace h.1 (by simpa [Dbm.setSlot] using h.2.1) rfl (fun e => by simp [e] at hs) ?_ ?_
  · intro w
    rw [hs, List.map_append] at w
    simpa [Dbm.setSlot, hs, modify_concat] using w.sealLast
  · intro r
    rw [hs, List.map_append] at r
    have := r.concat.2
    simp [hx] at this

/-- A FILLING slot opened on the write path, where none is FILLING and one is FREE (R5). -/
theorem Dbm.RingSound.openedFilling {d : Dbm} {x : Slot} (h : d.RingSound) (direction : d.direction = .write) (none_ : d.filling = none)
    (room : 0 < d.free) (state : x.state = .filling) : (d.opened x).RingSound := by
  obtain ⟨hd, _, _, hw, _⟩ := (ringSound_iff d).mp h
  rw [ringSound_iff]
  refine ⟨hd, ?_, by simp [Dbm.opened, direction], fun _ => ?_, by simp [Dbm.opened, direction]⟩
  · simp only [Dbm.free, Config.slotCount] at room
    simp [Dbm.opened]
    omega
  · simp only [Dbm.opened, List.map_append, List.map_singleton, state]
    refine (hw direction).open ?_
    unfold Dbm.filling at none_
    rw [List.getLast?_map]
    cases last : d.slots.getLast? with
    | none => simp
    | some y => simpa [last] using none_

theorem find_eq_none_iff {d : Dbm} {st : SlotState} : d.find st = none ↔ ∀ x ∈ d.slots, x.state ≠ st := by
  simp [Dbm.find, List.findIdx?_eq_none_iff]

/-- The first slot in a state, by its position. -/
theorem find_eq_some {d : Dbm} {st : SlotState} {i : Nat} (h : d.find st = some i) : ∃ x, d.slots[i]? = some x ∧ x.state = st := by
  unfold Dbm.find at h
  rw [List.findIdx?_eq_some_iff_getElem] at h
  obtain ⟨hi, hx, _⟩ := h
  exact ⟨d.slots[i], List.getElem?_eq_getElem hi, by simpa using hx⟩

/-- A LOADING slot opened on the read path where it may be (R11). -/
theorem Dbm.RingSound.openedLoading {d : Dbm} {x : Slot} (h : d.RingSound) (direction : d.direction = .read) (may : d.mayLoad = true)
    (state : x.state = .loading) : (d.opened x).RingSound := by
  obtain ⟨hd, _, _, _, hr⟩ := (ringSound_iff d).mp h
  simp only [Dbm.mayLoad, Bool.and_eq_true, Option.isNone_iff_eq_none, bne_iff_ne, ne_eq, decide_eq_true_eq] at may
  obtain ⟨⟨noLoading, noFailed⟩, room⟩ := may
  rw [ringSound_iff]
  refine ⟨hd, ?_, by simp [Dbm.opened, direction], by simp [Dbm.opened, direction], fun _ => ?_⟩
  · simp only [Dbm.free, Config.slotCount] at room
    simp [Dbm.opened]
    omega
  · simp only [Dbm.opened, List.map_append, List.map_singleton, state]
    refine (hr direction).open ?_ ?_
    · rw [List.getLast?_map]
      cases last : d.slots.getLast? with
      | none => simp
      | some y => simpa using find_eq_none_iff.mp noLoading y (List.mem_of_getLast? last)
    · rwa [List.getLast?_map]

/-- In a sound ring a LOADING slot is the newest, the direction READ, and those behind it are EXPANDING or READY. -/
theorem Dbm.RingSound.loading {d : Dbm} {i : Nat} (h : d.RingSound) (hi : d.find .loading = some i) :
    d.direction = .read ∧ ∃ older x, d.slots = older ++ [x] ∧ i = older.length ∧ x.state = .loading
      ∧ ∀ y ∈ older, y.state = .expanding ∨ y.state = .ready := by
  obtain ⟨_, _, hn, hw, hr⟩ := (ringSound_iff d).mp h
  obtain ⟨x, hx, hst⟩ := find_eq_some hi
  have mem : x ∈ d.slots := List.mem_of_getElem? hx
  have read : d.direction = .read := by
    cases dir : d.direction with
    | read => rfl
    | neutral => simp [hn dir] at mem
    | write => simpa using (hw dir).mem (List.mem_map.mpr ⟨x, mem, hst⟩)
  refine ⟨read, ?_⟩
  have run := hr read
  have last := run.loading_last (i := i) (by simp [hx, hst])
  rcases List.eq_nil_or_concat d.slots with e | ⟨older, y, e⟩
  · simp [e] at mem
  · rw [List.concat_eq_append] at e
    obtain rfl : i = older.length := by simp [e] at last; omega
    obtain rfl : y = x := by simpa [e] using hx
    refine ⟨older, y, e, rfl, hst, fun z hz => ?_⟩
    rw [e, List.map_append] at run
    obtain ⟨⟨front, n, eq, hf⟩, _⟩ := run.concat
    have mem' : z.state ∈ older.map Slot.state := List.mem_map.mpr ⟨z, hz, rfl⟩
    rw [eq] at mem'
    rcases hf with rfl | rfl <;> simp at mem' <;> tauto

/-- The LOADING slot ends READY or FAILED (R11, R90, R94). -/
theorem Dbm.RingSound.loaded {d : Dbm} {i : Nat} (h : d.RingSound) (hi : d.find .loading = some i) (f : Slot → Slot) (st : SlotState)
    (state : ∀ x, (f x).state = st) (ok : st = .ready ∨ st = .failed) : (d.setSlot i f).RingSound := by
  obtain ⟨read, older, x, hs, rfl, _, _⟩ := h.loading hi
  obtain ⟨hd, hl, _, _, hr⟩ := (ringSound_iff d).mp h
  have run := hr read
  rw [hs, List.map_append] at run
  rw [ringSound_iff]
  refine ⟨hd, by simpa [Dbm.setSlot] using hl, by simp [Dbm.setSlot, read], by simp [Dbm.setSlot, read], fun _ => ?_⟩
  simpa [Dbm.setSlot, hs, modify_concat, state] using run.endLast ok

/-- The oldest slot, SEALED, becomes WRITING (R9). -/
theorem Dbm.RingSound.writing {d : Dbm} {x : Slot} {xs : List Slot} (h : d.RingSound) (hs : d.slots = x :: xs) (hx : x.state = .sealed) :
    (d.setSlot 0 (fun y => { y with state := .writing })).RingSound := by
  refine h.replace h.1 (by simpa [Dbm.setSlot] using h.2.1) rfl (fun e => by simp [e] at hs) ?_ ?_
  · intro w
    simp only [hs, List.map_cons, hx] at w
    simpa [Dbm.setSlot, hs] using w.beginHead
  · rintro ⟨front, back, n, eq, hf, hb⟩
    simp only [hs, List.map_cons, hx] at eq
    rcases hf with rfl | rfl
    · cases n with
      | zero => rcases hb with rfl | rfl | rfl <;> simp at eq
      | succ k => simp [List.replicate_succ] at eq
    · simp at eq

/-- The oldest slot, READY, becomes EXPANDING (R12). -/
theorem Dbm.RingSound.expanding {d : Dbm} {x : Slot} {xs : List Slot} (h : d.RingSound) (hs : d.slots = x :: xs) (hx : x.state = .ready) :
    (d.setSlot 0 (fun y => { y with state := .expanding })).RingSound := by
  refine h.replace h.1 (by simpa [Dbm.setSlot] using h.2.1) rfl (fun e => by simp [e] at hs) ?_ ?_
  · rintro ⟨front, back, n, eq, hf, hb⟩
    simp only [hs, List.map_cons, hx] at eq
    rcases hf with rfl | rfl
    · cases n with
      | zero => rcases hb with rfl | rfl <;> simp at eq
      | succ k => simp [List.replicate_succ] at eq
    · simp at eq
  · intro r
    simp only [hs, List.map_cons, hx] at r
    simpa [Dbm.setSlot, hs] using r.expandHead

/-- A sound ring with direction WRITE holds slots of the write path alone, one with direction READ none of them. -/
theorem Dbm.RingSound.onWritePath {d : Dbm} (h : d.RingSound) :
    (d.direction = .write → ∀ x ∈ d.slots, x.onWritePath = true) ∧ (d.direction = .read → ∀ x ∈ d.slots, x.onWritePath = false) := by
  obtain ⟨_, _, _, hw, hr⟩ := (ringSound_iff d).mp h
  constructor
  · intro dir x hx
    rcases (hw dir).mem (List.mem_map.mpr ⟨x, hx, rfl⟩) with e | e | e <;> simp [Slot.onWritePath, e]
  · intro dir x hx
    rcases (hr dir).mem (List.mem_map.mpr ⟨x, hx, rfl⟩) with e | e | e | e <;> simp [Slot.onWritePath, e]

/-- A slot of the read path stands in a sound ring only while the direction is READ. -/
theorem Dbm.RingSound.read_of_mem {d : Dbm} (h : d.RingSound) {x : Slot} (mem : x ∈ d.slots) (path : x.onWritePath = false) :
    d.direction = .read := by
  cases dir : d.direction with
  | read => rfl
  | neutral => simp [(ringSound_iff d).mp h |>.2.2.1 dir] at mem
  | write => simp [h.onWritePath.1 dir x mem] at path

end Sys2Proof.Machine
end

section
/-!
SUPPORT. What every operation keeps (Safety.lean): the invariants of the blocks, and what the Reader's soundness (R12, R94, R104) rests on.
-/
namespace Sys2Proof.Machine
open Sys2Proof.Laws

/-! ### The Reader's side -/

theorem executing_rrec_iff (s : State) : (s.cu.progress = .scan ∧ ∃ n limit : Nat, s.executing = some (.rrec n limit)) ↔ s.cu.locates = true := by
  unfold Cu.locates State.executing
  cases s.cu.queue with
  | nil => simp
  | cons q rest =>
    obtain ⟨tag, command, begun⟩ := q
    cases begun <;> cases command <;> simp

theorem pu_locates_iff (u : Pu) : u.locates = true ↔ ∃ c, u.scan = some c ∧ c.purpose = .read := by
  unfold Pu.locates
  cases u.scan <;> simp

/-- The Reader's soundness by the three facts it speaks of. -/
theorem readerSound_iff (s : State) : s.ReaderSound ↔
    (s.dbm.holdsFailed → s.rdr.calm = true ∧ s.pu.locates = false) ∧ (s.pu.locates = true → s.rdr.calm = true ∧ s.cu.locates = true) := by
  have none_ : s.pu.locates = false ↔ ∀ c : Scan, s.pu.scan = some c → c.purpose ≠ .read := by
    rw [← Bool.not_eq_true, pu_locates_iff]
    simp
  rw [none_, pu_locates_iff, ← executing_rrec_iff]
  unfold State.ReaderSound Dbm.holdsFailed
  constructor
  · rintro ⟨h1, h2⟩
    exact ⟨h1, fun ⟨c, hc, hp⟩ => h2 c hc hp⟩
  · rintro ⟨h1, h2⟩
    exact ⟨h1, fun c hc hp => h2 ⟨c, hc, hp⟩⟩

theorem Calm.refl (s : State) : Calm s s := ⟨id, id, id, fun _ => id⟩

theorem Calm.trans {s t u : State} (h : Calm s t) (k : Calm t u) : Calm s u :=
  ⟨fun f => h.failed (k.failed f), fun c => k.rdr (h.rdr c), fun l => h.scan (k.scan l), fun l c => k.command l (h.command (k.scan l) c)⟩

theorem Calm.readerSound {s t : State} (h : Calm s t) (sound : s.ReaderSound) : t.ReaderSound := by
  rw [readerSound_iff] at sound ⊢
  obtain ⟨hf, hl⟩ := sound
  refine ⟨fun f => ⟨h.rdr (hf (h.failed f)).1, ?_⟩, fun l => ⟨h.rdr (hl (h.scan l)).1, h.command l (hl (h.scan l)).2⟩⟩
  by_contra l
  exact absurd (h.scan (by simpa using l)) (by simp [(hf (h.failed f)).2])

theorem mayEnd_of_scan {s : State} (h : s.pu.scan = none) : s.mayEnd := by simp [State.mayEnd, Pu.locates, h]

theorem mayEnd_of_progress {s : State} (h : s.cu.progress ≠ .scan) : s.mayEnd := by
  intro _
  unfold Cu.locates
  split <;> simp [h]

theorem mayEnd_of_executing {s : State} (h : ∀ n limit, s.executing ≠ some (.rrec n limit)) : s.mayEnd := by
  intro _
  by_contra l
  obtain ⟨_, n, limit, e⟩ := (executing_rrec_iff s).mpr (by simpa using l)
  exact h n limit e

/-- The executing command is no READ_RECORDS. -/
theorem mayEnd_of_command {s : State} {c : Command} (e : s.executing = some c) (other : ∀ n limit : Nat, c ≠ .rrec n limit) : s.mayEnd :=
  mayEnd_of_executing (fun n limit => by simpa [e] using other n limit)

/-! ### What is kept -/

@[simp] theorem Keeps.refl (q : Bool) (s : State) : Keeps q s s := ⟨id, id, id, id, id, id, id, id, fun _ => Calm.refl s⟩

theorem Keeps.trans {q : Bool} {s t u : State} (h : Keeps q s t) (k : Keeps q t u) : Keeps q s u :=
  ⟨fun x => k.eu (h.eu x), fun x => k.dram (h.dram x), fun x => k.cu (h.cu x), fun x => k.hm (h.hm x), fun x => k.sv (h.sv x),
   fun x => k.rtc (h.rtc x), fun x => k.port (h.port x), fun x => k.ring (h.ring x), fun x => (h.calm x).trans (k.calm x)⟩

/-- What is kept quietly is kept. -/
theorem Keeps.loud {q : Bool} {s t : State} (h : Keeps q s t) : Keeps false s t := { h with calm := by simp }

section
variable {q : Bool} {a s : State}

/-! ### One block's update -/

/-- An update of the blocks that no invariant speaks of. -/
theorem Keeps.unspoken {t : State} (h : Keeps q a s) (spu : t.spu = s.spu) (cu : t.cu = s.cu) (dbm : t.dbm = s.dbm) (rdr : t.rdr = s.rdr)
    (pu : t.pu = s.pu) (rtc : t.rtc = s.rtc) (sv : t.sv = s.sv) (hm : t.hm = s.hm) (eu : t.eu = s.eu) : Keeps q a t := by
  refine h.trans ⟨?_, ?_, ?_, ?_, ?_, ?_, ?_, ?_, fun _ => ⟨?_, ?_, ?_, ?_⟩⟩ <;>
    simp only [State.PortSound, spu, cu, dbm, rdr, pu, rtc, sv, hm, eu, imp_self, imp_true_iff]

theorem Keeps.onRc (h : Keeps q a s) (f : Rc → Rc) : Keeps q a (s.onRc f) := h.unspoken rfl rfl rfl rfl rfl rfl rfl rfl rfl
theorem Keeps.onRx (h : Keeps q a s) (f : Rx → Rx) : Keeps q a (s.onRx f) := h.unspoken rfl rfl rfl rfl rfl rfl rfl rfl rfl
theorem Keeps.onWf (h : Keeps q a s) (f : Wf → Wf) : Keeps q a (s.onWf f) := h.unspoken rfl rfl rfl rfl rfl rfl rfl rfl rfl
theorem Keeps.onSm (h : Keeps q a s) (f : Sm → Sm) : Keeps q a (s.onSm f) := h.unspoken rfl rfl rfl rfl rfl rfl rfl rfl rfl
theorem Keeps.onSensors (h : Keeps q a s) (f : Sensors → Sensors) : Keeps q a (s.onSensors f) :=
  h.unspoken rfl rfl rfl rfl rfl rfl rfl rfl rfl
theorem Keeps.onTape (h : Keeps q a s) (f : List TapeWrite → List TapeWrite) : Keeps q a (s.onTape f) :=
  h.unspoken rfl rfl rfl rfl rfl rfl rfl rfl rfl
theorem Keeps.setFree (h : Keeps q a s) (n : Nat) : Keeps q a (s.setFree n) := h.unspoken rfl rfl rfl rfl rfl rfl rfl rfl rfl
theorem Keeps.setPending (h : Keeps q a s) (is : List Instr) : Keeps q a (s.setPending is) :=
  h.unspoken rfl rfl rfl rfl rfl rfl rfl rfl rfl
theorem Keeps.nextFree (h : Keeps q a s) : Keeps q a s.nextFree := h.setFree _

theorem Keeps.onSv (h : Keeps q a s) (f : Sv → Sv) (sound : s.sv.Sound → (f s.sv).Sound) : Keeps q a (s.onSv f) :=
  h.trans ⟨id, id, id, id, sound, id, id, id, fun _ => ⟨id, id, id, fun _ => id⟩⟩

theorem Keeps.onRtcAt (h : Keeps q a s) (f : Rtc → Rtc)
    (sound : (s.rtc.motion = .settling ↔ s.rtc.settleTimer.isSome = true) →
      ((f s.rtc).motion = .settling ↔ (f s.rtc).settleTimer.isSome = true)) : Keeps q a (s.onRtc f) :=
  h.trans ⟨id, id, id, id, id, sound, id, id, fun _ => ⟨id, id, id, fun _ => id⟩⟩

theorem Keeps.onRtc (h : Keeps q a s) (f : Rtc → Rtc) (kept : ∀ r, (f r).motion = r.motion ∧ (f r).settleTimer = r.settleTimer) : Keeps q a (s.onRtc f) :=
  h.onRtcAt f (by rw [(kept _).1, (kept _).2]; exact id)

theorem Keeps.onSpu (h : Keeps q a s) (f : Spu → Spu) (port : s.PortSound → (s.onSpu f).PortSound) : Keeps q a (s.onSpu f) :=
  h.trans ⟨id, id, id, id, id, id, port, id, fun _ => ⟨id, id, id, fun _ => id⟩⟩

theorem Keeps.onEu (h : Keeps q a s) (f : Eu → Eu) (sound : s.eu.Sound → (f s.eu).Sound) : Keeps q a (s.onEu f) :=
  h.trans ⟨sound, id, id, id, id, id, id, id, fun _ => ⟨id, id, id, fun _ => id⟩⟩

theorem Keeps.onHm (h : Keeps q a s) (f : Hm → Hm) (sound : s.hm.Sound → (f s.hm).Sound) : Keeps q a (s.onHm f) :=
  h.trans ⟨id, id, id, sound, id, id, id, id, fun _ => ⟨id, id, id, fun _ => id⟩⟩

/-- The Position Unit changed, with no locate before a read begun. -/
theorem Keeps.onPuAt (h : Keeps q a s) (f : Pu → Pu)
    (scan : q = true → (f s.pu).scan.any (fun c => c.purpose == .read) = true → s.pu.scan.any (fun c => c.purpose == .read) = true) :
    Keeps q a (s.onPu f) :=
  h.trans ⟨id, id, id, id, id, id, id, id, fun hq => ⟨id, id, scan hq, fun _ => id⟩⟩

theorem Keeps.onPu (h : Keeps q a s) (f : Pu → Pu) (scan : ∀ u, (f u).scan = u.scan) : Keeps q a (s.onPu f) :=
  h.onPuAt f (fun _ => by rw [scan]; exact id)

/-- The Reader changed, a calm one left calm. -/
theorem Keeps.onRdr (h : Keeps q a s) (f : Rdr → Rdr) (calm : q = true → s.rdr.calm = true → (f s.rdr).calm = true) :
    Keeps q a (s.onRdr f) :=
  h.trans ⟨id, id, id, id, id, id, id, id, fun hq => ⟨id, calm hq, id, fun _ => id⟩⟩

/-- The Command Unit changed, its queue kept, and its progress where the command may leave a locate. -/
theorem Keeps.onCuAt (h : Keeps q a s) (f : Cu → Cu) (queue : (f s.cu).queue = s.cu.queue)
    (progress : q = true → (f s.cu).progress = s.cu.progress ∨ s.mayEnd) : Keeps q a (s.onCu f) := by
  refine h.trans ⟨id, id, ?_, id, id, id, id, id, fun hq => ⟨id, id, id, fun l c => ?_⟩⟩
  · simp [Cu.Sound, queue]
  · rcases progress hq with e | m
    · simpa [Cu.locates, queue, e] using c
    · simp [m l] at c

/-- The Command Unit's counts, policy and deferred write error changed. -/
theorem Keeps.onCu (h : Keeps q a s) (f : Cu → Cu) (kept : ∀ c, (f c).queue = c.queue ∧ (f c).progress = c.progress) : Keeps q a (s.onCu f) :=
  h.onCuAt f (kept _).1 (fun _ => .inl (kept _).2)

/-- The Dataset Buffer Manager changed, with no place taken and no slot FAILED. -/
theorem Keeps.onDbm (h : Keeps q a s) (f : Dbm → Dbm) (dram : s.dbm.dram.wf = true → (f s.dbm).dram.wf = true)
    (staging : (f s.dbm).staging.length ≤ s.dbm.staging.length) (ring : s.dbm.RingSound → (f s.dbm).RingSound)
    (failed : q = true → (f s.dbm).holdsFailed → s.dbm.holdsFailed) : Keeps q a (s.onDbm f) := by
  refine h.trans ⟨id, dram, id, id, id, id, ?_, ring, fun hq => ⟨failed hq, id, id, fun _ => id⟩⟩
  rintro ⟨hc, hr, hl⟩
  exact ⟨by simp only [onDbm_spu, onDbm_dbm]; omega, hr, hl⟩

theorem Keeps.when (b : Bool) (h : Keeps q a s) (f : State → State) (k : b = true → Keeps q a (f s)) : Keeps q a (s.when b f) := by
  cases b with
  | true => exact k rfl
  | false => exact h

theorem Keeps.ite {p : Prop} [Decidable p] {t u : State} (h : p → Keeps q a t) (k : ¬ p → Keeps q a u) : Keeps q a (if p then t else u) := by
  split
  · next hp => exact h hp
  · next hp => exact k hp

/-! ### Packets and events -/

theorem Keeps.send (h : Keeps q a s) (p : Packet) : Keeps q a (s.send p) := h.onSpu _ id

theorem attnLevel_congr {e f : Eu} (l : f.latches = e.latches) (m : f.mask = e.mask) : f.attnLevel = e.attnLevel := by
  simp [Eu.attnLevel, Eu.reported, l, m]

/-- An occurrence keeps the Event Unit sound (R185, R188). -/
theorem Eu.Sound.occur {e : Eu} (h : e.Sound) (ev : Event) : (e.occur ev.num).Sound := by
  obtain ⟨hl, hu, ha⟩ := h
  have assigned : ev.num.val < 27 := by cases ev <;> decide
  unfold Eu.occur
  dsimp only
  split
  · next hset =>
    refine ⟨fun i => ?_, fun i hi => ?_, ?_⟩
    · by_cases hv : ev.num.val = i.val
      · have hs := hl ev.num
        simp only [Latch.sound, hset, if_true, Bool.and_eq_true, decide_eq_true_eq] at hs
        simp only [Fin.getElem_fin, Vector.getElem_set, hv, if_true, Latch.sound, satAdd]
        simp only [Fin.getElem_fin, hv] at hset hs
        simp [hset]
      · simpa [Vector.getElem_set, hv] using hl i
    · have hv : ev.num.val ≠ i.val := by omega
      simpa [Vector.getElem_set, hv] using hu i hi
    · rw [ha]
      unfold Eu.attnLevel Eu.reported
      congr 1
      funext i
      by_cases hv : ev.num.val = i.val
      · simp [hv]
      · simp [hv]
  · refine ⟨fun i => ?_, fun i hi => ?_, rfl⟩
    · by_cases hv : ev.num.val = i.val
      · simp [Eu.judge, hv, Latch.sound]
      · simpa [Eu.judge, Vector.getElem_set, hv] using hl i
    · have hv : ev.num.val ≠ i.val := by omega
      simpa [Eu.judge, Vector.getElem_set, hv] using hu i hi

theorem Keeps.raise (h : Keeps q a s) (ev : Event) : Keeps q a (s.raise ev) := by
  unfold State.raise
  exact Keeps.when _ (h.onEu _ (·.occur ev)) _ (fun _ => (h.onEu _ (·.occur ev)).send _)

/-! ### The command queue -/

/-- The queue without its head (R175). -/
theorem Cu.Sound.tail {c d : Cu} (h : c.Sound) (queue : d.queue = c.queue.tail) : d.Sound := by
  obtain ⟨hl, hn, hz, hb⟩ := h
  unfold Cu.Sound
  rw [queue]
  refine ⟨by simp; omega, ?_, fun x hx => hz x (List.mem_of_mem_tail hx), fun x hx => hb x (List.mem_of_mem_tail hx)⟩
  rw [List.map_tail]
  exact hn.tail

theorem complete_spu_counts (s : State) (code : Code) (res : Results) : (s.complete code res).spu.credits ≤ s.spu.credits
    ∧ (s.complete code res).spu.readCredits = s.spu.readCredits ∧ (s.complete code res).spu.linkErrors = s.spu.linkErrors := by
  unfold State.complete
  split
  · simp
  · dsimp only
    split <;> simp

theorem Keeps.complete (h : Keeps q a s) (code : Code) (res : Results) (may : q = true → s.mayEnd) :
    Keeps q a (s.complete code res) := by
  refine h.trans ⟨?_, ?_, fun c => c.tail (complete_queue s code res), ?_, ?_, ?_, ?_, ?_, fun hq => ⟨?_, ?_, ?_, ?_⟩⟩
  case refine_6 =>
    obtain ⟨hc, hr, hl⟩ := complete_spu_counts s code res
    rintro ⟨pc, pr, pl⟩
    exact ⟨by simp only [complete_dbm]; omega, by omega, by omega⟩
  case refine_11 =>
    intro l c
    have := may hq (by simpa using l)
    simp [c] at this
  all_goals simp

@[simp] theorem reportDeferred_pu_scan (s : State) : s.reportDeferred.pu.scan = s.pu.scan := by
  unfold State.reportDeferred
  split <;> simp

theorem Keeps.reportDeferred (h : Keeps q a s) (may : q = true → s.mayEnd) : Keeps q a s.reportDeferred := by
  unfold State.reportDeferred
  split
  · exact h
  · exact ((h.complete _ _ may).onCu _ (fun _ => by simp)).onPu _ (fun _ => by rfl)

end

end Sys2Proof.Machine
end

section
/-!
SUPPORT. What the speed, the head's monitor and the reels keep (R67 to R81, R131 to R170).
-/
namespace Sys2Proof.Machine
open Sys2Proof.Laws

/-! ### The Servo Unit (R144 to R150) -/

theorem Sv.Sound.leaveLocked {v : Sv} (h : v.Sound) (tb : Timebase) (out : tb ≠ .locked) : ({ v.leaveLocked with timebase := tb } : Sv).Sound := by
  simp [Sv.Sound, Sv.leaveLocked, out, h.2.2.1, h.2.2.2]

theorem Sv.Sound.acquire {v : Sv} (h : v.Sound) : v.acquire.Sound := by
  obtain ⟨hc, hi, _, hm⟩ := h
  unfold Sv.acquire
  dsimp only
  split
  · simp [Sv.Sound, Sv.leaveLocked, hm]
  · next out =>
    have out : v.timebase ≠ .locked := by simpa using out
    refine ⟨?_, fun i => absurd (hi i) out, by simp, hm⟩
    simpa using fun e => out (hc.mp e)

theorem Sv.Sound.lock {v : Sv} (h : v.Sound) : v.lock.Sound := by simp [Sv.Sound, Sv.lock, h.2.2.1]

theorem Sv.Sound.off {v : Sv} (h : v.Sound) : v.off.Sound := by simp [Sv.Sound, Sv.off, Sv.leaveLocked, h.2.2.1]

theorem Sv.Sound.accelerate {v : Sv} (h : v.Sound) (speed : Nat) : (v.accelerate speed).Sound := by
  unfold Sv.accelerate
  split
  · exact h
  · exact h.acquire

theorem Sv.Sound.streaming {v : Sv} (h : v.Sound) : v.streaming.Sound := by
  unfold Sv.streaming
  split
  · exact h.lock
  · exact h

theorem Sv.Sound.speedChange {v : Sv} (h : v.Sound) (speed : Nat) : (v.speedChange speed).Sound := by
  unfold Sv.speedChange
  split
  · exact h
  · exact h.acquire

theorem Sv.Sound.suspend {v : Sv} (h : v.Sound) : v.suspend.Sound := by
  unfold Sv.suspend
  split
  · exact h
  · exact h.acquire

theorem Sv.Sound.setKind {v : Sv} (h : v.Sound) (k : TapeKind) : (v.setKind k).Sound := by
  unfold Sv.setKind
  split
  · exact h.off
  · exact h

section
variable {q : Bool} {a s : State}

/-! ### The Speed Matcher (R67 to R80) -/

/-- A direction set where the run is empty, or the direction it has already (R13). -/
theorem Keeps.setDirection (h : Keeps q a s) (d : BufferDirection)
    (empty : s.dbm.RingSound → s.dbm.slots = [] ∨ s.dbm.direction = d) : Keeps q a (s.setDirection d) := by
  unfold State.setDirection
  split
  · exact h
  · next other =>
    have other : s.dbm.direction ≠ d := by simpa using other
    have turned : Keeps q a (s.onDbm (fun b => { b with direction := d })) :=
      h.onDbm _ id (Nat.le_refl _) (fun r => Dbm.ringSound_of_empty r.1 ((empty r).resolve_right other)) (fun _ => id)
    split
    · exact turned.onSm _
    · exact ((turned.onSm _).onRc _).onRx _

theorem Keeps.applyScheduled (h : Keeps q a s) : Keeps q a s.applyScheduled := by
  unfold State.applyScheduled
  split
  · exact h
  · exact (h.onSm _).raise _

theorem Keeps.takeSpeed (h : Keeps q a s) : Keeps q a s.takeSpeed := h.onRtc _ (fun _ => by simp)

theorem Keeps.boundary (h : Keeps q a s) : Keeps q a s.boundary := by
  have told := h.applyScheduled.takeSpeed
  unfold State.boundary
  split
  · exact h
  · dsimp only
    split
    · exact told.onSv _ (fun v => v.speedChange _)
    · split
      · exact told
      · exact told.onSv _ id

theorem Keeps.classAndZone (h : Keeps q a s) (f : Nat) : Keeps q a (s.classAndZone f) := by
  unfold State.classAndZone
  dsimp only
  split
  · split
    · exact h
    · split
      · exact (h.onSm _).raise _
      · exact (h.onSm _).raise _
      · exact h.onSm _
  · split
    · exact (h.onSm _).raise _
    · split
      · exact (((h.onSm _).raise _).onSm _).raise _
      · exact (((h.onSm _).raise _).onSm _).raise _
      · exact ((h.onSm _).raise _).onSm _

theorem Keeps.windowExpires (h : Keeps q a s) : Keeps q a s.windowExpires := by
  unfold State.windowExpires
  exact (((h.onSm _).classAndZone _).onRc _).onRx _

theorem Keeps.installSpdt (h : Keeps q a s) (t : SpeedTable) : Keeps q a (s.installSpdt t) := by
  unfold State.installSpdt
  exact ((h.onSm _).takeSpeed).onSv _ id

theorem Keeps.capSchedule (h : Keeps q a s) : Keeps q a s.capSchedule := by
  unfold State.capSchedule
  exact h.onSm _

/-! ### The Head Monitor (R156 to R170) -/

/-- The head state recomputed keeps CLEAN_REQ at it (R161, R162). -/
theorem recomputeHead_sound {s : State} (line : s.hm.cleanReq = (s.hm.head == .required)) : s.recomputeHead.hm.Sound := by
  unfold State.recomputeHead
  dsimp only
  split
  · next e => exact ⟨e.symm, line⟩
  · split
    · exact ⟨rfl, rfl⟩
    · rw [raise_hm]
      exact ⟨rfl, rfl⟩
    · rw [State.capSchedule, onSm_hm, raise_hm]
      exact ⟨rfl, rfl⟩

/-- Rows are scored: the records of the Head Monitor change, with the latches and the packets of what comes of it. -/
structure Scores (s t : State) : Prop where
  rest : ∃ (eu : Eu) (hm : Hm) (out : List Packet), t = { s with eu := eu, hm := hm, spu := { s.spu with out := out } }
  head : t.hm.head = s.hm.head
  line : t.hm.cleanReq = s.hm.cleanReq
  eu : s.eu.Sound → t.eu.Sound
  mask : t.eu.mask = s.eu.mask
  out : s.spu.out <+: t.spu.out

theorem Scores.trans {s t u : State} (h : Scores s t) (k : Scores t u) : Scores s u := by
  obtain ⟨eu, hm, out, rfl⟩ := h.rest
  obtain ⟨eu', hm', out', rfl⟩ := k.rest
  exact ⟨⟨eu', hm', out', rfl⟩, k.head.trans h.head, k.line.trans h.line, fun x => k.eu (h.eu x), k.mask.trans h.mask,
    h.out.trans k.out⟩

theorem Scores.refl (s : State) : Scores s s := ⟨⟨_, _, _, rfl⟩, rfl, rfl, id, rfl, List.prefix_refl _⟩

theorem Scores.onHm (s : State) (f : Hm → Hm) (head : (f s.hm).head = s.hm.head) (line : (f s.hm).cleanReq = s.hm.cleanReq) :
    Scores s (s.onHm f) := ⟨⟨_, _, _, rfl⟩, head, line, id, rfl, List.prefix_refl _⟩

theorem Eu.occur_mask (e : Eu) (i : Fin 32) : (e.occur i).mask = e.mask := by
  unfold Eu.occur
  dsimp only
  split <;> rfl

theorem Scores.raise (s : State) (ev : Event) : Scores s (s.raise ev) := by
  refine ⟨?_, by simp, by simp, fun h => by simpa using h.occur ev, by rw [raise_eu, Eu.occur_mask], ?_⟩
  · unfold State.raise State.when
    dsimp only
    split <;> exact ⟨_, _, _, rfl⟩
  · unfold State.raise State.when
    dsimp only
    split
    · exact List.prefix_append _ _
    · exact List.prefix_refl _

theorem Scores.closeWindow (s : State) (ch : Fin 16) (f : Nat) : Scores s (s.closeWindow ch f) := by
  unfold State.closeWindow
  dsimp only
  have set (c : Channel) := Scores.onHm s (fun h => { h with channels := h.channels.set ch c }) rfl rfl
  split
  · exact set _
  · exact (set _).trans (Scores.raise _ _)

theorem Scores.takeChannel (ts : Vector Tally 16) (s : State) (ch : Fin 16) : Scores s (State.takeChannel ts s ch) := by
  unfold State.takeChannel
  have fold (fs : List Nat) (t : State) (h : Scores s t) : Scores s (fs.foldl (fun s f => s.closeWindow ch f) t) := by
    induction fs generalizing t with
    | nil => exact h
    | cons f fs ih => exact ih _ (h.trans (Scores.closeWindow t ch f))
  exact fold _ _ (Scores.onHm s _ rfl rfl)

theorem Scores.takeChannels (ts : Vector Tally 16) (chs : List (Fin 16)) (s : State) : Scores s (chs.foldl (State.takeChannel ts) s) := by
  induction chs generalizing s with
  | nil => exact Scores.refl s
  | cons ch chs ih => exact (Scores.takeChannel ts s ch).trans (ih _)

/-- The head state recomputed touches the Head Monitor, the latches, the packets, and the Speed Matcher's schedule. -/
theorem recomputeHead_rest (s : State) : ∃ (eu : Eu) (hm : Hm) (out : List Packet) (sm : Sm),
    s.recomputeHead = { s with eu := eu, hm := hm, sm := sm, spu := { s.spu with out := out } } := by
  unfold State.recomputeHead
  dsimp only
  split
  · exact ⟨_, _, _, _, rfl⟩
  · split
    · exact ⟨_, _, _, _, rfl⟩
    · obtain ⟨eu, hm, out, e⟩ := (Scores.raise (s.onHm (fun h => { h with head := s.hm.judged, cleanReq := s.hm.judged == .required })) .cleaningAdvised).rest
      exact ⟨eu, hm, out, s.sm, e⟩
    · obtain ⟨eu, hm, out, e⟩ := (Scores.raise (s.onHm (fun h => { h with head := s.hm.judged, cleanReq := s.hm.judged == .required })) .cleaningRequired).rest
      exact ⟨eu, hm, out, _, by unfold State.capSchedule; rw [e]; rfl⟩

theorem recomputeHead_eu_sound {s : State} (h : s.eu.Sound) : s.recomputeHead.eu.Sound := by
  unfold State.recomputeHead
  dsimp only
  split
  · exact h
  · split
    · exact h
    · simpa using h.occur _
    · simpa [State.capSchedule] using h.occur _

/-- Scoring, then the head state recomputed. -/
theorem Keeps.scored (h : Keeps q a s) {t : State} (k : Scores s t) : Keeps q a t.recomputeHead := by
  obtain ⟨eu, hm, out, e⟩ := k.rest
  obtain ⟨eu', hm', out', sm', e'⟩ := recomputeHead_rest t
  have eus (x : s.eu.Sound) : t.recomputeHead.eu.Sound := recomputeHead_eu_sound (k.eu x)
  have hms (x : s.hm.Sound) : t.recomputeHead.hm.Sound := recomputeHead_sound (by rw [k.head, k.line]; exact x.2)
  refine h.trans ⟨eus, ?_, ?_, hms, ?_, ?_, ?_, ?_, fun _ => ⟨?_, ?_, ?_, fun _ => ?_⟩⟩ <;> rw [e', e] <;> exact id

/-- The head monitor changed in a record that the head state rests on. -/
theorem Keeps.rejudged (h : Keeps q a s) (f : Hm → Hm) (head : (f s.hm).head = s.hm.head) (line : (f s.hm).cleanReq = s.hm.cleanReq) :
    Keeps q a (s.onHm f).recomputeHead := h.scored (Scores.onHm s f head line)

theorem Keeps.takeTally (h : Keeps q a s) (ts : Vector Tally 16) : Keeps q a (s.takeTally ts) := h.scored (Scores.takeChannels ts _ s)

theorem Keeps.countMetre (h : Keeps q a s) : Keeps q a s.countMetre := h.rejudged _ rfl rfl

theorem Keeps.countLoad (h : Keeps q a s) : Keeps q a s.countLoad := h.onHm _ id

theorem Keeps.loadBegins (h : Keeps q a s) : Keeps q a s.loadBegins := h.onHm _ id

theorem Keeps.creditCleaning (h : Keeps q a s) : Keeps q a s.creditCleaning := (h.rejudged _ rfl rfl).raise _

theorem Keeps.installCpol (h : Keeps q a s) (p : CleaningPolicy) : Keeps q a (s.installCpol p) :=
  Keeps.when _ (h.rejudged _ rfl rfl) _ (fun _ => (h.rejudged _ rfl rfl).capSchedule)

theorem Keeps.installHrec (h : Keeps q a s) (r : HeadRecord) : Keeps q a (s.installHrec r) := h.rejudged _ rfl rfl

theorem Keeps.closeChannel (h : Keeps q a s) (ch : Fin 16) (failed : Bool) : Keeps q a (s.closeChannel ch failed) := by
  unfold State.closeChannel
  split
  · exact h.scored ((Scores.onHm s _ rfl rfl).trans (Scores.closeWindow _ ch _))
  · exact h

/-! ### The reels (R131 to R137) -/

/-- The reels leave SETTLING to no other state: the timer runs there alone. -/
theorem Keeps.decelerate (h : Keeps q a s) (moving : s.rtc.motion ≠ .settling) : Keeps q a s.decelerate :=
  (h.onRtcAt _ (fun x => by simpa [moving] using x)).onSv _ Sv.Sound.suspend

@[simp] theorem applyScheduled_rtc (s : State) : s.applyScheduled.rtc = s.rtc := by
  unfold State.applyScheduled
  split <;> simp

theorem Keeps.accelerate (h : Keeps q a s) (rest : s.rtc.motion ≠ .settling) : Keeps q a s.accelerate := by
  unfold State.accelerate
  refine ((h.applyScheduled.takeSpeed.onRtcAt _ fun x => ?_).onSv _ (fun v => v.accelerate _)).onWf _
  simpa [State.takeSpeed, rest] using x

theorem Keeps.tryAccelerate (h : Keeps q a s) (rest : s.rtc.motion ≠ .settling) : Keeps q a s.tryAccelerate := by
  unfold State.tryAccelerate
  split
  · exact h.onRtcAt _ (fun x => by simpa [rest] using x)
  · exact h.accelerate rest

theorem Keeps.beginShuttle (h : Keeps q a s) (rest : s.rtc.motion ≠ .settling) (t : Loc) : Keeps q a (s.beginShuttle t) :=
  (h.onRtcAt _ (fun x => by simpa [rest] using x)).onSv _ Sv.Sound.suspend

theorem Keeps.startMotion (h : Keeps q a s) (rest : s.rtc.motion ≠ .settling) : Keeps q a s.startMotion := by
  unfold State.startMotion
  split
  · split
    · exact h.beginShuttle rest _
    · exact h.tryAccelerate rest
  · exact h.beginShuttle rest _
  · exact h.beginShuttle rest _
  · exact h.tryAccelerate rest
  · exact h.onRtcAt _ (fun x => by simpa [rest] using x)
  · exact h.onRtcAt _ (fun x => by simpa [rest] using x)

theorem Keeps.setGoal (h : Keeps q a s) (g : Goal) : Keeps q a (s.setGoal g) := by
  have asked : Keeps q a (s.onRtc (fun r => { r with goal := g })) := h.onRtc _ (fun _ => by simp)
  have withdrawn (t : State) (k : Keeps q a t) (g : Goal) : Keeps q a (t.onRtc (fun r => { r with goal := g })) := k.onRtc _ (fun _ => by simp)
  unfold State.setGoal
  split
  · exact h
  · dsimp only
    split
    · next e => exact asked.startMotion (by rw [e]; decide)
    · exact Keeps.ite (fun _ => withdrawn _ asked _) (fun _ => asked)
    · exact asked
    · next e => exact asked.decelerate (by rw [e]; decide)
    · next e =>
      split
      · split
        · exact asked
        · exact withdrawn _ asked _
      · exact asked.decelerate (by rw [e]; decide)
    · next e =>
      split
      · exact asked
      · exact asked.decelerate (by rw [e]; decide)

theorem Keeps.resumeGoal (h : Keeps q a s) (g : Goal) : Keeps q a (s.resumeGoal g) := by
  have asked : Keeps q a (s.onRtc (fun r => { r with goal := g })) := h.onRtc _ (fun _ => by simp)
  unfold State.resumeGoal
  split
  · next moving =>
    refine asked.decelerate ?_
    simp only [Bool.and_eq_true, Bool.or_eq_true, beq_iff_eq] at moving
    rcases moving.2 with e | e <;> simp [e]
  · exact h.setGoal g

theorem Keeps.askWrapTurn (h : Keeps q a s) (w : Nat) : Keeps q a (s.askWrapTurn w) := by
  unfold State.askWrapTurn
  split
  · exact h.setGoal _
  · exact h.setGoal _

theorem Keeps.rest (h : Keeps q a s) (x : Nat) : Keeps q a (s.rest x).1 := by
  have rested : Keeps q a ((s.onRtc (fun r => { r with
      motion := .settling, travel := none, place := some x, settleTimer := some { elapsed := 0, period := Config.settleMs } })).onSv Sv.off) :=
    (h.onRtcAt _ (fun _ => by simp)).onSv _ Sv.Sound.off
  have gone := rested.onRtc (fun r => { r with goal := .none }) (fun _ => by simp)
  unfold State.rest
  dsimp only
  split
  · next w _ =>
    split
    · exact rested.onRtc (fun r => { r with stepTo := some w }) (fun _ => by simp)
    · exact gone
  · exact gone
  · exact gone
  · exact rested

theorem Keeps.approach (h : Keeps q a s) (moving : s.rtc.motion ≠ .settling) : Keeps q a s.approach := by
  unfold State.approach
  exact (h.onRtc _ (fun _ => by simp)).decelerate moving

theorem Keeps.settled (h : Keeps q a s) : Keeps q a s.settled := by
  unfold State.settled
  exact (h.onRtcAt _ (fun _ => by simp)).startMotion (by simp)

theorem Keeps.stepped (h : Keeps q a s) (w : Nat) : Keeps q a (s.stepped w) := by
  have stepped : Keeps q a (s.onRtc (fun r => { r with stepTo := none, headWrap := some w })) := h.onRtc _ (fun _ => by simp)
  unfold State.stepped
  split
  · exact h.onRtc _ (fun _ => by simp)
  · dsimp only
    split
    · next e => exact stepped.startMotion (by simp only [beq_iff_eq] at e; rw [e]; decide)
    · exact stepped

theorem Keeps.streamingReached (h : Keeps q a s) (moving : s.rtc.motion ≠ .settling) : Keeps q a s.streamingReached := by
  unfold State.streamingReached
  exact (h.onRtcAt _ (fun x => by simpa [moving] using x)).onSv _ Sv.Sound.streaming

theorem Keeps.turnIfDue (h : Keeps q a s) (word : Nat) : Keeps q a (s.turnIfDue word) := by
  unfold State.turnIfDue
  split
  · split
    · next e => exact h.decelerate (by simp only [Bool.and_eq_true, beq_iff_eq] at e; simp [e.1])
    · exact h
  · exact h

theorem Keeps.setCartridge (h : Keeps q a s) (c : Cartridge) (ph : Option Phase) : Keeps q a (s.setCartridge c ph) := by
  have set := (h.onRtc (fun r => { r with cartridge := c, phase := ph }) (fun _ => by simp)).onSv
    (·.setKind (s.onRtc (fun r => { r with cartridge := c, phase := ph })).rtc.tapeKind) (fun v => v.setKind _)
  unfold State.setCartridge
  exact Keeps.when _ set _ (fun _ => set.onSm _)

theorem Keeps.dropVolume (h : Keeps q a s) : Keeps q a s.dropVolume := h.onPuAt _ (fun _ => by simp)

theorem Keeps.tapeAt (h : Keeps q a s) (word : Nat) : Keeps q a (s.tapeAt word) := h.onRtc _ (fun _ => by simp)

end

/-! ### What a motion goal leaves as it was -/

/-- A motion changes the reels, the Servo Unit, the speed in effect with its event, and the activity of a Write Formatter that was
repositioning. -/
structure Moves (s t : State) : Prop where
  rest : ∃ (rtc : Rtc) (sv : Sv) (sm : Sm) (wf : Wf) (eu : Eu) (out : List Packet),
    t = { s with rtc := rtc, sv := sv, sm := sm, wf := wf, eu := eu, spu := { s.spu with out := out } }
  wf : ∃ stage, t.wf = { s.wf with stage := stage }
    ∧ (stage = s.wf.stage ∨ ∃ l k b, s.wf.stage = .runUp l k b ∧ stage = .runUp l k false)
  cartridge : t.rtc.cartridge = s.rtc.cartridge
  table : t.sm.table = s.sm.table
  mask : t.eu.mask = s.eu.mask
  out : s.spu.out <+: t.spu.out

theorem Moves.refl (s : State) : Moves s s := ⟨⟨_, _, _, _, _, _, rfl⟩, ⟨_, rfl, .inl rfl⟩, rfl, rfl, rfl, List.prefix_refl _⟩

theorem Moves.trans {s t u : State} (h : Moves s t) (k : Moves t u) : Moves s u := by
  obtain ⟨a, b, c, d, e, f, ht⟩ := h.rest
  obtain ⟨a', b', c', d', e', f', hu⟩ := k.rest
  refine ⟨⟨a', b', c', d', e', f', by rw [hu, ht]⟩, ?_, k.cartridge.trans h.cartridge, k.table.trans h.table, k.mask.trans h.mask,
    h.out.trans k.out⟩
  obtain ⟨st, hst, ht'⟩ := h.wf
  obtain ⟨st', hst', hu'⟩ := k.wf
  refine ⟨st', by rw [hst', hst], ?_⟩
  rw [hst] at hu'
  rcases hu' with e | ⟨l, w, b, e, e'⟩
  · rw [e]
    exact ht'
  · rcases ht' with x | ⟨l', w', b', x, x'⟩
    · exact .inr ⟨l, w, b, by rw [← x, ← e], e'⟩
    · refine .inr ⟨l', w', b', x, ?_⟩
      simp only at e
      rw [x'] at e
      simp only [WfStage.runUp.injEq] at e
      rw [e', e.1, e.2.1]

theorem Moves.onRtc (s : State) (f : Rtc → Rtc) (h : (f s.rtc).cartridge = s.rtc.cartridge) : Moves s (s.onRtc f) :=
  ⟨⟨_, _, _, _, _, _, rfl⟩, ⟨_, rfl, .inl rfl⟩, h, rfl, rfl, List.prefix_refl _⟩

theorem Moves.onSv (s : State) (f : Sv → Sv) : Moves s (s.onSv f) :=
  ⟨⟨_, _, _, _, _, _, rfl⟩, ⟨_, rfl, .inl rfl⟩, rfl, rfl, rfl, List.prefix_refl _⟩

theorem Moves.decelerate (s : State) : Moves s s.decelerate := (Moves.onRtc s _ rfl).trans (Moves.onSv _ _)

theorem Moves.applyScheduled (s : State) : Moves s s.applyScheduled := by
  unfold State.applyScheduled
  split
  · exact Moves.refl s
  · next i _ =>
    have raised := Scores.raise (s.onSm (fun m => { m with index := i, scheduled := none })) .speedChanged
    obtain ⟨eu, hm, out, e⟩ := raised.rest
    refine ⟨⟨s.rtc, s.sv, { s.sm with index := i, scheduled := none }, s.wf, eu, out, ?_⟩,
      ⟨s.wf.stage, by rw [raise_wf]; rfl, .inl rfl⟩, by simp, by simp, raised.mask, raised.out⟩
    have hm' : hm = s.hm := by simpa using (congrArg State.hm e).symm
    rw [e, hm']
    rfl

theorem Moves.takeSpeed (s : State) : Moves s s.takeSpeed := Moves.onRtc s _ rfl

/-- A Write Formatter that was repositioning is running up (R62). -/
theorem Moves.runningUp (s : State) : Moves s (s.onWf (fun w => match w.stage with
    | .runUp t k _ => { w with stage := .runUp t k false }
    | _ => w)) := by
  cases e : s.wf.stage with
  | runUp t k b => exact ⟨⟨_, _, _, _, _, _, rfl⟩, ⟨.runUp t k false, by simp [e], .inr ⟨t, k, b, e, rfl⟩⟩, rfl, rfl, rfl, List.prefix_refl _⟩
  | _ => exact ⟨⟨_, _, _, _, _, _, rfl⟩, ⟨s.wf.stage, Eq.trans (by simp [e]) (rfl : s.wf = { s.wf with stage := s.wf.stage }), .inl rfl⟩, rfl, rfl,
    rfl, List.prefix_refl _⟩

theorem Moves.accelerate (s : State) : Moves s s.accelerate := by
  have driven := ((Moves.applyScheduled s).trans (Moves.takeSpeed _)).trans
    (Moves.onRtc _ (fun r => { r with motion := .accelerating, travel := r.headWrap.map travelOf, moved := true }) rfl)
  exact (driven.trans (Moves.onSv _ _)).trans (Moves.runningUp _)

theorem Moves.tryAccelerate (s : State) : Moves s s.tryAccelerate := by
  unfold State.tryAccelerate
  split
  · exact Moves.onRtc s _ rfl
  · exact Moves.accelerate s

theorem Moves.beginShuttle (s : State) (t : Loc) : Moves s (s.beginShuttle t) := (Moves.onRtc s _ rfl).trans (Moves.onSv _ _)

theorem Moves.startMotion (s : State) : Moves s s.startMotion := by
  unfold State.startMotion
  split
  · split
    · exact Moves.beginShuttle s _
    · exact Moves.tryAccelerate s
  · exact Moves.beginShuttle s _
  · exact Moves.beginShuttle s _
  · exact Moves.tryAccelerate s
  · exact Moves.onRtc s _ rfl
  · exact Moves.onRtc s _ rfl

theorem Moves.setGoal (s : State) (g : Goal) : Moves s (s.setGoal g) := by
  have asked (t : State) (g : Goal) : Moves t (t.onRtc (fun r => { r with goal := g })) := Moves.onRtc t _ rfl
  unfold State.setGoal
  split
  · exact Moves.refl s
  · dsimp only
    split
    · exact (asked s g).trans (Moves.startMotion _)
    · split
      · exact (asked s g).trans (asked _ _)
      · exact asked s g
    · exact asked s g
    · exact (asked s g).trans (Moves.decelerate _)
    · split
      · split
        · exact asked s _
        · exact (asked s g).trans (asked _ _)
      · exact (asked s g).trans (Moves.decelerate _)
    · split
      · exact asked s g
      · exact (asked s g).trans (Moves.decelerate _)

theorem Moves.resumeGoal (s : State) (g : Goal) : Moves s (s.resumeGoal g) := by
  unfold State.resumeGoal
  split
  · exact (Moves.onRtc s _ rfl).trans (Moves.decelerate _)
  · exact Moves.setGoal s g

theorem Moves.askWrapTurn (s : State) (w : Nat) : Moves s (s.askWrapTurn w) := by
  unfold State.askWrapTurn
  split
  · exact Moves.setGoal s _
  · exact Moves.setGoal s _

@[simp] theorem setGoal_cu (s : State) (g : Goal) : (s.setGoal g).cu = s.cu := by
  obtain ⟨_, _, _, _, _, _, e⟩ := (Moves.setGoal s g).rest
  rw [e]
@[simp] theorem setGoal_rc (s : State) (g : Goal) : (s.setGoal g).rc = s.rc := by
  obtain ⟨_, _, _, _, _, _, e⟩ := (Moves.setGoal s g).rest
  rw [e]
@[simp] theorem setGoal_rx (s : State) (g : Goal) : (s.setGoal g).rx = s.rx := by
  obtain ⟨_, _, _, _, _, _, e⟩ := (Moves.setGoal s g).rest
  rw [e]
@[simp] theorem setGoal_dbm (s : State) (g : Goal) : (s.setGoal g).dbm = s.dbm := by
  obtain ⟨_, _, _, _, _, _, e⟩ := (Moves.setGoal s g).rest
  rw [e]
@[simp] theorem setGoal_pu (s : State) (g : Goal) : (s.setGoal g).pu = s.pu := by
  obtain ⟨_, _, _, _, _, _, e⟩ := (Moves.setGoal s g).rest
  rw [e]
@[simp] theorem setGoal_hm (s : State) (g : Goal) : (s.setGoal g).hm = s.hm := by
  obtain ⟨_, _, _, _, _, _, e⟩ := (Moves.setGoal s g).rest
  rw [e]
@[simp] theorem setGoal_sensors (s : State) (g : Goal) : (s.setGoal g).sensors = s.sensors := by
  obtain ⟨_, _, _, _, _, _, e⟩ := (Moves.setGoal s g).rest
  rw [e]
@[simp] theorem setGoal_tape (s : State) (g : Goal) : (s.setGoal g).tape = s.tape := by
  obtain ⟨_, _, _, _, _, _, e⟩ := (Moves.setGoal s g).rest
  rw [e]
@[simp] theorem setGoal_free (s : State) (g : Goal) : (s.setGoal g).free = s.free := by
  obtain ⟨_, _, _, _, _, _, e⟩ := (Moves.setGoal s g).rest
  rw [e]
@[simp] theorem setGoal_pending (s : State) (g : Goal) : (s.setGoal g).pending = s.pending := by
  obtain ⟨_, _, _, _, _, _, e⟩ := (Moves.setGoal s g).rest
  rw [e]
@[simp] theorem setGoal_credits (s : State) (g : Goal) : (s.setGoal g).spu.credits = s.spu.credits := by
  obtain ⟨_, _, _, _, _, _, e⟩ := (Moves.setGoal s g).rest
  rw [e]
@[simp] theorem setGoal_readCredits (s : State) (g : Goal) : (s.setGoal g).spu.readCredits = s.spu.readCredits := by
  obtain ⟨_, _, _, _, _, _, e⟩ := (Moves.setGoal s g).rest
  rw [e]
@[simp] theorem setGoal_linkErrors (s : State) (g : Goal) : (s.setGoal g).spu.linkErrors = s.spu.linkErrors := by
  obtain ⟨_, _, _, _, _, _, e⟩ := (Moves.setGoal s g).rest
  rw [e]
@[simp] theorem resumeGoal_cu (s : State) (g : Goal) : (s.resumeGoal g).cu = s.cu := by
  obtain ⟨_, _, _, _, _, _, e⟩ := (Moves.resumeGoal s g).rest
  rw [e]
@[simp] theorem resumeGoal_rc (s : State) (g : Goal) : (s.resumeGoal g).rc = s.rc := by
  obtain ⟨_, _, _, _, _, _, e⟩ := (Moves.resumeGoal s g).rest
  rw [e]
@[simp] theorem resumeGoal_rx (s : State) (g : Goal) : (s.resumeGoal g).rx = s.rx := by
  obtain ⟨_, _, _, _, _, _, e⟩ := (Moves.resumeGoal s g).rest
  rw [e]
@[simp] theorem resumeGoal_dbm (s : State) (g : Goal) : (s.resumeGoal g).dbm = s.dbm := by
  obtain ⟨_, _, _, _, _, _, e⟩ := (Moves.resumeGoal s g).rest
  rw [e]
@[simp] theorem resumeGoal_rdr (s : State) (g : Goal) : (s.resumeGoal g).rdr = s.rdr := by
  obtain ⟨_, _, _, _, _, _, e⟩ := (Moves.resumeGoal s g).rest
  rw [e]
@[simp] theorem resumeGoal_pu (s : State) (g : Goal) : (s.resumeGoal g).pu = s.pu := by
  obtain ⟨_, _, _, _, _, _, e⟩ := (Moves.resumeGoal s g).rest
  rw [e]
@[simp] theorem resumeGoal_hm (s : State) (g : Goal) : (s.resumeGoal g).hm = s.hm := by
  obtain ⟨_, _, _, _, _, _, e⟩ := (Moves.resumeGoal s g).rest
  rw [e]
@[simp] theorem resumeGoal_sensors (s : State) (g : Goal) : (s.resumeGoal g).sensors = s.sensors := by
  obtain ⟨_, _, _, _, _, _, e⟩ := (Moves.resumeGoal s g).rest
  rw [e]
@[simp] theorem resumeGoal_tape (s : State) (g : Goal) : (s.resumeGoal g).tape = s.tape := by
  obtain ⟨_, _, _, _, _, _, e⟩ := (Moves.resumeGoal s g).rest
  rw [e]
@[simp] theorem resumeGoal_free (s : State) (g : Goal) : (s.resumeGoal g).free = s.free := by
  obtain ⟨_, _, _, _, _, _, e⟩ := (Moves.resumeGoal s g).rest
  rw [e]
@[simp] theorem resumeGoal_pending (s : State) (g : Goal) : (s.resumeGoal g).pending = s.pending := by
  obtain ⟨_, _, _, _, _, _, e⟩ := (Moves.resumeGoal s g).rest
  rw [e]
@[simp] theorem resumeGoal_credits (s : State) (g : Goal) : (s.resumeGoal g).spu.credits = s.spu.credits := by
  obtain ⟨_, _, _, _, _, _, e⟩ := (Moves.resumeGoal s g).rest
  rw [e]
@[simp] theorem resumeGoal_readCredits (s : State) (g : Goal) : (s.resumeGoal g).spu.readCredits = s.spu.readCredits := by
  obtain ⟨_, _, _, _, _, _, e⟩ := (Moves.resumeGoal s g).rest
  rw [e]
@[simp] theorem resumeGoal_linkErrors (s : State) (g : Goal) : (s.resumeGoal g).spu.linkErrors = s.spu.linkErrors := by
  obtain ⟨_, _, _, _, _, _, e⟩ := (Moves.resumeGoal s g).rest
  rw [e]
@[simp] theorem askWrapTurn_cu (s : State) (w : Nat) : (s.askWrapTurn w).cu = s.cu := by
  obtain ⟨_, _, _, _, _, _, e⟩ := (Moves.askWrapTurn s w).rest
  rw [e]
@[simp] theorem askWrapTurn_rc (s : State) (w : Nat) : (s.askWrapTurn w).rc = s.rc := by
  obtain ⟨_, _, _, _, _, _, e⟩ := (Moves.askWrapTurn s w).rest
  rw [e]
@[simp] theorem askWrapTurn_rx (s : State) (w : Nat) : (s.askWrapTurn w).rx = s.rx := by
  obtain ⟨_, _, _, _, _, _, e⟩ := (Moves.askWrapTurn s w).rest
  rw [e]
@[simp] theorem askWrapTurn_dbm (s : State) (w : Nat) : (s.askWrapTurn w).dbm = s.dbm := by
  obtain ⟨_, _, _, _, _, _, e⟩ := (Moves.askWrapTurn s w).rest
  rw [e]
@[simp] theorem askWrapTurn_rdr (s : State) (w : Nat) : (s.askWrapTurn w).rdr = s.rdr := by
  obtain ⟨_, _, _, _, _, _, e⟩ := (Moves.askWrapTurn s w).rest
  rw [e]
@[simp] theorem askWrapTurn_pu (s : State) (w : Nat) : (s.askWrapTurn w).pu = s.pu := by
  obtain ⟨_, _, _, _, _, _, e⟩ := (Moves.askWrapTurn s w).rest
  rw [e]
@[simp] theorem askWrapTurn_hm (s : State) (w : Nat) : (s.askWrapTurn w).hm = s.hm := by
  obtain ⟨_, _, _, _, _, _, e⟩ := (Moves.askWrapTurn s w).rest
  rw [e]
@[simp] theorem askWrapTurn_sensors (s : State) (w : Nat) : (s.askWrapTurn w).sensors = s.sensors := by
  obtain ⟨_, _, _, _, _, _, e⟩ := (Moves.askWrapTurn s w).rest
  rw [e]
@[simp] theorem askWrapTurn_tape (s : State) (w : Nat) : (s.askWrapTurn w).tape = s.tape := by
  obtain ⟨_, _, _, _, _, _, e⟩ := (Moves.askWrapTurn s w).rest
  rw [e]
@[simp] theorem askWrapTurn_free (s : State) (w : Nat) : (s.askWrapTurn w).free = s.free := by
  obtain ⟨_, _, _, _, _, _, e⟩ := (Moves.askWrapTurn s w).rest
  rw [e]
@[simp] theorem askWrapTurn_pending (s : State) (w : Nat) : (s.askWrapTurn w).pending = s.pending := by
  obtain ⟨_, _, _, _, _, _, e⟩ := (Moves.askWrapTurn s w).rest
  rw [e]
@[simp] theorem askWrapTurn_credits (s : State) (w : Nat) : (s.askWrapTurn w).spu.credits = s.spu.credits := by
  obtain ⟨_, _, _, _, _, _, e⟩ := (Moves.askWrapTurn s w).rest
  rw [e]
@[simp] theorem askWrapTurn_readCredits (s : State) (w : Nat) : (s.askWrapTurn w).spu.readCredits = s.spu.readCredits := by
  obtain ⟨_, _, _, _, _, _, e⟩ := (Moves.askWrapTurn s w).rest
  rw [e]
@[simp] theorem askWrapTurn_linkErrors (s : State) (w : Nat) : (s.askWrapTurn w).spu.linkErrors = s.spu.linkErrors := by
  obtain ⟨_, _, _, _, _, _, e⟩ := (Moves.askWrapTurn s w).rest
  rw [e]

end Sys2Proof.Machine
end

section
/-!
SUPPORT. What the write side of the dataset buffer keeps (R5 to R10, R17, R21 to R33).
-/
namespace Sys2Proof.Machine
open Sys2Proof.Laws

/-! ### Slots that are FAILED -/

theorem Dbm.holdsFailed_iff (d : Dbm) : d.holdsFailed ↔ SlotState.failed ∈ d.slots.map Slot.state := by
  simp [Dbm.holdsFailed]

theorem Dbm.holdsFailed_of_subset {d e : Dbm} (h : ∀ x ∈ e.slots, x ∈ d.slots) : e.holdsFailed → d.holdsFailed :=
  fun ⟨x, hx, f⟩ => ⟨x, h x hx, f⟩

theorem Dbm.holdsFailed_congr {d e : Dbm} (h : e.slots.map Slot.state = d.slots.map Slot.state) : e.holdsFailed → d.holdsFailed := by
  simp [Dbm.holdsFailed_iff, h]

/-- A slot changed into one that is not FAILED. -/
theorem Dbm.holdsFailed_setSlot {d : Dbm} {i : Nat} {f : Slot → Slot} (h : ∀ x, (f x).state = .failed → x.state = .failed) :
    (d.setSlot i f).holdsFailed → d.holdsFailed := by
  rintro ⟨x, hx, failed⟩
  obtain ⟨k, hk, rfl⟩ := List.getElem_of_mem hx
  simp only [Dbm.setSlot, List.getElem_modify] at failed
  have hk' : k < d.slots.length := by simpa [Dbm.setSlot] using hk
  refine ⟨d.slots[k], List.getElem_mem hk', ?_⟩
  split at failed
  · exact h _ failed
  · exact failed

/-- The state of no slot and no record of a command is in what a scan or the queue holds. -/
theorem executing_congr {s t : State} (h : t.cu = s.cu) : t.executing = s.executing := by simp [State.executing, h]

theorem mayEnd_congr {s t : State} (cu : t.cu = s.cu) (scan : t.pu.scan = s.pu.scan) : s.mayEnd → t.mayEnd := by
  simp [State.mayEnd, Pu.locates, cu, scan]

section
variable {q : Bool} {a s : State}

theorem Keeps.setSlot (h : Keeps q a s) (i : Nat) (f : Slot → Slot) (keep : ∀ x, (f x).state = x.state := by exact fun _ => rfl) :
    Keeps q a (s.onDbm (·.setSlot i f)) :=
  h.onDbm _ id (Nat.le_refl _) (fun r => r.setSlot i f keep) (fun _ => Dbm.holdsFailed_setSlot (fun x e => by rwa [keep] at e))

theorem Keeps.dropNewest (h : Keeps q a s) : Keeps q a (s.onDbm Dbm.dropNewest) :=
  h.onDbm _ id (Nat.le_refl _) (fun r => r.dropNewest) (fun _ => Dbm.holdsFailed_of_subset (fun _ hx => List.dropLast_subset _ hx))

theorem freeOldest_frame (d : Dbm) : d.freeOldest.dram = d.dram ∧ d.freeOldest.staging = d.staging ∧ d.freeOldest.direction = d.direction := by
  unfold Dbm.freeOldest
  split <;> exact ⟨rfl, rfl, rfl⟩

theorem Keeps.freeOldest (h : Keeps q a s) : Keeps q a (s.onDbm Dbm.freeOldest) := by
  obtain ⟨dram, staging, _⟩ := freeOldest_frame s.dbm
  refine h.onDbm _ (by simp [dram]) (by simp [staging]) (fun r => r.freeOldest) (fun _ => Dbm.holdsFailed_of_subset (fun x hx => ?_))
  rw [Dbm.freeOldest_slots] at hx
  exact List.mem_of_mem_tail hx

theorem Keeps.discardAll (h : Keeps q a s) : Keeps q a (s.onDbm Dbm.discardAll) :=
  h.onDbm _ id (Nat.le_refl _) (fun _ => .discardAll _) (fun _ => by simp [Dbm.holdsFailed, Dbm.discardAll])

theorem Keeps.onDram (h : Keeps q a s) (f : Memory → Memory) (wf : s.dbm.dram.wf = true → (f s.dbm.dram).wf = true) :
    Keeps q a (s.onDbm (·.onDram f)) := h.onDbm _ wf (Nat.le_refl _) id (fun _ => id)

theorem Keeps.setSealTimer (h : Keeps q a s) (t : Option Timer) : Keeps q a (s.onDbm (fun d => { d with sealTimer := t })) :=
  h.onDbm _ id (Nat.le_refl _) id (fun _ => id)

theorem Keeps.emptyStaging (h : Keeps q a s) : Keeps q a (s.onDbm (fun d => { d with staging := [] })) :=
  h.onDbm _ id (by simp) id (fun _ => id)

/-! ### The FILLING slot -/

theorem Keeps.onFilling (h : Keeps q a s) (f : Slot → Slot) (keep : ∀ x, (f x).state = x.state := by exact fun _ => rfl) :
    Keeps q a (s.onFilling f) := by
  unfold State.onFilling
  split
  · exact h.setSlot _ f keep
  · exact h

theorem Keeps.openFilling (h : Keeps q a s) (direction : s.dbm.direction = .write) (none_ : s.dbm.filling = none) (room : 0 < s.dbm.free) :
    Keeps q a s.openFilling := by
  have opened {t : State} (k : Keeps q a t) (e : t.dbm = s.dbm) {x : Slot} (filling : x.state = .filling) :
      Keeps q a ((t.onDbm (·.opened x)).onRc Rc.emptyHistory) := by
    refine (k.onDbm _ id (Nat.le_refl _) (fun r => ?_) (fun _ => ?_)).onRc _
    · rw [e] at r ⊢
      exact r.openedFilling direction none_ room filling
    · rintro ⟨y, hy, failed⟩
      rcases List.mem_append.mp hy with hy | hy
      · exact ⟨y, hy, failed⟩
      · simp only [List.mem_singleton] at hy
        simp [hy, filling] at failed
  unfold State.openFilling
  dsimp only
  unfold State.when
  split
  · exact opened ((h.onPu _ (fun _ => by rfl)).nextFree) rfl rfl
  · exact opened h rfl rfl

/-- The FILLING slot had: the one there is, or one opened now (R5, R22). -/
theorem ensureFilling_cases {s t : State} (e : s.ensureFilling = some t) : s.dbm.direction = .write
    ∧ ((t = s ∧ s.dbm.filling.isSome = true) ∨ (t = s.openFilling ∧ s.dbm.filling = none ∧ 0 < s.dbm.free)) := by
  unfold State.ensureFilling at e
  split at e
  · simp at e
  · next dir =>
    refine ⟨by simpa using dir, ?_⟩
    split at e
    · next f => exact .inl ⟨by simpa using e.symm, f⟩
    · next f =>
      split at e
      · next room => exact .inr ⟨by simpa using e.symm, by simpa using f, room⟩
      · simp at e

theorem Keeps.ensureFilling (h : Keeps q a s) {t : State} (e : s.ensureFilling = some t) : Keeps q a t := by
  obtain ⟨dir, ⟨rfl, _⟩ | ⟨rfl, none_, room⟩⟩ := ensureFilling_cases e
  · exact h
  · exact h.openFilling dir none_ room

theorem Keeps.startSealTimer (h : Keeps q a s) : Keeps q a s.startSealTimer := h.setSealTimer _

theorem Keeps.ensureSealTimer (h : Keeps q a s) : Keeps q a s.ensureSealTimer := Keeps.ite (fun _ => h) (fun _ => h.startSealTimer)

/-- The FILLING slot SEALED, its DRAM written. -/
theorem Keeps.sealFilling (h : Keeps q a s) {i : Nat} {x : Slot} (fill : s.dbm.filling = some (i, x)) (m : Memory)
    (wf : s.dbm.dram.wf = true → m.wf = true) :
    Keeps q a (s.onDbm (fun d => { (d.setSlot i (fun y => { y with state := .sealed })) with dram := m, sealTimer := none })) :=
  h.onDbm _ wf (Nat.le_refl _) (fun r => (r.sealed fill).congr rfl rfl rfl)
    (fun _ => Dbm.holdsFailed_setSlot (i := i) (f := fun y => { y with state := .sealed }) (by simp))

theorem Keeps.sealSlot (h : Keeps q a s) : Keeps q a s.sealSlot := by
  unfold State.sealSlot
  split
  · exact h
  · next i x fill =>
    split
    · exact h.dropNewest.setSealTimer none
    · exact h.sealFilling fill _ (fun w => wf_clear _ _ _ (wf_writeBytes _ _ _ w))

/-! ### Tokens, segments and records -/

theorem Keeps.placeBytes (h : Keeps q a s) (stored host : List Byte) : Keeps q a (s.placeBytes stored host) := by
  unfold State.placeBytes
  split
  · exact h
  · next i x _ => exact ((h.setSlot i _).onDram _ (wf_writeBytes _ _ _)).onRc _

theorem Keeps.putEntry (h : Keeps q a s) (e : IndexEntry) : Keeps q a (s.putEntry e) := by
  unfold State.putEntry
  split
  · exact h
  · next i x _ =>
    have put := (((h.setSlot i (fun y =>
        { y with entries := some (y.entries.getD 0 + 1), objects := y.objects + (if e.kind.completes then 1 else 0),
                 filemarks := y.filemarks + (if e.kind == .filemark then 1 else 0) })).onDram
      (·.writeBytes (s.dbm.base i + entryOffset (x.entries.getD 0)) e.bytes) (wf_writeBytes _ _ _)).onRc
      (fun r => { r with resetOwed := false })).ensureSealTimer
    exact Keeps.ite (fun _ => put.onPu _ (fun _ => by rfl)) (fun _ => put)

theorem Keeps.sealAtLimit (h : Keeps q a s) : Keeps q a s.sealAtLimit := by
  unfold State.sealAtLimit
  split
  · exact Keeps.ite (fun _ => h.sealSlot) (fun _ => h)
  · exact h

theorem Keeps.flushRun (h : Keeps q a s) : Keeps q a s.flushRun.1 := by
  unfold State.flushRun
  dsimp only
  split
  · exact h
  · split
    · exact h
    · split
      · exact (h.placeBytes (literalToken s.rc.run) s.rc.run).onRc (fun r => { r with run := [] })
      · exact h

theorem Keeps.placeRunPart (h : Keeps q a s) : Keeps q a s.placeRunPart := by
  unfold State.placeRunPart
  split
  · exact h
  · exact (Keeps.ite (fun _ => h) (fun _ => h.placeBytes _ _)).onRc _

theorem Keeps.closeCut (h : Keeps q a s) : Keeps q a s.closeCut := by
  unfold State.closeCut
  split
  · exact Keeps.ite (fun _ => h.onRc _) (fun _ => (h.putEntry _).onRc _)
  · exact h.onRc _

theorem Keeps.cutSegment (h : Keeps q a s) : Keeps q a s.cutSegment := h.placeRunPart.closeCut.sealSlot

theorem Keeps.sealForCause (h : Keeps q a s) : Keeps q a s.sealForCause := by
  unfold State.sealForCause
  exact Keeps.ite (fun _ => h) (fun _ => Keeps.ite (fun _ => h.cutSegment) (fun _ => h.sealSlot))

theorem Keeps.openSegment (h : Keeps q a s) : Keeps q a s.openSegment := by
  unfold State.openSegment
  split
  · exact h
  · split
    · exact h
    · exact h.onRc _

theorem Keeps.encodeOne (h : Keeps q a s) : Keeps q a s.encodeOne := by
  have k := h.openSegment
  unfold State.encodeOne
  dsimp only
  split
  · split
    · split
      · have taken := k.onRc (fun r => ({ r with run := r.run ++ r.lookahead.take 1 } : Rc).encoded 1)
        exact Keeps.ite (fun _ => taken) (fun _ => Keeps.ite (fun _ => taken.flushRun) (fun _ => taken.flushRun.cutSegment))
      · split
        · exact k.flushRun.cutSegment
        · split
          · exact Keeps.ite (fun _ => (k.flushRun.placeBytes _ _).onRc _) (fun _ => k.flushRun.cutSegment)
          · exact k.flushRun
    · exact Keeps.ite (fun _ => k.cutSegment) (fun _ => (k.placeBytes _ _).onRc _)
  · exact k

theorem Keeps.recordPlaced (h : Keeps q a s) : Keeps q a s.recordPlaced := by
  have counted := h.onCu (fun c => { c with count := c.count + 1 }) (fun _ => by simp)
  unfold State.recordPlaced
  dsimp only
  split
  · next n e =>
    have wrec {t : State} (cu : t.cu = (s.onCu (fun c => { c with count := c.count + 1 })).cu) : t.mayEnd :=
      mayEnd_of_executing (fun _ _ => by rw [executing_congr cu, e]; simp)
    split
    · split
      · exact counted.complete _ _ (fun _ => wrec rfl)
      · exact (counted.emptyStaging.raise _).complete _ _ (fun _ => wrec (by simp))
    · exact counted
  · exact counted

theorem Keeps.rawFallback (h : Keeps q a s) : Keeps q a s.rawFallback := by
  unfold State.rawFallback
  split
  · split
    · exact ((h.setSlot _ _).onDram _ (wf_writeBytes _ _ _)).onRc _
    · exact h
  · exact h

theorem Keeps.closeRecord (h : Keeps q a s) : Keeps q a s.closeRecord := by
  unfold State.closeRecord
  dsimp only
  split
  · exact h.flushRun.cutSegment
  · split
    · exact ((h.flushRun.rawFallback.putEntry _).onRc _).sealAtLimit.recordPlaced
    · exact h.flushRun.rawFallback.onRc _

theorem Keeps.rcStep (h : Keeps q a s) {t : State} (e : s.rcStep = some t) : Keeps q a t := by
  unfold State.rcStep at e
  split at e
  · simp at e
  · split at e
    · split at e
      · obtain rfl : s.closeRecord = t := by simpa using e
        exact h.closeRecord
      · simp at e
    · split at e
      · obtain ⟨u, hu, rfl⟩ := Option.map_eq_some_iff.mp e
        exact (h.ensureFilling hu).encodeOne
      · simp at e

theorem Keeps.rcRun (n : Nat) (h : Keeps q a s) : Keeps q a (State.rcRun n s) := by
  induction n generalizing s with
  | zero => exact h
  | succ n ih =>
    unfold State.rcRun
    split
    · exact h
    · next e => exact ih (h.rcStep e)

theorem Keeps.putFilemark (h : Keeps q a s) : Keeps q a s.putFilemark := by
  unfold State.putFilemark
  exact ((((h.onRc _).putEntry _).onRc _).onCu _ (fun _ => by simp)).sealAtLimit

theorem Keeps.runFilemarks (n : Nat) (h : Keeps q a s) : Keeps q a (State.runFilemarks n s) := by
  induction n generalizing s with
  | zero => exact h
  | succ n ih =>
    unfold State.runFilemarks
    split
    · next e =>
      split
      · exact h.complete _ _ (fun _ => mayEnd_of_command e (by simp))
      · split
        · exact h
        · next hu =>
          have k := h.ensureFilling hu
          split
          · split
            · exact ih k.putFilemark
            · exact ih k.sealSlot
          · exact k
    · exact h

/-! ### Credits, places, the cut-back (R8, R17, R22) -/

theorem Keeps.grantCredits (h : Keeps q a s) : Keeps q a s.grantCredits := by
  unfold State.grantCredits
  refine Keeps.ite (fun _ => (h.onSpu _ ?_).send _) (fun _ => h)
  rintro ⟨hc, hr, hl⟩
  refine ⟨?_, hr, hl⟩
  simp only [onSpu_spu, onSpu_dbm, Config.stagingPlaces]
  omega

theorem Keeps.grantOnRise (h : Keeps q a s) (was : Nat) : Keeps q a (s.grantOnRise was) := Keeps.ite (fun _ => h.grantCredits) (fun _ => h)

theorem Keeps.sealNow (h : Keeps q a s) : Keeps q a s.sealNow := h.sealForCause.grantOnRise _

theorem Keeps.cutBack (h : Keeps q a s) : Keeps q a s.cutBack := by
  have opened : Keeps q a (match s.rc.segment.map Segment.start with
      | some p => s.onFilling (fun y => { y with payload := some p })
      | none => s) := by
    split
    · exact h.onFilling _
    · exact h
  have emptied := (opened.onRc (fun r => { r with record := none, segment := none, run := [], lookahead := [] })).emptyStaging
  unfold State.cutBack
  dsimp only
  split
  · exact Keeps.ite (fun _ => emptied.sealSlot) (fun _ => Keeps.ite (fun _ => emptied.onRc _) (fun _ => emptied))
  · exact emptied

end

/-! ### What sealing and cutting back leave as it was -/

/-- Slots, the DRAM and the Record Compressor change alone. -/
structure Stores (s t : State) : Prop where
  rest : ∃ (dbm : Dbm) (rc : Rc), t = { s with dbm := dbm, rc := rc }
  direction : t.dbm.direction = s.dbm.direction

theorem Stores.refl (s : State) : Stores s s := ⟨⟨_, _, rfl⟩, rfl⟩

theorem Stores.trans {s t u : State} (h : Stores s t) (k : Stores t u) : Stores s u := by
  obtain ⟨d, r, rfl⟩ := h.rest
  obtain ⟨d', r', rfl⟩ := k.rest
  exact ⟨⟨d', r', rfl⟩, k.direction.trans h.direction⟩

theorem Stores.onRc (s : State) (f : Rc → Rc) : Stores s (s.onRc f) := ⟨⟨_, _, rfl⟩, rfl⟩

theorem Stores.onDbm (s : State) (f : Dbm → Dbm) (h : (f s.dbm).direction = s.dbm.direction) : Stores s (s.onDbm f) := ⟨⟨_, _, rfl⟩, h⟩

theorem Stores.sealSlot (s : State) : Stores s s.sealSlot := by
  unfold State.sealSlot
  split
  · exact Stores.refl s
  · split
    · exact Stores.onDbm s _ rfl
    · exact Stores.onDbm s _ rfl

theorem Stores.onFilling (s : State) (f : Slot → Slot) : Stores s (s.onFilling f) := by
  unfold State.onFilling
  split
  · exact Stores.onDbm s _ rfl
  · exact Stores.refl s

theorem Stores.cutBack (s : State) : Stores s s.cutBack := by
  have emptied (t : State) : Stores t
      ((t.onRc (fun r => { r with record := none, segment := none, run := [], lookahead := [] })).onDbm (fun d => { d with staging := [] })) :=
    (Stores.onRc t _).trans (Stores.onDbm _ _ rfl)
  have opened : Stores s (match s.rc.segment.map Segment.start with
      | some p => s.onFilling (fun y => { y with payload := some p })
      | none => s) := by
    split
    · exact Stores.onFilling s _
    · exact Stores.refl s
  have all := opened.trans (emptied _)
  have ite {p : Prop} [Decidable p] {t u v : State} (h : Stores t u) (k : Stores t v) : Stores t (if p then u else v) := by
    split
    · exact h
    · exact k
  unfold State.cutBack
  dsimp only
  split
  · exact ite (all.trans (.sealSlot _)) (ite (all.trans (.onRc _ _)) all)
  · exact all

@[simp] theorem cutBack_cu (s : State) : s.cutBack.cu = s.cu := by
  obtain ⟨_, _, e⟩ := (Stores.cutBack s).rest
  rw [e]
@[simp] theorem cutBack_pu (s : State) : s.cutBack.pu = s.pu := by
  obtain ⟨_, _, e⟩ := (Stores.cutBack s).rest
  rw [e]

section
variable {q : Bool} {a s : State}

theorem writingRecords_executing {s : State} (h : s.writingRecords = true) : ∃ n, s.executing = some (.wrec n) := by
  unfold State.writingRecords at h
  split at h
  · next n e => exact ⟨n, e⟩
  · simp at h

theorem Keeps.protocolEnd (h : Keeps q a s) : Keeps q a s.protocolEnd := by
  unfold State.protocolEnd
  refine Keeps.ite (fun w => (h.raise _).cutBack.complete _ _ (fun _ => ?_)) (fun _ => h.raise _)
  obtain ⟨n, e⟩ := writingRecords_executing w
  exact mayEnd_of_executing (fun _ _ => by rw [executing_congr (cutBack_cu _), e]; simp)

theorem Keeps.takePlace (h : Keeps q a s) (p : Place) : Keeps q a (s.takePlace p) := by
  unfold State.takePlace
  split
  · exact h.protocolEnd
  · have taken (f : Rc → Rc) := ((h.onRc f).onDbm (fun d => { d with staging := d.staging.drop 1 }) id (by simp) id (fun _ => id)).onCu
      (fun c => { c with finals := if p.final then c.finals + 1 else c.finals }) (fun _ => by simp)
    dsimp only
    split
    · exact taken _
    · next hu => exact (Keeps.rcRun _ ((taken _).ensureFilling hu).startSealTimer).grantCredits

/-! ### The write path given up (R10, R55, R56) -/

theorem Keeps.reportIfExecuting (h : Keeps q a s) : Keeps q a s.reportIfExecuting := by
  unfold State.reportIfExecuting
  split
  · next e => exact h.reportDeferred (fun _ => mayEnd_of_command e (by simp))
  · next e => exact h.reportDeferred (fun _ => mayEnd_of_command e (by simp))
  · split
    · next w => exact h.reportDeferred (fun _ => mayEnd_of_progress (by rintro e; simp [e, Progress.waitsForWriting] at w))
    · exact h
  · exact h

theorem Keeps.setDeferred (h : Keeps q a s) (cause : DeferredCause) (first objects : Nat) : Keeps q a (s.setDeferred cause first objects) := by
  unfold State.setDeferred
  exact h.onCu _ (fun _ => by simp)

theorem Keeps.discardWrite (h : Keeps q a s) (cause : DeferredCause) : Keeps q a (s.discardWrite cause).1 := by
  have given {t : State} (k : Keeps q a t) (empty : t.dbm.RingSound → t.dbm.direction = .write → t.dbm.slots = []) (first n : Nat) :
      Keeps q a (((t.when (t.dbm.direction == .write) (·.setDirection .neutral)).setDeferred cause first n).reportIfExecuting) :=
    ((Keeps.when _ k _ fun w => k.setDirection _ fun r => .inl (empty r (by simpa using w))).setDeferred _ _ _).reportIfExecuting
  unfold State.discardWrite
  dsimp only
  split
  · exact given (h.cutBack.discardAll.setSealTimer none) (fun _ _ => rfl) _ _
  · next none_ =>
    refine given (h.cutBack.setSealTimer none) (fun r w => ?_) _ _
    have all := r.onWritePath.1 w
    cases e : s.cutBack.dbm.slots with
    | nil => exact e
    | cons x xs => simp [e, all x (by simp [e])] at none_

end

end Sys2Proof.Machine
end

section
/-!
SUPPORT. What the Write Formatter keeps (R44 to R66).
-/
namespace Sys2Proof.Machine
open Sys2Proof.Laws

section
variable {q : Bool} {a s : State}

/-! ### The Position Unit's records -/

theorem Keeps.testDirectory (h : Keeps q a s) (p : Nat) : Keeps q a (s.testDirectory p) := h.onPu _ (fun _ => by rfl)

theorem Keeps.setEod (h : Keeps q a s) (p : Nat) (e : EodKnown) : Keeps q a (s.setEod p e) := (h.onPu _ (fun _ => by rfl)).testDirectory p

theorem Keeps.proveDataset (h : Keeps q a s) (p dataset first filemarks : Nat) (start : Loc) (done : Bool) :
    Keeps q a (s.proveDataset p dataset first filemarks start done) := (h.onPu _ (fun _ => by rfl)).testDirectory p

theorem Keeps.recordDone (h : Keeps q a s) (x : Slot) (start next : Loc) : Keeps q a (s.recordDone x start next) :=
  ((h.setEod _ _).onPu _ (fun _ => by rfl)).proveDataset _ _ _ _ _ _

theorem Keeps.putEodBack (h : Keeps q a s) (p : Nat) (filemarks : Option Nat) (f : EodKnown → EodKnown) :
    Keeps q a (s.putEodBack p filemarks f) := by
  unfold State.putEodBack
  split
  · exact (Keeps.when _ h _ (fun _ => h.onPu _ (fun _ => by rfl))).setEod _ _
  · exact h

/-! ### The tape that a work is brought to -/

theorem Keeps.stage (h : Keeps q a s) (st : WfStage) : Keeps q a (s.stage st) := h.onWf _

theorem Keeps.handTallies (h : Keeps q a s) : Keeps q a s.handTallies := (h.takeTally _).onWf _

theorem Keeps.resumeAt (h : Keeps q a s) (t : Loc) (work : WfWork) (repositioning trip : Bool) :
    Keeps q a (s.resumeAt t work repositioning trip) :=
  Keeps.ite (fun _ => (h.stage _).setGoal _) (fun _ => (h.stage _).resumeGoal _)

theorem Keeps.wfStop (h : Keeps q a s) : Keeps q a s.wfStop := (h.stage _).setGoal _

theorem Keeps.backhitch (h : Keeps q a s) (counted : Bool) : Keeps q a (s.backhitch counted) := (h.stage _).setGoal _

theorem Keeps.unloadReturn (h : Keeps q a s) : Keeps q a s.unloadReturn := (h.stage _).setGoal _

theorem Keeps.reportMark (h : Keeps q a s) (l : Loc) (onTape : Bool) : Keeps q a (s.reportMark l onTape) := by
  unfold State.reportMark
  dsimp only
  split
  · exact (h.onWf _).setEod _ _
  · exact h.onWf _

theorem Keeps.beginMark (h : Keeps q a s) (kind : MarkKind) (trip : Bool) : Keeps q a (s.beginMark kind trip) := by
  unfold State.beginMark
  dsimp only
  split
  · exact (h.reportMark _ _).wfStop
  · exact Keeps.ite (fun _ => ((h.onWf _).stage _).askWrapTurn _)
      (fun _ => Keeps.ite (fun _ => ((h.onWf _).stage _).setGoal _) (fun _ => (h.onWf _).resumeAt _ _ _ _))

theorem Keeps.volumeFull (h : Keeps q a s) : Keeps q a s.volumeFull := by
  have put (f : Wf → Wf) (p : Nat) (fm : Option Nat) (g : EodKnown → EodKnown) :=
    ((((h.raise .volumeFull).onWf f).discardWrite .volumeOverflow).putEodBack p fm g)
  unfold State.volumeFull
  dsimp only
  exact Keeps.ite (fun _ => (put _ _ _ _).beginMark _ _) (fun _ => ((put _ _ _ _).reportMark _ _).wfStop)

/-- A memory with cells placed one run after another keeps its canonical form. -/
theorem wf_foldl_place {ι : Type} (is : List ι) (base n : ι → Nat) (cs : ι → Cells) (m : Memory) (h : m.wf = true) :
    (is.foldl (fun m i => m.place (base i) (n i) (cs i)) m).wf = true := by
  induction is generalizing m with
  | nil => exact h
  | cons i is ih => exact ih _ (wf_place _ _ _ _ h)

/-- The oldest slot WRITING, the DRAM written. -/
theorem Keeps.writingSlot (h : Keeps q a s) {x : Slot} {xs : List Slot} (hs : s.dbm.slots = x :: xs) (hx : x.state = .sealed) (m : Memory)
    (wf : s.dbm.dram.wf = true → m.wf = true) :
    Keeps q a (s.onDbm (fun d => { (d.setSlot 0 (fun y => { y with state := .writing })) with dram := m })) :=
  h.onDbm _ wf (Nat.le_refl _) (fun r => (r.writing hs hx).congr rfl rfl rfl)
    (fun _ => Dbm.holdsFailed_setSlot (i := 0) (f := fun y => { y with state := .writing }) (by simp))

theorem Keeps.beginSlot (h : Keeps q a s) : Keeps q a s.beginSlot := by
  unfold State.beginSlot
  split
  · next hs =>
    split
    · next hx => exact (h.writingSlot hs hx _ (wf_foldl_place _ _ _ _ _)).onWf _
    · exact h
  · exact h

theorem Keeps.attemptNext (h : Keeps q a s) (l : Loc) (between : Bool) : Keeps q a (s.attemptNext l between) := by
  unfold State.attemptNext
  split
  · exact h.volumeFull
  · exact Keeps.ite (fun _ => h.onWf _) (fun _ => (h.onWf _).askWrapTurn _)

theorem Keeps.attemptFrom (h : Keeps q a s) (l : Loc) (trip : Bool) : Keeps q a (s.attemptFrom l trip) := by
  unfold State.attemptFrom
  split
  · exact h.volumeFull
  · exact (h.resumeAt _ _ _ _).onWf _

theorem Keeps.beginHeader (h : Keeps q a s) (purpose : HeaderFor) (attempt : Nat) : Keeps q a (s.beginHeader purpose attempt) :=
  ((h.onWf _).stage _).setGoal _

theorem Keeps.wfKick (h : Keeps q a s) : Keeps q a s.wfKick := by
  unfold State.wfKick
  exact Keeps.ite (fun _ => Keeps.ite (fun _ => h.beginHeader _ _) (fun _ => h.beginSlot.attemptFrom _ _)) (fun _ => h)

/-! ### Failures and restarts -/

theorem Keeps.assumeWhole (h : Keeps q a s) : Keeps q a s.assumeWhole := h.onPu _ (fun _ => by rfl)

theorem Keeps.headerFails (h : Keeps q a s) (purpose : HeaderFor) : Keeps q a (s.headerFails purpose) := by
  have failed (f : Wf → Wf) := (h.onWf f).raise .writeError
  unfold State.headerFails
  dsimp only
  split
  · exact (failed _).onPu _ (fun _ => by rfl)
  · have stopped := ((failed (fun w => { w with header := none, planned := false, misses := 0 })).assumeWhole.raise .headerFault).wfStop
    split
    · next e => exact stopped.complete _ _ (fun _ => mayEnd_of_command e (by simp))
    · exact stopped
  · exact ((failed _).raise _).beginHeader _ _
  · exact (failed _).unloadReturn

theorem Keeps.hardErrorData (h : Keeps q a s) (header : Bool) : Keeps q a (s.hardErrorData header) := by
  have put (p : Nat) (fm : Option Nat) (g : EodKnown → EodKnown) (f : Wf → Wf) :=
    ((Keeps.when (!header) (h.discardWrite .writeError) (·.raise .writeError) (fun _ => (h.discardWrite _).raise _)).putEodBack p fm g).onWf f
  unfold State.hardErrorData
  dsimp only
  exact Keeps.ite (fun _ => (put _ _ _ _).beginMark _ _) (fun _ => (put _ _ _ _).wfStop)

theorem Keeps.hardError (h : Keeps q a s) : Keeps q a s.hardError := by
  have handed := (h.onWf (fun w => { w with inFlight := none, queue := [] })).handTallies
  unfold State.hardError
  dsimp only
  split
  · split
    · exact (handed.headerFails _).hardErrorData _
    · exact handed.headerFails _
  · exact handed.hardErrorData _

theorem Keeps.headerRestart (h : Keeps q a s) (j : HeaderJob) : Keeps q a (s.headerRestart j) := by
  unfold State.headerRestart
  exact ((h.handTallies.onWf _).raise _).beginHeader _ _

theorem Keeps.restartCause (h : Keeps q a s) (lost : Bool) : Keeps q a (s.restartCause lost) := by
  have dropped := h.onWf (fun w => { w with inFlight := none })
  unfold State.restartCause
  split
  · exact h.hardError
  · dsimp only
    split
    · exact dropped.stage _
    · exact dropped.headerRestart _
    · exact dropped.resumeAt _ _ _ _

theorem Keeps.restartDone (h : Keeps q a s) (next : Loc) : Keeps q a (s.restartDone next) := by
  unfold State.restartDone
  split
  · exact h.headerRestart _
  · exact (((h.handTallies.setSlot 0 _).onWf _).raise _).boundary.attemptNext _ _

theorem Keeps.planNext (h : Keeps q a s) : Keeps q a s.planNext :=
  Keeps.ite (fun _ => h) (fun _ => Keeps.ite (fun _ => h.stage _) (fun _ => Keeps.ite (fun _ => h.restartCause _) (fun _ => h)))

theorem Keeps.failRows (h : Keeps q a s) (failing : List (Nat × Nat)) : Keeps q a (s.failRows failing) := by
  unfold State.failRows
  exact Keeps.ite (fun _ => h.restartCause _) (fun _ => Keeps.ite (fun _ => (h.onWf _).restartCause _) (fun _ => (h.onWf _).planNext))

theorem Keeps.cutOff (h : Keeps q a s) : Keeps q a s.cutOff := by
  unfold State.cutOff
  split
  · exact h.onTape _
  · exact h

theorem Keeps.inhibitCut (h : Keeps q a s) : Keeps q a s.inhibitCut := by
  unfold State.inhibitCut
  split
  · exact h.cutOff.failRows _
  · exact h

theorem Keeps.verify (h : Keeps q a s) (os : Vector RowOutcome 16) : Keeps q a (s.verify os) := by
  unfold State.verify
  split
  · exact (h.onWf _).failRows _
  · exact h

/-! ### Writing at an announced pitch -/

theorem Keeps.traceSet (h : Keeps q a s) (l : Loc) (rows : Vector (Option Nat) 16) : Keeps q a (s.traceSet l rows) := (h.onTape _).nextFree

theorem Keeps.writeSet (h : Keeps q a s) (l : Loc) : Keeps q a (s.writeSet l) := by
  unfold State.writeSet
  exact Keeps.ite
    (fun _ => Keeps.ite (fun _ => ((h.onWf _).traceSet _ _).inhibitCut) (fun _ => (h.onWf _).traceSet _ _))
    (fun _ => Keeps.ite (fun _ => ((h.onWf _).traceSet _ _).inhibitCut) (fun _ => (h.onWf _).traceSet _ _))

theorem Keeps.judgeEarlyWarning (h : Keeps q a s) (l : Loc) : Keeps q a (s.judgeEarlyWarning l) :=
  Keeps.ite (fun _ => (h.onWf _).raise _) (fun _ => h)

theorem Keeps.judgePending (h : Keeps q a s) (l : Loc) : Keeps q a (s.judgePending l) := by
  unfold State.judgePending
  exact Keeps.when _ h _ (fun _ => h.onWf _)

theorem Keeps.beginSpan (h : Keeps q a s) (l : Loc) : Keeps q a (s.beginSpan l) := by
  unfold State.beginSpan
  exact Keeps.ite (fun _ => (h.onWf _).writeSet _)
    (fun _ => Keeps.ite (fun _ => (((h.judgeEarlyWarning _).judgePending _).onWf _).writeSet _) (fun _ => h.attemptNext _ _))

theorem Keeps.spanPitch (h : Keeps q a s) (l : Loc) : Keeps q a (s.spanPitch l) := by
  unfold State.spanPitch
  split
  · exact Keeps.ite (fun _ => h) (fun _ => Keeps.ite (fun _ => h.writeSet _) (fun _ => h.beginSpan _))
  · exact h

theorem Keeps.laySeparator (h : Keeps q a s) (kind : CloseKind) (l : Loc) : Keeps q a (s.laySeparator kind l) := by
  unfold State.laySeparator
  exact (h.onTape _).onWf _

theorem Keeps.restartWritten (h : Keeps q a s) : Keeps q a s.restartWritten := by
  unfold State.restartWritten
  split
  · exact h.restartDone _
  · exact h

theorem Keeps.layMark (h : Keeps q a s) (kind : MarkKind) (start l : Loc) (laid : Nat) : Keeps q a (s.layMark kind start l laid) := by
  unfold State.layMark
  exact (h.onTape _).onWf _

theorem Keeps.beginWork (h : Keeps q a s) (work : WfWork) (l : Loc) : Keeps q a (s.beginWork work l) := by
  have begun := h.onWf (fun w => { w with misses := 0 })
  unfold State.beginWork
  dsimp only
  split
  · exact (begun.onWf _).spanPitch _
  · exact begun.laySeparator _ _
  · exact begun.layMark _ _ _ _

theorem Keeps.wfMiss (h : Keeps q a s) : Keeps q a s.wfMiss := by
  have missed := h.onWf (fun w => { w with misses := w.misses + 1 })
  unfold State.wfMiss
  split
  · split
    · exact Keeps.ite (fun _ => h.wfStop) (fun _ => Keeps.ite (fun _ => missed.hardError) (fun _ => missed.resumeAt _ _ _ _))
    · exact Keeps.ite (fun _ => missed.hardError) (fun _ => missed.resumeAt _ _ _ _)
  · exact h

theorem Keeps.wfPitch (h : Keeps q a s) (l : Loc) : Keeps q a (s.wfPitch l) := by
  unfold State.wfPitch
  split
  · exact Keeps.ite (fun _ => h) (fun _ => Keeps.ite (fun _ => h.beginWork _ _) (fun _ => h.wfMiss))
  · exact h.spanPitch _
  · exact h.laySeparator _ _
  · exact Keeps.when _ h.restartWritten _ (fun _ => h.restartWritten.spanPitch _)
  · exact Keeps.ite (fun _ => h.layMark _ _ _ _) (fun _ => h)
  · exact h

theorem Keeps.wfUnlocked (h : Keeps q a s) (l : Loc) : Keeps q a (s.wfUnlocked l) := by
  unfold State.wfUnlocked
  split
  · exact Keeps.ite (fun _ => h.wfMiss) (fun _ => h)
  · exact h

theorem Keeps.wfLost (h : Keeps q a s) : Keeps q a s.wfLost := by
  have cut := h.cutOff
  unfold State.wfLost
  dsimp only
  split
  · exact Keeps.ite (fun _ => cut) (fun _ => cut.restartCause _)
  · split
    · exact cut.headerRestart _
    · exact cut.restartCause _
    · exact (cut.onWf _).resumeAt _ _ _ _
  · exact (cut.onWf _).resumeAt _ _ _ _
  · exact cut

theorem Keeps.wfTension (h : Keeps q a s) : Keeps q a s.wfTension := h.onWf _

theorem Keeps.wfYield (h : Keeps q a s) : Keeps q a s.wfYield := Keeps.when _ h _ (fun _ => h.cutOff.onWf _)

/-! ### A dataset done, an EOD mark written -/

theorem Keeps.wfBoundary (h : Keeps q a s) : Keeps q a s.wfBoundary := by
  unfold State.wfBoundary
  exact Keeps.ite (fun _ => h.beginSlot.attemptNext _ _)
    (fun _ => Keeps.ite (fun _ => Keeps.ite (fun _ => h.beginMark _ _) (fun _ => h.stage _)) (fun _ => h.backhitch _))

theorem Keeps.dataDone (h : Keeps q a s) (l : Loc) : Keeps q a (s.dataDone l) := by
  unfold State.dataDone
  split
  · exact ((((h.recordDone _ _ _).handTallies.freeOldest).onWf _).grantOnRise _).boundary.wfBoundary
  · exact h.stage _

theorem Keeps.headerDone (h : Keeps q a s) (purpose : HeaderFor) : Keeps q a (s.headerDone purpose) := by
  have done := h.handTallies.onWf (fun w => { w with header := none, planned := false, misses := 0, stage := .idle })
  unfold State.headerDone
  dsimp only
  split
  · have opened := done.onPu (fun u => { u with header := some .opened, volume := if u.volume = .blank then .formatted else u.volume }) (fun _ => by rfl)
    have owed (b : Bool) := Keeps.when b opened (·.onWf (fun w => { w with eodPending := true })) (fun _ => opened.onWf _)
    exact Keeps.ite (fun _ => (owed _).beginMark _ _) (fun _ => Keeps.ite (fun _ => (owed _).beginSlot.attemptFrom _ _)
      (fun _ => Keeps.ite (fun _ => (owed _).backhitch _) (fun _ => (owed _).setGoal _)))
  · have stopped := (done.onPu (fun u => { u with volume := .formatted }) (fun _ => by rfl)).wfStop
    split
    · next e => exact stopped.complete _ _ (fun _ => mayEnd_of_command e (by simp))
    · exact stopped
  · exact (done.onPu _ (fun _ => by rfl)).unloadReturn
  · exact done.unloadReturn

theorem Keeps.separatorWritten (h : Keeps q a s) : Keeps q a s.separatorWritten := by
  unfold State.separatorWritten
  split
  · split
    · exact h.headerDone _
    · exact h.dataDone _
  · exact h

theorem Keeps.markWritten (h : Keeps q a s) : Keeps q a s.markWritten := by
  have reported (l : Loc) := h.reportMark l true
  unfold State.markWritten
  split
  · dsimp only
    split
    · exact Keeps.ite (fun _ => (reported _).stage _) (fun _ => Keeps.ite (fun _ => (reported _).backhitch _) (fun _ => (reported _).wfStop))
    · exact (reported _).wfStop
  · exact h

theorem Keeps.backhitched (h : Keeps q a s) : Keeps q a s.backhitched := by
  unfold State.backhitched
  split
  · exact Keeps.ite (fun _ => ((h.stage _).onWf _).raise _) (fun _ => h.stage _)
  · exact h

end

end Sys2Proof.Machine
end

section
/-!
SUPPORT. What the volume, the read path given up and the cut of a partition keep (R13, R16, R97, R104, R118 to R121, R127).
-/
namespace Sys2Proof.Machine
open Sys2Proof.Laws

/-! ### The read path given up (R13, R97) -/

@[simp] theorem stopReader_cu (s : State) : s.stopReader.cu = s.cu := by
  unfold State.stopReader State.when
  dsimp only
  split <;> split <;> simp

@[simp] theorem stopReader_pu (s : State) : s.stopReader.pu = s.pu := by
  unfold State.stopReader State.when
  dsimp only
  split <;> split <;> simp

@[simp] theorem leaveRead_cu (s : State) : s.leaveRead.cu = s.cu := by
  unfold State.leaveRead State.discardRead
  split <;> simp

@[simp] theorem leaveRead_pu (s : State) : s.leaveRead.pu = s.pu := by
  unfold State.leaveRead State.discardRead
  split <;> simp

/-- The direction is set, and nothing else of the buffer. -/
theorem setDirection_dbm (s : State) (d : BufferDirection) : (s.setDirection d).dbm = { s.dbm with direction := d } := by
  unfold State.setDirection
  split
  · next e => rw [← (beq_iff_eq.mp e)]
  · cases d <;> rfl

/-- A Reader that is stopped is calm. -/
theorem Rdr.stopped_calm (r : Rdr) : r.stopped.calm = true := rfl

/-- The newest slot dropped, or none. -/
theorem stopReader_slots (s : State) : s.stopReader.dbm.slots = s.dbm.slots ∨ s.stopReader.dbm.slots = s.dbm.slots.dropLast := by
  unfold State.stopReader State.when
  dsimp only
  split <;> split <;> simp [Dbm.dropNewest]

/-- What gives the read path up leaves a direction that does not read; a buffer it touched is empty. -/
theorem leaveRead_direction (s : State) : s.leaveRead.dbm.direction = .neutral ∨ s.leaveRead.dbm.direction = .write := by
  unfold State.leaveRead
  split
  · simp [setDirection_dbm]
  · next other =>
    cases e : s.dbm.direction with
    | read => simp [e] at other
    | neutral => exact .inl rfl
    | write => exact .inr rfl

section
variable {q : Bool} {a s : State}

theorem Keeps.learnFilemarks (h : Keeps q a s) (p dataset filemarks : Nat) : Keeps q a (s.learnFilemarks p dataset filemarks) := by
  unfold State.learnFilemarks
  exact Keeps.when _ h _ (fun _ => h.onPu _ (fun _ => by rfl))

theorem Keeps.setPosition (h : Keeps q a s) (object : Nat) (anchor : Option (Nat × Loc)) : Keeps q a (s.setPosition object anchor) := h.onPu _ (fun _ => by rfl)

theorem Keeps.advancePosition (h : Keeps q a s) : Keeps q a s.advancePosition := h.setPosition _ _

theorem Keeps.clearFullMark (h : Keeps q a s) (unknown : Bool) : Keeps q a (s.clearFullMark unknown) := Keeps.when _ h _ (fun _ => h.onWf _)

theorem Keeps.stopReader (h : Keeps q a s) : Keeps q a s.stopReader := by
  have stopped (t : State) (k : Keeps q a t) : Keeps q a (t.onRdr Rdr.stopped) := k.onRdr _ (fun _ _ => rfl)
  have freed := stopped _ (Keeps.when ((s.dbm.slots.getLast?.map (fun x => x.state == .loading)).getD false) h
    (·.onDbm Dbm.dropNewest) (fun _ => h.dropNewest))
  unfold State.stopReader
  exact Keeps.when _ freed _ (fun _ => freed.setGoal _)

theorem Keeps.discardRead (h : Keeps q a s) : Keeps q a s.discardRead :=
  Keeps.ite (fun _ => (h.discardAll.onRx _).stopReader) (fun _ => h)

theorem discardRead_slots (s : State) (read : s.dbm.direction = .read) : s.discardRead.dbm.slots = [] := by
  unfold State.discardRead
  rw [if_pos (by simp [read])]
  rcases stopReader_slots ((s.onDbm Dbm.discardAll).onRx Rx.giveUp) with e | e <;> rw [e] <;> rfl

theorem Keeps.leaveRead (h : Keeps q a s) : Keeps q a s.leaveRead :=
  Keeps.ite (fun read => h.discardRead.setDirection _ (fun _ => .inl (discardRead_slots s (by simpa using read)))) (fun _ => h)

/-- With no read path left the run is empty or is written, so that the direction may be set WRITE. -/
theorem write_or_empty {s t : State} (dbm : t.dbm = s.leaveRead.dbm) (r : t.dbm.RingSound) : t.dbm.slots = [] ∨ t.dbm.direction = .write := by
  rcases leaveRead_direction s with e | e
  · exact .inl (((ringSound_iff _).mp r).2.2.1 (by rw [dbm, e]))
  · exact .inr (by rw [dbm, e])

/-! ### The volume set at load (R120, R127) -/

theorem Keeps.setVolume (h : Keeps q a s) (r : HeaderResult) : Keeps q a (s.setVolume r) := by
  have set (f : Pu → Pu) (none_ : (f s.pu).scan = none) : Keeps q a (s.onPu f) := h.onPuAt f (fun _ => by simp [none_])
  unfold State.setVolume
  dsimp only
  split
  · exact ((set _ rfl).assumeWhole.raise _)
  · exact (set _ rfl).onPu _ (fun _ => by rfl)
  · split
    · exact ((set _ rfl).assumeWhole.raise _)
    · exact (set _ rfl).onPu _ (fun _ => by rfl)

theorem Keeps.loadReady (h : Keeps q a s) : Keeps q a s.loadReady := by
  have ready := (((((h.setGoal .stop).setCartridge .ready none).countLoad.onWf Wf.newLoad).onRdr (fun r => { Rdr.stopped r with headerErrors := 0 })
    (fun _ _ => rfl)).onDbm (fun d => { d with recovered := 0 }) id (Nat.le_refl _) id (fun _ => id))
  unfold State.loadReady
  refine Keeps.when _ ready _ (fun load => ready.complete _ _ (fun _ => mayEnd_of_executing ?_))
  simp only [State.loadExecuting, Bool.and_eq_true, beq_iff_eq] at load
  simp [load.1]

theorem Keeps.headerRead (h : Keeps q a s) (r : HeaderResult) : Keeps q a (s.headerRead r) := (h.setVolume r).loadReady

theorem Keeps.setPartitions (h : Keeps q a s) (ps : List (Nat × Nat)) : Keeps q a (s.setPartitions ps) := by
  unfold State.setPartitions
  exact (h.onPu _ (fun _ => by rfl)).onWf _

/-! ### Writing begins, and the cut at D -/

theorem Keeps.appendHere (h : Keeps q a s) : Keeps q a s.appendHere := by
  unfold State.appendHere
  exact Keeps.ite (fun _ => h) (fun _ => (h.leaveRead.wfYield.onWf _).setDirection _ (write_or_empty (s := s) (by simp)))

theorem Keeps.takeUpWriting (h : Keeps q a s) : Keeps q a s.takeUpWriting := by
  unfold State.takeUpWriting
  split
  · next e => exact (h.onCuAt _ rfl (fun _ => .inr (mayEnd_of_command e (by simp)))).grantCredits
  · next e => exact (Keeps.runFilemarks _ (h.onCuAt _ rfl (fun _ => .inr (mayEnd_of_command e (by simp))))).wfKick
  · exact h

theorem Keeps.cutAtD (h : Keeps q a s) (c : Cut) (fm : Nat) : Keeps q a (s.cutAtD c fm) := by
  unfold State.cutAtD
  exact ((h.onPu _ (fun _ => by rfl)).setEod _ _).wfYield.onWf _

theorem Keeps.eraseMark (h : Keeps q a s) (may : q = true → s.mayEnd) : Keeps q a s.eraseMark := by
  have erasing := h.wfYield.onCuAt (fun c => { c with progress := .erasing }) rfl
    (fun hq => .inr (mayEnd_congr (by simp) (by simp) (may hq)))
  unfold State.eraseMark
  exact Keeps.ite (fun _ => erasing.beginHeader _ _) (fun _ => (erasing.onWf _).beginMark _ _)

@[simp] theorem cutAtD_dbm (s : State) (c : Cut) (fm : Nat) : (s.cutAtD c fm).dbm = s.dbm := by
  simp [State.cutAtD, State.setEod, State.testDirectory]

theorem Keeps.settleFresh (h : Keeps q a s) (c : Cut) : Keeps q a (s.settleFresh c) := by
  have cut := h.leaveRead.cutAtD c c.filemarks
  unfold State.settleFresh
  dsimp only
  split
  · next e => exact cut.eraseMark (fun _ => mayEnd_of_command e (by simp))
  · exact (cut.setDirection _ (write_or_empty (s := s) (by simp))).takeUpWriting

/-- The run is one FILLING slot from now on, and the buffer writes (R16 step 3). -/
theorem Keeps.oneFilling (h : Keeps q a s) (y : Slot) (filling : y.state = .filling) (i : Nat) :
    Keeps q a ((s.onDbm (fun d => { d with slots := [y], drain := d.number i })).setDirection .write) := by
  refine h.trans ⟨?_, ?_, ?_, ?_, ?_, ?_, ?_, fun _ => ?_, fun _ => ⟨?_, ?_, ?_, fun _ => ?_⟩⟩
  case refine_7 => simp [State.PortSound, setDirection_dbm]
  case refine_8 =>
    rw [setDirection_dbm, ringSound_iff]
    exact ⟨number_lt _ _, by simp, by simp, fun _ => by simpa [filling] using WriteRun.open writeRun_nil, by simp⟩
  case refine_9 => simp [Dbm.holdsFailed, setDirection_dbm, filling]
  all_goals simp [setDirection_dbm]

theorem Keeps.convertD (h : Keeps q a s) (c : Cut) (i : Nat) : Keeps q a (s.convertD c i) := by
  unfold State.convertD
  split
  · exact h
  · have given := (h.onRx Rx.giveUp).onRdr Rdr.stopped (fun _ _ => rfl)
    dsimp only
    have one (y : Slot) (filling : y.state = .filling) := (given.oneFilling y filling i).onRc Rc.emptyHistory
    have cut (y : Slot) (filling : y.state = .filling) (b : Bool) (fm : Nat) :=
      (Keeps.when b (one y filling) State.startSealTimer (fun _ => (one y filling).startSealTimer)).cutAtD c fm
    split
    · next e => exact ((cut _ rfl _ _).onCuAt _ rfl (fun _ => .inr (mayEnd_of_command e (by simp)))).sealForCause.wfKick
    · exact (cut _ rfl _ _).takeUpWriting

theorem Keeps.settleFails (h : Keeps q a s) (may : q = true → s.mayEnd) : Keeps q a s.settleFails := by
  have left := h.leaveRead.onPu (fun u => { u with cut := none }) (fun _ => by rfl)
  unfold State.settleFails
  dsimp only
  split
  · exact left.complete _ _ (fun hq => mayEnd_congr (by simp) (by simp) (may hq))
  · exact left

end

end Sys2Proof.Machine
end

section
/-!
SUPPORT. What the Reader keeps (R82 to R100): beside the invariants of every block, its own (R12, R94, R104), which rests on this: a Reader that
is given something to do finds no slot FAILED and no locate before a read under way, and a header read gives it nothing to do.
-/
namespace Sys2Proof.Machine
open Sys2Proof.Laws

/-! ### Where the Reader may be given something to do -/

/-- No slot is FAILED and no locate before a read is under way. -/
def State.Clear (s : State) : Prop := ¬ s.dbm.holdsFailed ∧ s.pu.locates = false

/-- The Reader reads: with nothing in its way, or the header. -/
def State.Reading (s : State) : Prop := s.Clear ∨ (s.ReaderSound ∧ s.rdr.activity = .header)

theorem State.Clear.readerSound {s : State} (h : s.Clear) : s.ReaderSound := (readerSound_iff s).mpr ⟨fun f => absurd f h.1, by simp [h.2]⟩

theorem State.Clear.mayEnd {s : State} (h : s.Clear) : s.mayEnd := by simp [State.mayEnd, h.2]

theorem State.Clear.calm {s t : State} (h : s.Clear) (k : Calm s t) : t.Clear := by
  refine ⟨fun f => h.1 (k.failed f), ?_⟩
  by_contra l
  exact absurd (k.scan (by simpa using l)) (by simp [h.2])

theorem State.ReaderSound.clear {s : State} (h : s.ReaderSound) (busy : s.rdr.calm = false) : s.Clear := by
  obtain ⟨hf, hl⟩ := (readerSound_iff s).mp h
  refine ⟨fun f => by simp [(hf f).1] at busy, ?_⟩
  by_contra l
  simp [(hl (by simpa using l)).1] at busy

theorem State.Reading.readerSound {s : State} (h : s.Reading) : s.ReaderSound := h.elim (fun c => c.readerSound) (fun r => r.1)

theorem State.ReaderSound.reading {s : State} (h : s.ReaderSound) (busy : s.rdr.classifies = true) : s.Reading := by
  by_cases header : s.rdr.activity = .header
  · exact .inr ⟨h, header⟩
  · refine .inl (h.clear ?_)
    simp only [Rdr.classifies, Bool.or_eq_true, Bool.and_eq_true, beq_iff_eq, header, false_and, or_false] at busy
    rcases busy with e | e <;> simp [Rdr.calm, Rdr.moving, e]

/-- From a state with `P` a function leads to one with `Q`, and keeps the soundness of each block. -/
structure Leads (P Q : State → Prop) (s t : State) : Prop where
  keeps : Keeps false s t
  holds : P s → Q t

theorem Leads.trans {P Q R : State → Prop} {s t u : State} (h : Leads P Q s t) (k : Leads Q R t u) : Leads P R s u :=
  ⟨h.keeps.trans k.keeps, fun p => k.holds (h.holds p)⟩

theorem Leads.refl (P : State → Prop) (s : State) : Leads P P s s := ⟨Keeps.refl _ _, id⟩

theorem Leads.mono {P P' Q Q' : State → Prop} {s t : State} (h : Leads P Q s t) (p : P' s → P s) (r : Q t → Q' t) : Leads P' Q' s t :=
  ⟨h.keeps, fun x => r (h.holds (p x))⟩

theorem Leads.ite {P Q : State → Prop} {s t u : State} {p : Prop} [Decidable p] (h : p → Leads P Q s t) (k : ¬ p → Leads P Q s u) :
    Leads P Q s (if p then t else u) := by
  split
  · next hp => exact h hp
  · next hp => exact k hp

theorem Leads.when {P Q : State → Prop} {s t : State} (b : Bool) (f : State → State) (h : b = true → Leads P Q s (f t)) (k : Leads P Q s t) :
    Leads P Q s (t.when b f) := by
  cases b with
  | true => exact h rfl
  | false => exact k

/-- What gives the Reader nothing to do where nothing is in its way leaves it so. -/
theorem Leads.clear {s t : State} (k : ∀ q : Bool, (q = true → s.Clear) → Keeps q s t) : Leads State.Clear State.Clear s t :=
  ⟨k false (by simp), fun c => c.calm ((k true (fun _ => c)).calm rfl)⟩

theorem Keeps.clear {s t : State} (k : Keeps true s t) : Leads State.Clear State.Clear s t := ⟨k.loud, fun c => c.calm (k.calm rfl)⟩

theorem Keeps.sound {s t : State} (k : Keeps true s t) : Leads State.ReaderSound State.ReaderSound s t :=
  ⟨k.loud, fun x => (k.calm rfl).readerSound x⟩

theorem Keeps.reading {s t : State} (k : Keeps true s t) (same : t.rdr.activity = s.rdr.activity) : Leads State.Reading State.Reading s t := by
  refine ⟨k.loud, ?_⟩
  rintro (c | ⟨r, e⟩)
  · exact .inl (c.calm (k.calm rfl))
  · exact .inr ⟨(k.calm rfl).readerSound r, same.trans e⟩

/-- A function of the Reader, by what it does in a header read and otherwise. -/
theorem Leads.reading {s t : State} (header : s.rdr.activity = .header → Keeps true s t)
    (other : s.rdr.activity ≠ .header → Leads State.Clear State.ReaderSound s t) : Leads State.Reading State.ReaderSound s t := by
  by_cases e : s.rdr.activity = .header
  · exact (header e).sound.mono State.Reading.readerSound id
  · exact (other e).mono (fun r => r.resolve_right (fun x => e x.2)) id

theorem Leads.toSound {P : State → Prop} {s t : State} (h : Leads P State.Clear s t) : Leads P State.ReaderSound s t :=
  h.mono id State.Clear.readerSound

theorem Leads.fromReading {Q : State → Prop} {s t : State} (h : Leads State.ReaderSound Q s t) : Leads State.Reading Q s t :=
  h.mono State.Reading.readerSound id

/-- The Reader changed. -/
theorem Leads.onRdr (s : State) (f : Rdr → Rdr) : Leads State.Clear State.Clear s (s.onRdr f) :=
  ⟨(Keeps.refl false s).onRdr f (by simp), id⟩

/-! ### The slots of the read path -/

theorem Leads.openLoading (s : State) : Leads State.Clear State.Clear s s.openLoading := by
  unfold State.openLoading
  split
  · split
    · next may =>
      simp only [Bool.and_eq_true, beq_iff_eq] at may
      have opened {x : Slot} (loading : x.state = .loading) : Keeps true s (s.onDbm (·.opened x)) := by
        refine (Keeps.refl true s).onDbm _ id (Nat.le_refl _) (fun r => r.openedLoading may.1.2 may.2 loading) (fun _ => ?_)
        rintro ⟨y, hy, failed⟩
        rcases List.mem_append.mp hy with hy | hy
        · exact ⟨y, hy, failed⟩
        · simp only [List.mem_singleton] at hy
          simp [hy, loading] at failed
      exact (opened rfl).clear.trans (Leads.onRdr _ _)
    · exact Leads.refl _ _
  · exact Leads.refl _ _

section
variable {q : Bool} {a s : State}

theorem Keeps.dropLoading (h : Keeps q a s) : Keeps q a s.dropLoading := by
  unfold State.dropLoading
  exact Keeps.when _ h _ (fun _ => h.dropNewest)

theorem Keeps.reportReadEnd (h : Keeps q a s) (place : Loc) (pattern : Bool) : Keeps q a (s.reportReadEnd place pattern) := by
  unfold State.reportReadEnd
  split
  · exact Keeps.ite (fun _ => h) (fun _ => ((Keeps.when _ h _ (fun _ => h.setPosition _ _)).onPu _ (fun _ => by rfl)).setEod _ _)
  · exact h

@[simp] theorem dropLoading_cu (s : State) : s.dropLoading.cu = s.cu := by
  unfold State.dropLoading State.when
  split <;> rfl

@[simp] theorem dropLoading_pu (s : State) : s.dropLoading.pu = s.pu := by
  unfold State.dropLoading State.when
  split <;> rfl

@[simp] theorem reportReadEnd_cu (s : State) (place : Loc) (pattern : Bool) : (s.reportReadEnd place pattern).cu = s.cu := by
  unfold State.reportReadEnd State.when
  split
  · split
    · rfl
    · dsimp only
      split <;> rfl
  · rfl

@[simp] theorem reportReadEnd_scan (s : State) (place : Loc) (pattern : Bool) : (s.reportReadEnd place pattern).pu.scan = s.pu.scan := by
  unfold State.reportReadEnd State.when
  split
  · split
    · rfl
    · dsimp only
      split <;> rfl
  · rfl

/-- End of data, where the command that a load of D alone works for may end. -/
theorem Keeps.readerEnds (h : Keeps q a s) (place : Loc) (pattern : Bool) (may : q = true → s.mayEnd) : Keeps q a (s.readerEnds place pattern) := by
  have ended := ((h.dropLoading.reportReadEnd place pattern).onRdr (fun r => { Rdr.emptyMap r with
      activity := .ended .endOfData, readAhead := false, wanted := false, target := none, alone := false, tallies := Tally.zeros })
      (fun _ _ => rfl)).setGoal .stop
  unfold State.readerEnds
  exact Keeps.ite (fun _ => ended.settleFails (fun hq => mayEnd_congr (by simp) (by simp) (may hq))) (fun _ => ended)

theorem Keeps.headerEnds (h : Keeps q a s) (r : HeaderResult) : Keeps q a (s.headerEnds r) :=
  (h.onRdr _ (fun _ _ => rfl)).headerRead r

theorem Keeps.beginHeaderRead (h : Keeps q a s) : Keeps q a s.beginHeaderRead := (h.onRdr _ (fun _ _ => rfl)).setGoal _

theorem Keeps.readerFaults (h : Keeps q a s) : Keeps q a s.readerFaults := by
  unfold State.readerFaults
  exact Keeps.ite (fun _ => h) (fun _ => h.dropLoading.onRdr _ (fun _ _ => rfl))

theorem Keeps.storeRow (h : Keeps q a s) (x : Nat × RowRead) : Keeps q a (s.storeRow x) := by
  unfold State.storeRow
  dsimp only
  split
  · exact (Keeps.when _ h _ (fun _ => h.onDram (·.place _ _ _) (wf_place _ _ _ _))).onRdr _ (fun _ => id)
  · exact h.onRdr _ (fun _ => id)

theorem Keeps.placeRow (h : Keeps q a s) (l : Loc) (x : Nat × RowRead) : Keeps q a (State.placeRow l s x) := by
  unfold State.placeRow
  split
  · split
    · exact h
    · exact (h.onRdr _ (fun _ => id)).storeRow _
    · exact Keeps.ite (fun _ => h.storeRow _) (fun _ => Keeps.ite (fun _ => h) (fun _ => (h.onRdr _ (fun _ => id)).storeRow _))
  · split
    · exact Keeps.ite (fun _ => h.storeRow _) (fun _ => h)
    · exact h

theorem Keeps.placeRows (h : Keeps q a s) (l : Loc) (xs : List (Nat × RowRead)) : Keeps q a (xs.foldl (State.placeRow l) s) := by
  induction xs generalizing s with
  | nil => exact h
  | cons x xs ih => exact ih (h.placeRow l x)

theorem Keeps.handReadTallies (h : Keeps q a s) : Keeps q a s.handReadTallies := by
  have dropped {t : State} (k : Keeps q a t) : Keeps q a (t.onRdr (fun r => { r with tallies := Tally.zeros })) := k.onRdr _ (fun _ => id)
  exact dropped (h.takeTally _)

/-- Rows replaced keep the canonical form. -/
theorem setRows_wf (is : List Nat) (base : Nat) (cs : Nat → Cells) (m : Memory) (h : m.wf = true) :
    (is.foldl (fun m n => Memory.setRow m base n (cs n)) m).wf = true :=
  wf_foldl_place is (fun n => base + n * Config.rowBytes) (fun _ => Config.rowBytes) cs m h

/-- C2 keeps the canonical form of the DRAM. -/
theorem regenerate_wf (tape : List TapeWrite) (dataset : Nat) (m : Memory) (base : Nat) (r : Rdr) (h : m.wf = true) :
    (regenerate tape dataset m base r).wf = true := by
  unfold regenerate
  dsimp only
  exact setRows_wf _ _ _ _ (setRows_wf _ _ _ _ h)

theorem corrected_wf (s : State) (h : s.dbm.dram.wf = true) : s.corrected.wf = true := by
  unfold State.corrected
  split
  · split
    · exact h
    · exact regenerate_wf _ _ _ _ _ h
  · exact h

theorem Keeps.correct (h : Keeps q a s) : Keeps q a (s.onDbm (fun d => { d with dram := s.corrected })) :=
  h.onDbm _ (corrected_wf s) (Nat.le_refl _) id (fun _ => id)

theorem Keeps.notCorrected (h : Keeps q a s) : Keeps q a s.notCorrected := h.onRdr _ (fun _ => id)

theorem Keeps.readBoundary (h : Keeps q a s) : Keeps q a s.readBoundary := Keeps.when _ h _ (fun _ => h.boundary)

/-- The LOADING slot made READY or FAILED. -/
theorem Keeps.loadedSlot (h : Keeps q a s) (f : Slot → Slot) (st : SlotState) (state : ∀ x, (f x).state = st) (ok : st = .ready ∨ st = .failed)
    (quiet : q = true → st = .ready) {i : Nat} (loading : s.dbm.find .loading = some i) : Keeps q a (s.onDbm (·.setSlot i f)) :=
  h.onDbm _ id (Nat.le_refl _) (fun r => r.loaded loading f st state ok)
    (fun hq => Dbm.holdsFailed_setSlot (fun x e => by simp [state, quiet hq] at e))

end

/-! ### What leaves the Reader's activity as it was -/

@[simp] theorem takeTally_rdr (s : State) (ts : Vector Tally 16) : (s.takeTally ts).rdr = s.rdr := by
  obtain ⟨_, _, _, e⟩ := (Scores.takeChannels ts (List.finRange 16) s).rest
  obtain ⟨_, _, _, _, e'⟩ := recomputeHead_rest ((List.finRange 16).foldl (State.takeChannel ts) s)
  unfold State.takeTally
  rw [e', e]

theorem handReadTallies_activity (s : State) : s.handReadTallies.rdr.activity = s.rdr.activity := by simp [State.handReadTallies]

@[simp] theorem boundary_rdr (s : State) : s.boundary.rdr = s.rdr := by
  unfold State.boundary State.takeSpeed
  repeat' (first | split | dsimp only)
  all_goals simp

theorem readBoundary_activity (s : State) : s.readBoundary.rdr.activity = s.rdr.activity := by
  unfold State.readBoundary State.when
  split <;> simp

/-! ### The Reader given a dataset -/

theorem Leads.readerEnds (s : State) (place : Loc) (pattern : Bool) : Leads State.Clear State.Clear s (s.readerEnds place pattern) :=
  Leads.clear (fun _ c => (Keeps.refl _ s).readerEnds place pattern (fun hq => (c hq).mayEnd))

theorem Leads.handOver (s : State) (n : Nat) (seek : Loc) (alone : Bool) : Leads State.Clear State.Clear s (s.handOver n seek alone) := by
  have given (f : Rdr → Rdr) : Leads State.Clear State.Clear s (s.wfYield.onRdr f) := (Keeps.refl true s).wfYield.clear.trans (Leads.onRdr _ _)
  unfold State.handOver
  dsimp only
  split
  · exact (given _).trans (Leads.readerEnds _ _ _)
  · split
    · exact (given _).trans (Leads.readerEnds _ _ _)
    · exact (((given _).trans (Leads.onRdr _ _)).trans ((Keeps.refl true _).setGoal _).clear).trans (Leads.openLoading _)

theorem Leads.readerPauses (s : State) : Leads State.Clear State.Clear s s.readerPauses :=
  (Leads.onRdr s _).trans ((Keeps.refl true _).setGoal _).clear

theorem Leads.readerResumes (s : State) : Leads State.Clear State.Clear s s.readerResumes := by
  unfold State.readerResumes
  split
  · exact Leads.handOver _ _ _ _
  · exact Leads.refl _ _

theorem Leads.readNext (s : State) (n p : Nat) : Leads State.Clear State.Clear s (s.readNext n p) := by
  unfold State.readNext
  dsimp only
  split
  · exact (Leads.onRdr s _).trans (Leads.readerEnds _ _ _)
  · exact Leads.ite (fun _ => ((Leads.onRdr s _).trans (Leads.onRdr _ _)).trans (Leads.openLoading _))
      (fun _ => (Leads.onRdr s _).trans (Leads.readerPauses _))

/-! ### Evaluation, retries and failure -/

theorem Leads.datasetReady (s : State) (t : Trailer) : Leads State.Clear State.Clear s (s.datasetReady t) := by
  have proven {u : State} (h : Keeps true s u) (p n f fm l : Nat) (start : Loc) (g : Pu → Pu)
      (same : (g ((u.proveDataset p n f fm start false).learnFilemarks p n l).pu).scan
      = ((u.proveDataset p n f fm start false).learnFilemarks p n l).pu.scan) :
      Keeps true s (((u.proveDataset p n f fm start false).learnFilemarks p n l).onPu g) :=
    ((h.proveDataset p n f fm start false).learnFilemarks p n l).onPuAt g (fun _ => by rw [same]; exact id)
  have ready {u : State} (h : Keeps true s u) : Leads State.Clear State.Clear s
      (if u.rdr.alone then
        let v := (u.onRdr (fun r => { Rdr.emptyMap r with activity := .ended .endOfData, wanted := false, target := none, alone := false })).setGoal .stop
        match v.pu.cut, v.dbm.find .ready with
        | some c, some i => if v.cu.progress = .settleD then v.convertD c i else v
        | _, _ => v
      else u.readNext (t.dataset + 1) t.partition) := by
    split
    · have ended := (h.onRdr (fun r => { Rdr.emptyMap r with
          activity := .ended .endOfData, wanted := false, target := none, alone := false }) (fun _ _ => rfl)).setGoal .stop
      dsimp only
      split
      · exact Leads.ite (fun _ => (ended.convertD _ _).clear) (fun _ => ended.clear)
      · exact ended.clear
    · exact h.clear.trans (Leads.readNext _ _ _)
  unfold State.datasetReady
  dsimp only
  split
  · next i loading => exact ready (proven ((Keeps.refl true s).loadedSlot _ .ready (fun _ => rfl) (.inl rfl) (fun _ => rfl) loading) _ _ _ _ _ _ _ rfl)
  · exact ready (proven (Keeps.refl true s) _ _ _ _ _ _ _ rfl)

/-- A state whose Reader is calm while no locate before a read is under way. -/
theorem readerSound_of_calm {s : State} (calm : s.rdr.calm = true) (scan : s.pu.locates = false) : s.ReaderSound :=
  (readerSound_iff s).mpr ⟨fun _ => ⟨calm, scan⟩, by simp [scan]⟩

theorem Leads.readFails (s : State) (outcome : Nat) : Leads State.Clear State.ReaderSound s (s.readFails outcome) := by
  have failed {u : State} (h : Keeps false s u) (scan : u.pu.scan = s.pu.scan) (f : Rdr → Rdr) (calm : ∀ r, (f r).calm = true) :
      Leads State.Clear State.ReaderSound s
        (if s.rdr.alone then (((u.raise .mediumError).onRdr f).setGoal .stop).settleFails else ((u.raise .mediumError).onRdr f).setGoal .stop) := by
    have none_ (c : s.Clear) : (((u.raise .mediumError).onRdr f).setGoal .stop).pu.locates = false := by
      simpa [Pu.locates, scan] using c.2
    have ended : Leads State.Clear State.ReaderSound s (((u.raise .mediumError).onRdr f).setGoal .stop) :=
      ⟨((h.raise _).onRdr _ (by simp)).setGoal _, fun c => readerSound_of_calm (by simp [calm]) (none_ c)⟩
    refine Leads.ite (fun _ => ⟨ended.keeps.settleFails (by simp), fun c => ?_⟩) (fun _ => ended)
    have may : (((u.raise .mediumError).onRdr f).setGoal .stop).mayEnd := fun l => by rw [none_ c] at l; simp at l
    exact (((Keeps.refl true _).settleFails (fun _ => may)).calm rfl).readerSound (ended.holds c)
  unfold State.readFails
  cases loading : s.dbm.find .loading with
  | none => exact failed (Keeps.refl false s) rfl _ (fun _ => rfl)
  | some i => exact failed ((Keeps.refl false s).loadedSlot _ .failed (fun _ => rfl) (.inr rfl) (by simp) loading) rfl _ (fun _ => rfl)

theorem Leads.nextPass (s : State) (t : Loc) : Leads State.Reading State.ReaderSound s (s.nextPass t) := by
  have counted {u : State} {P Q : State → Prop} (set : ∀ {v : State}, Keeps true u v → Leads P Q s v) : Leads P Q s ((match u.dbm.find .loading with
      | some i => u.onDbm (·.setSlot i (fun x => { x with passes := x.passes.map (· + 1) }))
      | none => u).setGoal (.runUp t false)) := by
    split
    · exact set (((Keeps.refl true u).setSlot _ _).setGoal _)
    · exact set ((Keeps.refl true u).setGoal _)
  unfold State.nextPass
  dsimp only
  by_cases header : s.rdr.activity = .header
  · refine counted (fun {v} k => ?_)
    refine (((Keeps.refl true s).onRdr _ (fun _ c => ?_)).trans k).sound.fromReading
    simpa [Rdr.calm, Rdr.moving, header] using c
  · refine counted (fun {v} k => ?_)
    exact ((Leads.onRdr s _).trans k.clear).toSound.mono (fun r => r.resolve_right (fun x => header x.2)) id

theorem Leads.retry (s : State) : Leads State.Reading State.ReaderSound s s.retry := by
  unfold State.retry
  refine Leads.ite (fun _ => Leads.nextPass _ _) (fun _ => ?_)
  by_cases header : s.rdr.activity = .header
  · rw [if_pos header]
    exact ((Keeps.refl true s).headerEnds _).sound.fromReading
  · rw [if_neg header]
    exact (Leads.readFails _ _).mono (fun r => r.resolve_right (fun x => header x.2)) id

theorem Leads.sawNothing (s : State) : Leads State.Reading State.ReaderSound s s.sawNothing := by
  unfold State.sawNothing
  refine Leads.ite (fun _ => Leads.nextPass _ _) (fun _ => ?_)
  by_cases header : s.rdr.activity = .header
  · rw [if_pos header]
    exact ((Keeps.refl true s).headerEnds _).sound.fromReading
  · rw [if_neg header]
    exact (Leads.readFails _ _).mono (fun r => r.resolve_right (fun x => header x.2)) id

end Sys2Proof.Machine
end

section
/-!
SUPPORT. What the Reader's classification keeps (R84 to R93, R100).
-/
namespace Sys2Proof.Machine
open Sys2Proof.Laws

/-- Where the Reader reads on and nothing changes for it but its records. -/
theorem Leads.readingOnRdr (s : State) (f : Rdr → Rdr) (calm : s.rdr.calm = true → (f s.rdr).calm = true)
    (same : (f s.rdr).activity = s.rdr.activity) : Leads State.Reading State.Reading s (s.onRdr f) :=
  ((Keeps.refl true s).onRdr f (fun _ => calm)).reading same

theorem Leads.evaluate (s : State) (other : State → State) (k : ∀ t, Leads State.Reading State.ReaderSound t (other t)) :
    Leads State.Reading State.ReaderSound s (s.evaluate other) := by
  have fixed := (Keeps.refl true s).correct
  unfold State.evaluate
  dsimp only
  split
  · refine Leads.reading (fun header => ?_) (fun other => ?_)
    · rw [if_pos header]
      exact fixed.headerEnds _
    · rw [if_neg other]
      exact fixed.clear.trans (Leads.datasetReady _ _).toSound
  · exact (fixed.notCorrected.reading rfl).trans (k _)

theorem Leads.afterCopy (s : State) : Leads State.Reading State.ReaderSound s s.afterCopy := by
  unfold State.afterCopy
  dsimp only
  split
  · exact Leads.retry s
  · next on =>
    exact Leads.reading (fun header => absurd (.inl header) on) (fun _ => (Leads.onRdr s _).toSound)

theorem Leads.handReadTallies (s : State) : Leads State.Reading State.Reading s s.handReadTallies :=
  (Keeps.refl true s).handReadTallies.reading (handReadTallies_activity s)

theorem Leads.unseenEnd (s : State) : Leads State.Reading State.ReaderSound s s.unseenEnd :=
  (Leads.handReadTallies s).trans (Leads.evaluate _ _ Leads.retry)

theorem Leads.unclosed (s : State) : Leads State.Reading State.ReaderSound s s.unclosed := by
  unfold State.unclosed
  refine (Leads.handReadTallies s).trans (Leads.reading (fun header => ?_) (fun other => ?_))
  · rw [if_pos header]
    exact (Keeps.refl true _).headerEnds _
  · rw [if_neg other]
    exact (Leads.readerEnds _ _ _).toSound

theorem Leads.copyEnded (s : State) : Leads State.Reading State.ReaderSound s s.copyEnded :=
  Leads.ite (fun _ => Leads.unseenEnd s) (fun _ => Leads.unclosed s)

/-- Nothing done where the Reader reads. -/
theorem Leads.reads (s : State) : Leads State.Reading State.ReaderSound s s := ⟨Keeps.refl _ _, State.Reading.readerSound⟩

theorem Leads.notFound (s : State) (place : Loc) (pattern : Bool) : Leads State.Reading State.ReaderSound s (s.notFound place pattern) := by
  unfold State.notFound
  split
  · exact Leads.when _ _ (fun _ => Leads.sawNothing s) (Leads.reads s)
  · next other =>
    refine Leads.ite (fun _ => Leads.retry s) (fun _ => Leads.ite (fun _ => Leads.sawNothing s) (fun _ => ?_))
    exact (Leads.readerEnds s _ _).toSound.mono (fun r => r.resolve_right (fun x => other x.2)) id

/-! ### Classification -/

theorem Leads.openCopy (s : State) (l : Loc) : Leads State.Reading State.ReaderSound s (s.openCopy l) := by
  unfold State.openCopy
  dsimp only
  refine Leads.ite (fun _ => Leads.reads s) (fun _ => Leads.reading (fun header => ?_) (fun _ => (Leads.onRdr s _).toSound))
  refine (Keeps.refl true s).onRdr _ (fun _ c => ?_)
  simpa [Rdr.calm, Rdr.moving, header] using c

theorem Leads.takeRows (s : State) (l : Loc) (mine : List (Nat × RowRead)) :
    Leads State.Reading State.ReaderSound s (s.takeRows l mine) := by
  have placed {t : State} (h : Leads State.Reading State.ReaderSound s t) :
      Leads State.Reading State.ReaderSound s (if t.rdr.copyOpen then mine.foldl (State.placeRow l) t else t) :=
    Leads.ite (fun _ => h.trans ((Keeps.refl true t).placeRows l mine).sound) (fun _ => h)
  exact placed (Leads.ite (fun _ => Leads.reads s) (fun _ => Leads.openCopy s l))

theorem Leads.readRows (s : State) (l : Loc) (rows : Vector (Option RowRead) 16) : Leads State.Reading State.ReaderSound s (s.readRows l rows) := by
  have cleared := Leads.readingOnRdr s (fun r => { r with blankRun := 0, blankStart := none,
                                                          headerErrors := satAdd Config.max16 r.headerErrors (badHeaders rows l.wrap) }) id rfl
  unfold State.readRows
  dsimp only
  refine cleared.trans ?_
  split
  · exact Leads.reads _
  · refine Leads.ite (fun _ => Leads.takeRows _ _ _) (fun _ => Leads.ite (fun _ => Leads.reads _) (fun _ => Leads.ite (fun _ => ?_)
      (fun _ => Leads.ite (fun _ => Leads.notFound _ _ _) (fun _ => Leads.reads _))))
    refine (Leads.copyEnded _).trans ?_
    split
    · next again =>
      refine (Leads.takeRows _ _ _).mono (fun r => .inl (r.clear ?_)) id
      simp [Rdr.calm, Rdr.moving, again.2.1]
    · exact Leads.refl _ _

theorem Leads.readSeparator (s : State) (l : Loc) : Leads State.Reading State.ReaderSound s (s.readSeparator l) := by
  have bounded (t : State) : Leads State.Reading State.Reading t t.readBoundary := (Keeps.refl true t).readBoundary.reading (readBoundary_activity t)
  unfold State.readSeparator
  exact (Leads.readingOnRdr s _ (by exact id) (by rfl)).trans (Leads.ite (fun _ => ((Leads.handReadTallies _).trans (bounded _)).trans (Leads.evaluate _ _ Leads.afterCopy))
    (fun _ => (bounded _).mono id State.Reading.readerSound))

theorem Leads.readPattern (s : State) (l : Loc) : Leads State.Reading State.ReaderSound s (s.readPattern l) := by
  unfold State.readPattern
  exact (Leads.readingOnRdr s _ (by exact id) (by rfl)).trans (Leads.ite (fun _ => Leads.copyEnded _) (fun _ => Leads.notFound _ _ _))

theorem Leads.readBlank (s : State) (l : Loc) : Leads State.Reading State.ReaderSound s (s.readBlank l) := by
  unfold State.readBlank
  exact (Leads.readingOnRdr s _ (by exact id) (by rfl)).trans
    (Leads.ite (fun _ => Leads.reads _) (fun _ => Leads.ite (fun _ => Leads.copyEnded _) (fun _ => Leads.notFound _ _ _)))

theorem Leads.readWrapEnd (s : State) (wrap : Nat) : Leads State.ReaderSound State.ReaderSound s (s.readWrapEnd wrap) := by
  unfold State.readWrapEnd
  refine Leads.ite (fun _ => Leads.refl _ _) (fun seeks => ?_)
  have clear (r : s.ReaderSound) : s.Clear := by
    refine r.clear ?_
    simp only [Bool.not_eq_true', Bool.or_eq_false_iff, not_and, beq_eq_false_iff_ne, ne_eq] at seeks
    by_cases e : s.rdr.activity = .seeking
    · simp [Rdr.calm, Rdr.moving, e]
    · simp [Rdr.calm, Rdr.moving, not_not.mp (seeks e)]
  exact Leads.ite (fun _ => (Leads.unclosed s).mono (fun r => .inl (clear r)) id)
    (fun _ => Leads.ite (fun _ => ((Keeps.refl true s).askWrapTurn _).sound)
      (fun _ => Leads.ite (fun _ => (Leads.unseenEnd s).mono (fun r => .inl (clear r)) id)
        (fun _ => Leads.ite (fun _ => (Leads.retry s).mono (fun r => .inl (clear r)) id)
          (fun _ => (Leads.readerEnds s _ _).toSound.mono clear id))))

theorem Leads.headerZoneEnd (s : State) : Leads State.Reading State.ReaderSound s s.headerZoneEnd :=
  Leads.ite (fun _ => Leads.copyEnded s)
    (fun _ => Leads.ite (fun _ => ((Keeps.refl true s).headerEnds _).sound.fromReading) (fun _ => Leads.sawNothing s))

theorem Leads.readPitchAt (s : State) (l : Loc) (c : PitchContent) : Leads State.ReaderSound State.ReaderSound s (s.readPitchAt l c) := by
  unfold State.readPitchAt
  split
  · exact Leads.refl _ _
  · next classifies =>
    have reading (r : s.ReaderSound) : s.Reading := r.reading (by simpa using classifies)
    refine Leads.ite (fun _ => (Leads.headerZoneEnd s).mono reading id) (fun _ => ?_)
    have heard : Leads State.ReaderSound State.ReaderSound s (match c with
        | .rowSet rows => s.readRows l rows
        | .separator => s.readSeparator l
        | .endPattern => s.readPattern l
        | .blank => s.readBlank l) := by
      refine Leads.mono ?_ reading id
      split
      · exact Leads.readRows _ _ _
      · exact Leads.readSeparator _ _
      · exact Leads.readPattern _ _
      · exact Leads.readBlank _ _
    refine heard.trans (Leads.ite (fun _ => Leads.ite (fun still => ?_) (fun _ => Leads.refl _ _))
      (fun _ => Leads.ite (fun _ => Leads.readWrapEnd _ _) (fun _ => Leads.refl _ _)))
    exact (Leads.headerZoneEnd _).mono (fun r => r.reading (Bool.and_eq_true .. ▸ still).1) id

theorem Leads.headerPassed (s : State) (l : Loc) : Leads State.ReaderSound State.ReaderSound s (s.headerPassed l) := by
  unfold State.headerPassed
  refine Leads.when _ _ (fun header => (Leads.headerZoneEnd s).mono (fun r => r.reading ?_) id) (Leads.refl _ _)
  simp only [Bool.and_eq_true] at header
  exact header.1.1

theorem Leads.readUnseen (s : State) (l : Loc) : Leads State.ReaderSound State.ReaderSound s (s.readUnseen l) := by
  unfold State.readUnseen
  split
  · exact Leads.refl _ _
  · next classifies =>
    have reading (r : s.ReaderSound) : s.Reading := r.reading (by simpa using classifies)
    refine Leads.mono (Leads.ite (fun _ => Leads.headerZoneEnd s) (fun _ => ?_)) reading id
    exact (Leads.readingOnRdr s _ (by exact id) (by rfl)).trans (Leads.ite (fun _ => Leads.headerZoneEnd _) (fun _ => Leads.reads _))

theorem Leads.readerAt (s : State) (l : Loc) : Leads State.ReaderSound State.ReaderSound s (s.readerAt l) := by
  unfold State.readerAt
  split
  · next t target =>
    refine Leads.ite (fun _ => ?_) (fun _ => Leads.refl _ _)
    by_cases header : s.rdr.activity = .header
    · refine ((Keeps.refl true s).onRdr _ (fun _ c => ?_)).sound
      simpa [Rdr.calm, Rdr.moving, header] using c
    · exact (Leads.onRdr s _).toSound.mono (fun r => r.clear (by simp [Rdr.calm, target, header])) id
  · exact Leads.refl _ _

end Sys2Proof.Machine
end

section
/-!
SUPPORT. What the Record Expander keeps (R34 to R42, R102).
-/
namespace Sys2Proof.Machine
open Sys2Proof.Laws

/-- A READ_RECORDS that reads waits for no locate, so that it may end. -/
theorem mayEnd_of_reading {s : State} (h : s.cu.progress = .reading) : s.mayEnd := mayEnd_of_progress (by simp [h])

theorem reading_progress {s : State} {p : Nat × Nat} (h : s.reading = some p) : s.cu.progress = .reading := by
  unfold State.reading at h
  split at h
  · split at h
    · next e => exact e
    · simp at h
  · simp at h

theorem releaseDone_frame (s : State) : ∃ dbm : Dbm, s.releaseDone = { s with dbm := dbm } := by
  unfold State.releaseDone
  split
  · split
    · exact ⟨_, rfl⟩
    · exact ⟨_, rfl⟩
  · exact ⟨_, rfl⟩

@[simp] theorem releaseDone_cu (s : State) : s.releaseDone.cu = s.cu := by
  obtain ⟨_, e⟩ := releaseDone_frame s
  rw [e]

@[simp] theorem releaseDone_pu (s : State) : s.releaseDone.pu = s.pu := by
  obtain ⟨_, e⟩ := releaseDone_frame s
  rw [e]

/-- A slot that is not EXPANDING is not released. -/
theorem releaseDone_dbm {s t : State} (dbm : t.dbm = s.dbm) {x : Slot} {xs : List Slot} (hs : s.dbm.slots = x :: xs)
    (hx : x.state ≠ .expanding) : t.releaseDone.dbm = s.dbm := by simp [State.releaseDone, dbm, hs, hx]

section
variable {q : Bool} {a s : State}

theorem Keeps.releaseDone (h : Keeps q a s) : Keeps q a s.releaseDone := by
  unfold State.releaseDone
  split
  · exact Keeps.ite (fun _ => h.freeOldest) (fun _ => h)
  · exact h

theorem Keeps.readCompletes (h : Keeps q a s) (code : Code) (object actual : Nat) (may : q = true → s.mayEnd) :
    Keeps q a (s.readCompletes code object actual) := h.complete _ _ may

theorem Keeps.delivered (h : Keeps q a s) (d : Sending) (reads : q = true → s.cu.progress = .reading) : Keeps q a (s.delivered d) := by
  have counted (f : Rx → Rx) := ((h.advancePosition.onRx f).onCu (fun c => { c with count := c.count + 1 }) (fun _ => by simp)).releaseDone
  have may (f : Rx → Rx) (hq : q = true) : ((s.advancePosition.onRx f).onCu (fun c => { c with count := c.count + 1 })).releaseDone.mayEnd :=
    mayEnd_of_reading (by simpa [State.advancePosition, State.setPosition] using reads hq)
  unfold State.delivered
  dsimp only
  split
  · exact ((counted _).raise _).readCompletes _ _ _ (fun hq => mayEnd_of_reading (by simpa [State.advancePosition, State.setPosition] using reads hq))
  · split
    · exact (counted _).readCompletes _ _ _ (may _)
    · split
      · exact Keeps.ite (fun _ => (counted _).readCompletes _ _ _ (may _)) (fun _ => counted _)
      · exact counted _

theorem Keeps.sendPacket (h : Keeps q a s) : Keeps q a s.sendPacket := by
  unfold State.sendPacket
  split
  · split
    · exact h
    · next d _ may =>
      have reads : s.cu.progress = .reading := by
        cases e : s.reading with
        | none => simp [e] at may
        | some p => exact reading_progress e
      have sent (c : Bool) (bs : List Byte) (f : Rx → Rx) := ((h.onSpu (fun p => { p with readCredits := p.readCredits - 1 }) (fun ⟨hc, hr, hl⟩ =>
        ⟨hc, Nat.le_trans (Nat.sub_le _ _) hr, hl⟩)).send (.rdat c bs)).onRx f
      exact Keeps.ite (fun _ => (sent _ _ _).delivered d (fun _ => reads)) (fun _ => sent _ _ _)
  · exact h

theorem Keeps.recordEnds (h : Keeps q a s) (b : Assembly) (limit : Nat) (reads : q = true → s.cu.progress = .reading) :
    Keeps q a (s.recordEnds b limit) := by
  unfold State.recordEnds
  exact Keeps.ite (fun _ => (h.onRx _).releaseDone) (fun _ => Keeps.ite (fun _ => h.delivered _ reads) (fun _ => h.onRx _))

theorem Keeps.expandEntry (h : Keeps q a s) : Keeps q a s.expandEntry := by
  unfold State.expandEntry
  split
  · next limit slot _ reading _ =>
    have reads : s.cu.progress = .reading := reading_progress reading
    dsimp only
    refine Keeps.ite (fun _ => h) (fun _ => ?_)
    have next (b : Bool) (f g : Rx → Rx) : Keeps q a ((s.onRx f).when b (·.onRx g)) := Keeps.when _ (h.onRx _) _ (fun _ => (h.onRx _).onRx _)
    have read (b : Bool) (f g : Rx → Rx) : ((s.onRx f).when b (·.onRx g)).cu.progress = .reading := by cases b <;> exact reads
    have ends (b : Bool) (f g k : Rx → Rx) (as : Assembly) : Keeps q a ((((s.onRx f).when b (·.onRx g)).onRx k).recordEnds as limit) :=
      ((next b f g).onRx k).recordEnds as limit (fun _ => read b f g)
    refine Keeps.ite (fun _ => Keeps.ite (fun _ => ((next _ _ _).onRx _).releaseDone) (fun _ => ?_)) (fun _ => ?_)
    · refine (((next _ _ _).onRx _).advancePosition.releaseDone).readCompletes _ _ _ (fun _ => mayEnd_of_reading ?_)
      rw [releaseDone_cu]
      exact read _ _ _
    · split
      · exact ((next _ _ _).onRx _).releaseDone
      · exact (((next _ _ _).onRx _).onRx _).releaseDone
      · exact (((next _ _ _).onRx _).onRx _).releaseDone
      · exact ends _ _ _ _ _
      · exact (((next _ _ _).onRx _).onRx _).releaseDone
      · exact ends _ _ _ _ _
  · exact h

/-! ### Taking slots -/

theorem Keeps.takeReady (h : Keeps q a s) {x : Slot} {xs : List Slot} (hs : s.dbm.slots = x :: xs) (hx : x.state = .ready) :
    Keeps q a (s.takeReady x) := by
  unfold State.takeReady
  exact (h.onDbm _ id (Nat.le_refl _) (fun r => (r.expanding hs hx).congr rfl rfl rfl)
    (fun _ => Dbm.holdsFailed_setSlot (i := 0) (f := fun y => { y with state := .expanding }) (by simp))).onRx _

theorem Keeps.endsFailed (h : Keeps q a s) (x : Slot) (may : q = true → s.mayEnd) : Keeps q a (s.endsFailed x) := by
  unfold State.endsFailed
  exact ((h.complete _ _ may).freeOldest).onRx _

theorem delivered_slots {s : State} (d : Sending) {x : Slot} {xs : List Slot} (hs : s.dbm.slots = x :: xs) (hx : x.state ≠ .expanding) :
    (s.delivered d).dbm = s.dbm := by
  have kept (f : Rx → Rx) (g : Cu → Cu) : ((s.advancePosition.onRx f).onCu g).releaseDone.dbm = s.dbm :=
    releaseDone_dbm rfl hs hx
  unfold State.delivered State.readCompletes
  dsimp only
  split
  · simp [kept]
  · split
    · simp [kept]
    · split
      · split <;> simp [kept]
      · exact kept _ _

/-- A record that ends before the slot at the drain pointer is taken leaves the buffer as it was. -/
theorem recordEnds_dbm {s : State} (b : Assembly) (limit : Nat) {x : Slot} {xs : List Slot} (hs : s.dbm.slots = x :: xs)
    (hx : x.state ≠ .expanding) : (s.recordEnds b limit).dbm = s.dbm := by
  unfold State.recordEnds
  split
  · exact releaseDone_dbm rfl hs hx
  · dsimp only
    split
    · exact delivered_slots _ hs hx
    · rfl

theorem Keeps.takeContinued (h : Keeps q a s) {x : Slot} {xs : List Slot} (hs : s.dbm.slots = x :: xs) (hx : x.state = .ready)
    (b : Assembly) (first : EntryKind) (limit : Nat) (reads : q = true → s.cu.progress = .reading) :
    Keeps q a (s.takeContinued x b first limit) :=
  Keeps.ite (fun _ => h.takeReady hs hx) (fun _ => (h.takeReady hs hx).recordEnds _ _ reads)

theorem Keeps.takeSlot (h : Keeps q a s) : Keeps q a s.takeSlot := by
  unfold State.takeSlot
  split
  · exact h
  · next reading =>
    have reads := reading_progress reading
    refine Keeps.ite (fun _ => h) (fun _ => ?_)
    split
    · next hs =>
      split
      · next hx =>
        dsimp only
        split
        · exact h.takeReady hs hx
        · refine Keeps.ite (fun _ => (h.onRx _).takeReady hs hx) (fun _ => Keeps.ite (fun _ => h.takeContinued hs hx _ _ _ (fun _ => reads)) (fun _ => ?_))
          have ended (b : Assembly) (limit : Nat) := h.recordEnds b limit (fun _ => reads)
          exact Keeps.ite (fun _ => ended _ _)
            (fun _ => (ended _ _).takeReady ((congrArg Dbm.slots (recordEnds_dbm _ _ hs (by simp [hx]))).trans hs) hx)
      · exact h.endsFailed _ (fun _ => mayEnd_of_reading reads)
      · exact h
    · split
      · exact (h.onRx _).readCompletes _ _ _ (fun _ => mayEnd_of_reading reads)
      · exact h.readCompletes _ _ _ (fun _ => mayEnd_of_reading reads)
      · exact h

end

end Sys2Proof.Machine
end

section
/-!
SUPPORT. What the trailer scan keeps (R104, R113 to R118). A scan for a read is its READ_RECORDS's own: one begins or goes on only where one is
under way already, and the read begins where its scan has ended.
-/
namespace Sys2Proof.Machine
open Sys2Proof.Laws

/-- The ring and the Reader are sound. -/
def State.Steady (s : State) : Prop := s.dbm.RingSound ∧ s.ReaderSound

/-- A scan with the purpose of `c` may be set: one that locates before a read only in the place of such a scan. -/
def State.Scans (c : Scan) (s : State) : Prop := s.Steady ∧ (c.purpose = .read → s.pu.locates = true)

theorem Leads.steady {P : State → Prop} {s t : State} (h : Leads P State.ReaderSound s t) (ring : P s → s.dbm.RingSound) :
    Leads P State.Steady s t := ⟨h.keeps, fun p => ⟨h.keeps.ring (ring p), h.holds p⟩⟩

theorem Keeps.steady {s t : State} (k : Keeps true s t) : Leads State.Steady State.Steady s t := (k.sound.mono And.right id).steady And.left

/-- A function of the scan's that gives the Reader nothing to do where the purpose may be kept. -/
theorem Leads.scans {c : Scan} {s t : State} (k : ∀ q : Bool, (q = true → c.purpose = .read → s.pu.locates = true) → Keeps q s t) :
    Leads (State.Scans c) State.Steady s t :=
  ⟨k false (by simp), fun x => ((k true (fun _ => x.2)).steady).holds x.1⟩

theorem Leads.steadyScans {Q : State → Prop} {c : Scan} {s t : State} (h : Leads State.Steady Q s t) : Leads (State.Scans c) Q s t :=
  h.mono And.left id

/-- The scan under way may be gone on with. -/
theorem State.Steady.scans {s : State} (h : s.Steady) {c : Scan} (hc : s.pu.scan = some c) : s.Scans c :=
  ⟨h, fun p => (pu_locates_iff _).mpr ⟨c, hc, p⟩⟩

@[simp] theorem clearFullMark_pu (s : State) (unknown : Bool) : (s.clearFullMark unknown).pu = s.pu := by
  unfold State.clearFullMark State.when
  split <;> rfl

@[simp] theorem scanStops_scan (s : State) : s.scanStops.pu.scan = none := by simp [State.scanStops]

section
variable {q : Bool} {a s : State}

/-! ### The scan's motion -/

/-- A scan set. -/
theorem Keeps.setScan (h : Keeps q a s) (c : Scan) (own : q = true → c.purpose = .read → s.pu.locates = true) :
    Keeps q a (s.onPu (fun u => { u with scan := some c })) :=
  h.onPuAt _ (fun hq e => own hq (by simpa using e))

/-- The command waits for the scan. -/
theorem Keeps.waitsForScan (h : Keeps q a s) : Keeps q a (s.onCu (fun u => { u with progress := .scan })) := by
  refine h.onCuAt _ rfl (fun _ => ?_)
  by_cases e : s.cu.progress = .scan
  · exact .inl e.symm
  · exact .inr (mayEnd_of_progress e)

theorem Keeps.scanFrom (h : Keeps q a s) (purpose : ScanFor) (entry : Option DirectoryEntry)
    (own : q = true → purpose = .read → s.pu.locates = true) : Keeps q a (s.scanFrom purpose entry) := by
  unfold State.scanFrom
  exact ((h.wfYield.setScan _ (fun hq e => by simpa using own hq e)).waitsForScan).setGoal _

theorem Keeps.scanFor (h : Keeps q a s) (purpose : ScanFor) (o : Nat) (own : q = true → purpose = .read → s.pu.locates = true) :
    Keeps q a (s.scanFor purpose o) := h.scanFrom _ _ own

theorem Keeps.scanEarlier (h : Keeps q a s) (c : Scan) (own : q = true → c.purpose = .read → s.pu.locates = true) :
    Keeps q a (s.scanEarlier c) := h.scanFrom _ _ own

theorem Keeps.scanStops (h : Keeps q a s) : Keeps q a s.scanStops := (h.onPuAt _ (fun _ => by simp)).setGoal _

theorem Keeps.positionKept (h : Keeps q a s) : Keeps q a s.positionKept := by
  unfold State.positionKept
  split
  · exact (h.onPu _ (fun _ => by rfl)).clearFullMark _
  · exact (h.onPu _ (fun _ => by rfl)).clearFullMark _
  · exact h.onPu _ (fun _ => by rfl)

theorem Keeps.positionProven (h : Keeps q a s) (d : Descriptor) : Keeps q a (s.positionProven d) := by
  have set := h.setPosition d.starting (some (d.dataset, d.start))
  unfold State.positionProven
  dsimp only
  split
  · exact set.clearFullMark _
  · exact set.clearFullMark _
  · exact set

theorem Keeps.provenBoundary (h : Keeps q a s) (c : Scan) : Keeps q a (s.provenBoundary c) := by
  unfold State.provenBoundary
  refine Keeps.ite (fun _ => h) (fun _ => ?_)
  split
  · exact Keeps.ite (fun _ => h.positionProven _) (fun _ => h.positionKept)
  · exact h.positionKept

theorem Keeps.scanFails (h : Keeps q a s) (c : Scan) : Keeps q a (s.scanFails c) := by
  have stopped := ((h.raise .mediumError).provenBoundary c).scanStops
  have may : (((s.raise .mediumError).provenBoundary c).scanStops).mayEnd := mayEnd_of_scan (by simp)
  unfold State.scanFails
  dsimp only
  split
  · exact stopped.settleFails (fun _ => may)
  all_goals exact stopped.complete _ _ (fun _ => may)

theorem Keeps.passAgain (h : Keeps q a s) (c : Scan) (seek : Loc) (own : q = true → c.purpose = .read → s.pu.locates = true) :
    Keeps q a (s.passAgain c seek) := by
  unfold State.passAgain
  refine Keeps.ite (fun _ => Keeps.setGoal (h.setScan _ ?_) _) (fun _ => h.scanFails c)
  exact own

theorem Keeps.repeatPass (h : Keeps q a s) (c : Scan) (n : Nat) (seek : Loc) (own : q = true → c.purpose = .read → s.pu.locates = true) :
    Keeps q a (s.repeatPass c n seek) := h.passAgain _ _ own

/-! ### A scan's outcome -/

theorem Keeps.positionEnds (h : Keeps q a s) (code : Code) (o residual : Nat) (anchor : Nat × Loc) :
    Keeps q a (s.positionEnds code o residual anchor) := by
  unfold State.positionEnds
  exact ((h.scanStops.setPosition _ _).clearFullMark _).complete _ _ (fun _ => mayEnd_of_scan (by simp [State.setPosition]))

theorem Keeps.eraseAtEnd (h : Keeps q a s) (may : q = true → s.mayEnd) : Keeps q a s.eraseAtEnd := by
  unfold State.eraseAtEnd
  split
  · exact Keeps.ite (fun _ => (h.setPosition _ _).complete _ _ may) (fun _ => (h.onWf _).eraseMark may)
  · exact h

theorem Keeps.writeAtEnd (h : Keeps q a s) : Keeps q a s.writeAtEnd := by
  unfold State.writeAtEnd
  split
  · next e => exact h.leaveRead.eraseAtEnd (fun _ => mayEnd_congr (by simp) (by simp) (mayEnd_of_command e (by simp)))
  · exact h.appendHere.takeUpWriting

theorem Keeps.spaceOn (h : Keeps q a s) (c : Scan) (fm : Nat) : Keeps q a (s.spaceOn c fm) := by
  have goOn (f : ScanFor) (other : f ≠ .read) : Keeps q a (s.onPu (fun u => { u with scan := some { c with purpose := f } })) :=
    h.setScan _ (fun _ e => absurd e other)
  have from_ (f : ScanFor) (other : f ≠ .read) (e : Option DirectoryEntry) : Keeps q a (s.scanFrom f e) :=
    h.scanFrom _ _ (fun _ x => absurd x other)
  unfold State.spaceOn
  dsimp only
  split
  · exact Keeps.ite (fun _ => goOn _ (by simp)) (fun _ => from_ _ (by simp) _)
  · refine Keeps.ite (fun _ => ?_) (fun _ => Keeps.ite (fun _ => h.positionEnds _ _ _ _) (fun _ => from_ _ (by simp) _))
    split
    · exact from_ _ (by simp) _
    · exact goOn _ (by simp)
  · exact goOn _ (by simp)
  · exact h

theorem Keeps.scanEndsShort (h : Keeps q a s) (c : Scan) (e : EodKnown) : Keeps q a (s.scanEndsShort c e) := by
  unfold State.scanEndsShort
  split
  · exact h.positionEnds _ _ _ _
  · exact (h.scanStops.setPosition _ _).complete _ _ (fun _ => mayEnd_of_scan (by simp [State.setPosition]))
  · exact h.scanStops.complete _ _ (fun _ => mayEnd_of_scan (by simp))
  · exact h.scanStops.settleFails (fun _ => mayEnd_of_scan (by simp))
  all_goals exact h.positionEnds _ _ _ _

end

/-- The read path discarded leaves no slot where the ring is sound and the buffer does not write. -/
theorem discardRead_empty {s : State} (other : s.dbm.direction ≠ .write) (ring : s.discardRead.dbm.RingSound) : s.discardRead.dbm.slots = [] := by
  cases e : s.dbm.direction with
  | read => exact discardRead_slots s e
  | write => exact absurd e other
  | neutral =>
    have same : s.discardRead = s := by simp [State.discardRead, e]
    rw [same] at ring ⊢
    exact ((ringSound_iff _).mp ring).2.2.1 e

@[simp] theorem discardRead_pu (s : State) : s.discardRead.pu = s.pu := by
  unfold State.discardRead
  split <;> simp

/-- No locate before a read is under way. -/
def State.Unscanned (s : State) : Prop := s.Steady ∧ s.pu.locates = false

/-- D is loaded alone: the buffer reads, with no slot yet (R16). -/
theorem Leads.readsAlone (s : State) (c : Cut) (other : s.dbm.direction ≠ .write) : Leads State.Unscanned State.Clear s
    (((s.discardRead.setDirection .read).onPu (fun u => { u with cut := some c })).onCu (fun u => { u with progress := .settleD })) := by
  refine ⟨?_, fun ⟨⟨ring, _⟩, scan⟩ => ⟨?_, ?_⟩⟩
  · exact (((Keeps.refl false s).discardRead.setDirection .read (fun r => .inl (discardRead_empty other r))).onPu _ (fun _ => by rfl)).onCuAt _ rfl (by simp)
  · simp [Dbm.holdsFailed, setDirection_dbm, discardRead_empty other ((Keeps.refl false s).discardRead.ring ring)]
  · simpa [Pu.locates] using scan

theorem Leads.settleD (s : State) (c : Cut) (seek : Loc) : Leads State.Unscanned State.Steady s (s.settleD c seek) := by
  have quiet {t : State} (k : Keeps true s t) : Leads State.Unscanned State.Steady s t := k.steady.mono And.left id
  unfold State.settleD
  refine Leads.ite (fun _ => quiet ((Keeps.refl true s).settleFresh c)) (fun _ => ?_)
  dsimp only
  split
  · exact quiet ((Keeps.refl true s).convertD _ _)
  · exact quiet (Keeps.refl true s)
  · next other _ =>
    exact ((Leads.readsAlone s c (fun w => other w)).trans (Leads.handOver _ _ _ _).toSound).steady (fun x => x.1.1)

/-! ### What a scan has decided -/

/-- The locate before a read has placed its object: the read begins there (R104). -/
theorem Leads.readPlaced (s : State) (c : Scan) (read : c.purpose = .read) (p : Nat × Loc) : Leads (State.Scans c) State.Steady s
    (((s.onPu (fun u => { u with scan := none, anchor := some p })).onCu (fun u => { u with progress := .reading })).handOver p.1 p.2 false) := by
  have ended : Leads (State.Scans c) State.Clear s
      ((s.onPu (fun u => { u with scan := none, anchor := some p })).onCu (fun u => { u with progress := .reading })) := by
    refine ⟨((Keeps.refl false s).onPuAt _ (by simp)).onCuAt _ rfl (by simp), fun x => ⟨fun f => ?_, rfl⟩⟩
    have := (((readerSound_iff s).mp x.1.2).1 f).2
    simp [x.2 read] at this
  exact (ended.trans (Leads.handOver _ _ _ _).toSound).steady (fun x => x.1.1)

theorem Leads.carryOut (s : State) (ended : Bool) (c : Scan) (v : Verdict) : Leads (State.Scans c) State.Steady s (s.carryOut ended c v) := by
  have quiet {t : State} (k : Keeps true s t) : Leads (State.Scans c) State.Steady s t := k.steady.steadyScans
  unfold State.carryOut
  split
  · exact quiet (Keeps.refl true s)
  · exact Leads.scans (fun _ own => (Keeps.refl _ s).scanEarlier c own)
  · exact Leads.ite (fun _ => quiet (Keeps.refl true s)) (fun _ => Leads.scans (fun _ own => (Keeps.refl _ s).repeatPass c _ _ own))
  · exact quiet ((Keeps.refl true s).spaceOn c _)
  · exact quiet ((Keeps.refl true s).positionEnds _ _ _ _)
  · have stopped : Leads (State.Scans c) State.Unscanned s s.scanStops :=
      ⟨(Keeps.refl false s).scanStops, fun x => ⟨(Keeps.refl true s).scanStops.steady.holds x.1, by simp [Pu.locates]⟩⟩
    exact stopped.trans (Leads.settleD _ _ _)
  · split
    · exact quiet ((Keeps.refl true s).positionEnds _ _ _ _)
    · next read => exact Leads.readPlaced s c read _
    · split
      · exact quiet ((Keeps.refl true s).scanStops.complete _ _ (fun _ => mayEnd_of_scan (by simp)))
      · exact quiet ((Keeps.refl true s).setScan _ (by simp))
    · exact quiet (Keeps.refl true s)

theorem Leads.decideScan (ended : Bool) (n : Nat) (s : State) : Leads State.Steady State.Steady s (State.decideScan ended n s) := by
  induction n generalizing s with
  | zero => exact Leads.refl _ _
  | succ n ih =>
    unfold State.decideScan
    split
    · exact Leads.refl _ _
    · next c hc =>
      have carried : Leads State.Steady State.Steady s (s.carryOut ended c (s.verdict c)) := (Leads.carryOut s ended c _).mono (fun x => x.scans hc) id
      exact Leads.ite (fun _ => carried.trans (ih _)) (fun _ => carried)

/-! ### End of data -/

theorem Leads.decideAtEnd (s : State) (e : EodKnown) : Leads State.Steady State.Steady s (s.decideAtEnd e) := by
  unfold State.decideAtEnd
  dsimp only
  refine (Leads.decideScan true 3 s).trans ?_
  generalize State.decideScan true 3 s = t
  split
  · next c hc =>
    have own {u : State} (k : ∀ q : Bool, (q = true → c.purpose = .read → t.pu.locates = true) → Keeps q t u) :
        Leads State.Steady State.Steady t u := (Leads.scans k).mono (fun x => x.scans hc) id
    refine Leads.ite (fun _ => Leads.refl _ _) (fun _ => ?_)
    split
    · exact own (fun _ x => (Keeps.refl _ t).repeatPass c _ _ x)
    · exact Leads.ite (fun _ => ((Keeps.refl true t).scanEndsShort c e).steady) (fun _ => own (fun _ x => (Keeps.refl _ t).scanEarlier c x))
    · exact ((Keeps.refl true t).scanEndsShort c e).steady
  · exact Leads.refl _ _

theorem Leads.scanAtEnd (s : State) (c : Scan) (e : EodKnown) : Leads State.Steady State.Steady s (s.scanAtEnd c e) := by
  have placed := (Keeps.refl true s).scanStops.setPosition e.object (some e.anchor)
  unfold State.scanAtEnd
  split
  · exact Leads.ite (fun _ => ((Keeps.refl true s).positionEnds _ _ _ _).steady) (fun _ => Leads.decideAtEnd s e)
  · refine Leads.ite (fun _ => ?_) (fun _ => Leads.decideAtEnd s e)
    dsimp only
    split
    · exact (placed.complete _ _ (fun _ => mayEnd_of_scan (by simp [State.setPosition]))).steady
    · exact placed.writeAtEnd.steady
  · exact Leads.ite (fun _ => (((Keeps.refl true s).scanStops.onPu _ (fun _ => by rfl)).complete _ _ (fun _ => mayEnd_of_scan (by simp))).steady)
      (fun _ => Leads.decideAtEnd s e)
  · exact Leads.decideAtEnd s e

/-- The scan set with its own purpose. -/
theorem Leads.setScan (s : State) (c d : Scan) (same : d.purpose = c.purpose) :
    Leads (State.Scans c) (State.Scans d) s (s.onPu (fun u => { u with scan := some d })) :=
  ⟨(Keeps.refl false s).setScan d (by simp),
   fun x => ⟨((Keeps.refl true s).setScan d (fun _ r => x.2 (same ▸ r))).steady.holds x.1, fun r => (pu_locates_iff _).mpr ⟨d, rfl, r⟩⟩⟩

theorem Leads.scanEnds (s : State) (c : Scan) (place : Loc) (pattern : Bool) : Leads (State.Scans c) State.Steady s (s.scanEnds c place pattern) := by
  have same : (if c.closedUnproven then c.passUnproven else c).purpose = c.purpose := by split <;> rfl
  unfold State.scanEnds
  dsimp only
  refine (Leads.setScan s c _ same).trans ?_
  generalize (if c.closedUnproven then c.passUnproven else c) = d
  generalize s.onPu (fun u => { u with scan := some d }) = t
  have known (e : EodKnown) (f : Pu → Pu) (scan : (f t.pu).scan = t.pu.scan) (p : Nat) :
      Leads (State.Scans d) State.Steady t (((t.onPu f).setEod p e).scanAtEnd d e) :=
    ((((Keeps.refl true t).onPuAt f (fun _ => by rw [scan]; exact id)).setEod p e).steady.trans (Leads.scanAtEnd _ d e)).steadyScans
  have again (n : Nat) (l : Loc) : Leads (State.Scans d) State.Steady t (t.repeatPass d n l) :=
    Leads.scans (fun _ own => (Keeps.refl _ t).repeatPass d n l own)
  split
  · exact (Leads.scanAtEnd t d _).steadyScans
  · split
    · exact Leads.ite (fun _ => known _ _ rfl _) (fun _ => Leads.scans (fun _ own => (Keeps.refl _ t).scanEarlier d own))
    · split
      · split
        · exact known _ _ rfl _
        · exact again _ _
      · exact again _ _

theorem Leads.scanIndication (s : State) (c : Scan) (place : Loc) (pattern : Bool) :
    Leads (State.Scans c) State.Steady s (s.scanIndication c place pattern) :=
  Leads.ite (fun _ => Leads.scans (fun _ own => (Keeps.refl _ s).passAgain c _ own)) (fun _ => Leads.scanEnds s c place pattern)

theorem Leads.closeScanCopy (s : State) (c : Scan) (k : Capture) : Leads (State.Scans c) State.Steady s (s.closeScanCopy c k) := by
  have proven (t : State) (p n f fm : Nat) (l : Loc) (d : Descriptor) : Leads State.Steady State.Steady t (match d.marks with
      | some ms => (t.proveDataset p n f fm l false).learnFilemarks p n (fm + ms.length)
      | none => t.proveDataset p n f fm l false) := by
    split
    · exact (((Keeps.refl true t).proveDataset _ _ _ _ _ _).learnFilemarks _ _ _).steady
    · exact ((Keeps.refl true t).proveDataset _ _ _ _ _ _).steady
  unfold State.closeScanCopy
  dsimp only
  split
  · exact ((Leads.setScan s c _ (by rfl)).mono id And.left).trans ((proven _ _ _ _ _ _ _).trans (Leads.decideScan false 3 _))
  · exact (Leads.setScan s c _ (by rfl)).mono id And.left

theorem Leads.scanRows (s : State) (c : Scan) (l : Loc) (rows : Vector (Option RowRead) 16) :
    Leads (State.Scans c) State.Steady s (s.scanRows c l rows) := by
  have keep (d : Scan) (same : d.purpose = c.purpose) : Leads (State.Scans c) (State.Scans d) s (s.onPu (fun u => { u with scan := some d })) :=
    Leads.setScan s c d same
  have kept (d : Scan) (same : d.purpose = c.purpose) : Leads (State.Scans c) State.Steady s (s.onPu (fun u => { u with scan := some d })) :=
    (keep d same).mono id And.left
  have takes (d : Scan) (l : Loc) (rs : List (Nat × RowRead)) : (d.takeRows l rs).purpose = d.purpose := by
    unfold Scan.takeRows
    dsimp only
    split <;> rfl
  unfold State.scanRows
  dsimp only
  refine Leads.ite (fun _ => kept _ (takes _ _ _)) (fun _ => Leads.ite (fun _ => kept _ rfl) (fun _ => ?_))
  split
  · exact (keep { c with blankRun := 0, blankStart := none } rfl).trans (Leads.scanIndication _ _ _ _)
  · exact Leads.ite (fun _ => kept _ rfl) (fun _ => Leads.ite (fun _ => kept _ (takes _ _ _))
      (fun _ => (keep { c with blankRun := 0, blankStart := none } rfl).trans (Leads.scanIndication _ _ _ _)))

theorem Leads.scanSeparator (s : State) (c : Scan) (l : Loc) : Leads (State.Scans c) State.Steady s (s.scanSeparator c l) := by
  unfold State.scanSeparator
  dsimp only
  split
  · exact (Leads.closeScanCopy s { c with blankRun := 0, blankStart := none, unseen := none, lastSep := s.after l } _).mono id id
  · exact (Leads.setScan s c _ (by rfl)).mono id And.left

theorem Leads.scanEndMet (s : State) (c : Scan) (place : Loc) (pattern : Bool) :
    Leads (State.Scans c) State.Steady s (s.scanEndMet c place pattern) := by
  unfold State.scanEndMet
  split
  · exact Leads.scanIndication s c _ _
  · exact Leads.scanIndication s c _ _

theorem Leads.scanBlank (s : State) (c : Scan) (l : Loc) : Leads (State.Scans c) State.Steady s (s.scanBlank c l) := by
  unfold State.scanBlank
  dsimp only
  exact Leads.ite (fun _ => (Leads.setScan s c _ (by rfl)).mono id And.left) (fun _ => (Leads.setScan s c _ (by rfl)).trans (Leads.scanEndMet _ _ _ _))

theorem Leads.scanWrapEnd (s : State) (wrap : Nat) : Leads State.Steady State.Steady s (s.scanWrapEnd wrap) := by
  unfold State.scanWrapEnd
  split
  · exact Leads.refl _ _
  · next c hc =>
    refine Leads.ite (fun _ => Leads.refl _ _) (fun _ => ?_)
    split
    · exact (Leads.scanIndication s c _ _).mono (fun x => x.scans hc) id
    · exact Leads.ite (fun _ => ((Keeps.refl true s).askWrapTurn _).steady) (fun _ => (Leads.scanEndMet s c _ _).mono (fun x => x.scans hc) id)

theorem Leads.scanPitch (s : State) (l : Loc) (p : PitchContent) : Leads State.Steady State.Steady s (s.scanPitch l p) := by
  unfold State.scanPitch
  split
  · exact Leads.refl _ _
  · next c hc =>
    refine Leads.ite (fun _ => Leads.refl _ _) (fun _ => ?_)
    have heard : Leads (State.Scans c) State.Steady s (match p with
        | .rowSet rows => s.scanRows c l rows
        | .separator => s.scanSeparator c l
        | .endPattern => s.scanEndMet { c with blankRun := 0, blankStart := none } l true
        | .blank => s.scanBlank c l) := by
      split
      · exact Leads.scanRows s c l _
      · exact Leads.scanSeparator s c l
      · exact (Leads.scanEndMet s { c with blankRun := 0, blankStart := none } l true).mono id id
      · exact Leads.scanBlank s c l
    exact (heard.mono (fun x => x.scans hc) id).trans (Leads.ite (fun _ => Leads.scanWrapEnd _ _) (fun _ => Leads.refl _ _))

/-- The scan's records changed, its purpose kept. -/
theorem Keeps.onScan {q : Bool} {a s : State} (h : Keeps q a s) (f : Scan → Scan) (same : ∀ c, (f c).purpose = c.purpose) :
    Keeps q a (s.onScan f) :=
  h.onPuAt _ (fun _ e => by
    cases hc : s.pu.scan with
    | none => simp [hc] at e
    | some c => simpa [hc, same] using e)

theorem Keeps.scanUnseen {q : Bool} {a s : State} (h : Keeps q a s) (l : Loc) : Keeps q a (s.scanUnseen l) :=
  h.onScan _ (fun c => by split <;> rfl)

theorem Keeps.scanAt {q : Bool} {a s : State} (h : Keeps q a s) (l : Loc) : Keeps q a (s.scanAt l) := by
  unfold State.scanAt
  split
  · exact Keeps.ite (fun _ => h.onScan _ (fun _ => rfl)) (fun _ => h)
  · exact h

end Sys2Proof.Machine
end

section
/-!
SUPPORT. What the cartridge's handling and the resets keep (R20, R123 to R130, R138 to R142).
-/
namespace Sys2Proof.Machine
open Sys2Proof.Laws

theorem mayEnd_of_load {s : State} (h : s.loadExecuting = true) : s.mayEnd := by
  simp only [State.loadExecuting, Bool.and_eq_true, beq_iff_eq] at h
  exact mayEnd_of_command h.1 (by simp)

theorem mayEnd_of_unload {s : State} (h : s.unldExecuting = true) : s.mayEnd := by
  simp only [State.unldExecuting, Bool.and_eq_true, beq_iff_eq] at h
  exact mayEnd_of_command h.1 (by simp)

/-- The Position Unit is at its reset values, so that no scan is under way. -/
theorem mayEnd_of_dropped {s t : State} (h : t.pu = s.dropVolume.pu ∨ t.pu.scan = none) : t.mayEnd :=
  mayEnd_of_scan (h.elim (fun e => by rw [e]; rfl) id)

@[simp] theorem setCartridge_pu (s : State) (c : Cartridge) (ph : Option Phase) : (s.setCartridge c ph).pu = s.pu := by
  unfold State.setCartridge State.when
  dsimp only
  split <;> rfl

@[simp] theorem faulted_scan (s : State) : s.faulted.pu.scan = none := rfl

section
variable {q : Bool} {a s : State}

theorem Keeps.setLeader (h : Keeps q a s) (l : Leader) : Keeps q a (s.setLeader l) := h.onSensors _

theorem Keeps.unloadedPu (h : Keeps q a s) : Keeps q a (s.onPu Pu.unloaded) := h.onPuAt _ (fun _ => by simp [Pu.unloaded, Pu.reset])

theorem Keeps.eject (h : Keeps q a s) : Keeps q a s.eject := by
  have out := (((h.setCartridge .ejected none).onRtc (fun r => { r with
      threadTimer := none, windTimer := none, threader := .idle, goal := .none }) (fun _ => by simp)).unloadedPu).onWf
    (fun w => { w with volumeFull := none })
  unfold State.eject
  exact Keeps.when _ out _ (fun unld => out.complete _ _ (fun _ => mayEnd_of_unload unld))

theorem Keeps.beginThreading (h : Keeps q a s) : Keeps q a s.beginThreading := by
  unfold State.beginThreading
  exact ((h.setCartridge _ _).onRtc _ (fun _ => by simp)).setLeader _

theorem Keeps.beginTensioning (h : Keeps q a s) (for_ : TensionFor) : Keeps q a (s.beginTensioning for_) := by
  unfold State.beginTensioning
  exact (h.setCartridge _ _).onRtc _ (fun _ => by simp)

theorem Keeps.seatedByType (h : Keeps q a s) (t : TypeCode) : Keeps q a (s.seatedByType t) := by
  unfold State.seatedByType
  split
  · exact h.setCartridge _ _
  · exact h.setCartridge _ _
  · exact h.beginThreading
  · exact (h.setCartridge _ _).raise _

theorem Keeps.beginReturn (h : Keeps q a s) : Keeps q a s.beginReturn := by
  unfold State.beginReturn
  exact (h.onRtc _ (fun _ => by simp)).setLeader _

theorem Keeps.beginUnthread (h : Keeps q a s) : Keeps q a s.beginUnthread := (h.setCartridge _ _).beginReturn

theorem Keeps.faulted (h : Keeps q a s) : Keeps q a s.faulted := by
  unfold State.faulted
  exact ((h.setCartridge _ _).onRtc _ (fun _ => by simp)).dropVolume

theorem Keeps.threadFault (h : Keeps q a s) : Keeps q a s.threadFault := by
  have fault := Keeps.when s.unldExecuting (h.faulted.raise .threadFault) (·.onPu Pu.unloaded) (fun _ => (h.faulted.raise _).unloadedPu)
  unfold State.threadFault
  refine Keeps.when _ fault _ (fun _ => fault.complete _ _ (fun _ => mayEnd_of_scan ?_))
  cases s.unldExecuting <;> simp [Pu.unloaded, Pu.reset]

theorem Keeps.recoverUnthread (h : Keeps q a s) (may : q = true → s.mayEnd) : Keeps q a s.recoverUnthread := by
  have begun := h.onCuAt (fun c => { c with progress := .sequence }) rfl (fun hq => .inr (may hq))
  unfold State.recoverUnthread
  exact Keeps.ite (fun _ => begun.eject) (fun _ => begun.onRtc _ (fun _ => by simp))

theorem Keeps.threadExpires (h : Keeps q a s) : Keeps q a s.threadExpires := by
  unfold State.threadExpires
  refine Keeps.ite (fun _ => h) (fun _ => ?_)
  split
  · exact h.onRtc _ (fun _ => by simp)
  · exact h.onRtc _ (fun _ => by simp)
  · exact h.threadFault

theorem Keeps.leaderTakenUp (h : Keeps q a s) : Keeps q a s.leaderTakenUp := by
  unfold State.leaderTakenUp
  exact Keeps.ite (fun _ => (h.setLeader _).beginTensioning _) (fun _ => h.setLeader _)

theorem Keeps.leaderIsHome (h : Keeps q a s) : Keeps q a s.leaderIsHome := by
  unfold State.leaderIsHome
  refine Keeps.ite (fun _ => h.setLeader _) (fun _ => ?_)
  split
  · exact ((h.setLeader _).onRtc _ (fun _ => by simp)).setLeader _
  · exact (h.setLeader _).eject
  · exact h.setLeader _

theorem Keeps.tensioned (h : Keeps q a s) (place : Nat) : Keeps q a (s.tensioned place) := by
  have tight := h.onRtc (fun r => { r with
      tensionTimer := none, armed := true, headWrap := some 0, stepTo := none, place := some place, moved := false }) (fun _ => by simp)
  unfold State.tensioned
  refine Keeps.ite (fun _ => h) (fun _ => ?_)
  dsimp only
  split
  · exact (tight.setCartridge _ _).beginHeaderRead
  · exact ((tight.setCartridge _ _).onRtc _ (fun _ => by simp)).setGoal _
  · exact (tight.setCartridge _ _).setGoal _

theorem Keeps.tensionExpires (h : Keeps q a s) : Keeps q a s.tensionExpires := by
  have fault := (h.faulted.onRtc (fun r => { r with stepTo := none }) (fun _ => by simp)).raise .tensionFault
  have may : ((s.faulted.onRtc (fun r => { r with stepTo := none })).raise .tensionFault).mayEnd := mayEnd_of_scan (by simp)
  unfold State.tensionExpires
  exact Keeps.ite (fun _ => h) (fun _ => Keeps.ite (fun _ => fault.complete _ _ (fun _ => may))
    (fun _ => Keeps.ite (fun _ => fault.recoverUnthread (fun _ => may)) (fun _ => fault)))

theorem Keeps.rewound (h : Keeps q a s) : Keeps q a s.rewound := by
  unfold State.rewound
  exact Keeps.ite (fun _ => Keeps.ite (fun _ => ((h.setCartridge _ _).onRtc _ (fun _ => by simp)).beginHeader _ _)
    (fun _ => ((h.setCartridge _ _).onRtc _ (fun _ => by simp)).beginUnthread))
    (fun _ => h.beginUnthread)

theorem Keeps.wholeMetre (h : Keeps q a s) : Keeps q a s.wholeMetre.1 := by
  unfold State.wholeMetre
  split
  · split
    · have counted := h.onRtc (fun r => { r with runMetres := satAdd Config.max16 r.runMetres 1 }) (fun _ => by simp)
      exact counted
    · exact h
  · exact (h.onRtc _ (fun _ => by simp)).countMetre
  · exact (h.onRtc _ (fun _ => by simp)).countMetre
  · exact h

theorem Keeps.endRun (h : Keeps q a s) : Keeps q a s.endRun := (h.setCartridge _ _).setGoal _

theorem Keeps.runCompletes (h : Keeps q a s) : Keeps q a s.runCompletes := h.endRun.creditCleaning

theorem Keeps.runExpires (h : Keeps q a s) : Keeps q a s.runExpires := h.endRun.raise _

theorem Keeps.travelled (n : Nat) (h : Keeps q a s) : Keeps q a (State.travelled n s) := by
  induction n generalizing s with
  | zero => exact h
  | succ n ih =>
    have metre := (h.onRtc (fun r => { r with remainder := r.remainder - 1000 }) (fun _ => by simp)).wholeMetre
    unfold State.travelled
    exact Keeps.ite (fun _ => h) (fun _ => ih (Keeps.when _ metre _ (fun _ => metre.runCompletes)))

theorem Keeps.travel (h : Keeps q a s) (mm : Nat) : Keeps q a (s.travel mm) := by
  unfold State.travel
  exact Keeps.ite (fun _ => Keeps.travelled _ (h.onRtc _ (fun _ => by simp))) (fun _ => h)

theorem Keeps.foundCartridge (h : Keeps q a s) : Keeps q a s.foundCartridge := by
  unfold State.foundCartridge
  refine Keeps.ite (fun _ => h.setCartridge _ _) (fun _ => Keeps.ite (fun _ => h.seatedByType _) (fun _ => ?_))
  dsimp only
  split
  · exact h.setCartridge _ _
  · exact h.setCartridge _ _
  · exact (h.setCartridge _ _).beginTensioning _
  · exact ((h.setCartridge _ _).beginTensioning _).raise _

end

/-! ### The blocks at reset -/

theorem Eu.reset_sound : Eu.reset.Sound := by
  unfold Eu.Sound
  decide

theorem Cu.reset_sound : Cu.reset.Sound := by simp [Cu.Sound, Cu.reset]

theorem Hm.reset_sound : Hm.reset.Sound := by
  unfold Hm.Sound
  decide

theorem Sv.reset_sound : Sv.reset.Sound := by simp [Sv.Sound, Sv.reset]

theorem Rtc.found_sound (x : Sensors) (turning : Bool) : (Rtc.found x turning).Sound := by
  cases turning <;> simp [Rtc.Sound, Rtc.found, Rtc.reset, Timer.start]

theorem Dbm.reset_ringSound (m : Memory) : (Dbm.reset m).RingSound := Dbm.ringSound_of_empty (by simp [Dbm.reset]) rfl

/-- Every block at its reset value, the Head Monitor and the DRAM but for what a reset leaves of them. -/
theorem Keeps.ofReset {q : Bool} {a t : State} (spu : t.spu.credits = 0 ∧ t.spu.readCredits = 0 ∧ t.spu.linkErrors = 0) (cu : t.cu = .reset)
    (dbm : t.dbm = .reset a.dbm.dram) (rdr : t.rdr = .reset) (pu : t.pu = .reset) (rtc : ∃ x b, t.rtc = Rtc.found x b) (sv : t.sv = .reset)
    (eu : t.eu = .reset) (hm : a.hm.Sound → t.hm.Sound) : Keeps q a t := by
  obtain ⟨x, b, rtc⟩ := rtc
  refine ⟨fun _ => eu ▸ Eu.reset_sound, fun w => by rw [dbm]; exact w, fun _ => cu ▸ Cu.reset_sound, hm, fun _ => sv ▸ Sv.reset_sound,
    fun _ => rtc ▸ Rtc.found_sound x b, fun _ => ?_, fun _ => dbm ▸ Dbm.reset_ringSound _, fun _ => ⟨?_, ?_, ?_, ?_⟩⟩
  · obtain ⟨hc, hr, hl⟩ := spu
    simp [State.PortSound, hc, hr, hl, dbm, Dbm.reset]
  · simp [Dbm.holdsFailed, dbm, Dbm.reset]
  · exact fun _ => rdr ▸ rfl
  · simp [pu, Pu.locates, Pu.reset]
  · simp [pu, Pu.locates, Pu.reset]

theorem Keeps.deviceReset {q : Bool} {a s : State} (h : Keeps q a s) (x : Sensors) : Keeps q a (s.deviceReset x) := by
  have fresh : Keeps q s { s.cutOff with spu := { Spu.reset with out := s.cutOff.spu.out }, cu := .reset, rc := .reset, rx := .reset,
                                         dbm := .reset s.cutOff.dbm.dram, wf := .reset, rdr := .reset, sm := .reset, pu := .reset,
                                         rtc := Rtc.found x s.rtc.turning, sv := .reset, eu := .reset, sensors := x } :=
    Keeps.ofReset ⟨rfl, rfl, rfl⟩ rfl (by simp) rfl rfl ⟨x, _, rfl⟩ rfl rfl (by simp)
  exact h.trans (fresh.rejudged (fun m => { m with policy := .default }) rfl rfl).foundCartridge

theorem Keeps.powerOn {q : Bool} {a s : State} (h : Keeps q a s) (x : Sensors) : Keeps q a (s.powerOn x) := by
  refine h.trans (Keeps.foundCartridge ?_)
  exact Keeps.ofReset ⟨rfl, rfl, rfl⟩ rfl (by simp) rfl rfl ⟨x, false, rfl⟩ rfl rfl (fun _ => Hm.reset_sound)

end Sys2Proof.Machine
end

section
/-!
SUPPORT. What the Command Unit's execution keeps (R14, R15, R107, R115 to R121, R138, R139, R175, R182).
-/
namespace Sys2Proof.Machine
open Sys2Proof.Laws

/-! ### Where no locate before a read is under way -/

theorem State.Unscanned.mayEnd {s : State} (h : s.Unscanned) : s.mayEnd := by simp [State.mayEnd, h.2]

/-- A function that gives the Reader nothing to do where the executing command may end. -/
theorem Leads.unscanned {s t : State} (k : ∀ q : Bool, (q = true → s.mayEnd) → Keeps q s t) : Leads State.Unscanned State.Unscanned s t := by
  refine ⟨k false (by simp), fun x => ?_⟩
  have quiet := k true (fun _ => x.mayEnd)
  refine ⟨quiet.steady.holds x.1, ?_⟩
  by_contra l
  exact absurd ((quiet.calm rfl).scan (by simpa using l)) (by simp [x.2])

theorem Keeps.unscanned {s t : State} (k : Keeps true s t) : Leads State.Unscanned State.Unscanned s t :=
  Leads.unscanned (fun q _ => by cases q with
    | true => exact k
    | false => exact k.loud)

theorem Leads.toSteady {P : State → Prop} {s t : State} (h : Leads P State.Unscanned s t) : Leads P State.Steady s t := h.mono id And.left

/-- A command that waits for no scan: no locate before a read is under way. -/
theorem State.Steady.unscanned {s : State} (h : s.Steady) (other : s.cu.locates = false) : s.Unscanned := by
  refine ⟨h, ?_⟩
  by_contra l
  simp [(((readerSound_iff s).mp h.2).2 (by simpa using l)).2] at other

theorem cu_locates_of_progress {c : Cu} (h : c.progress ≠ .scan) : c.locates = false := by
  unfold Cu.locates
  split <;> simp [h]

theorem clear_of_empty {s : State} (empty : s.dbm.slots = []) (other : s.pu.locates = false) : s.Clear :=
  ⟨by simp [Dbm.holdsFailed, empty], other⟩

section
variable {q : Bool} {a s : State}

theorem Keeps.setProgress (h : Keeps q a s) (p : Progress) (may : q = true → s.mayEnd) : Keeps q a (s.setProgress p) :=
  h.onCuAt _ rfl (fun hq => .inr (may hq))

/-! ### Own work of the commands -/

theorem Keeps.runLoad (h : Keeps q a s) (may : q = true → s.mayEnd) : Keeps q a s.runLoad := by
  have start := (h.loadBegins.onRtc (fun r => { r with loadMetres := 0, remainder := 0 }) (fun _ => by simp)).setProgress .sequence
    (fun hq => mayEnd_congr (s := s) rfl rfl (may hq))
  unfold State.runLoad
  dsimp only
  split
  · exact h.complete _ _ may
  · exact start.beginThreading
  · exact start.beginTensioning _
  · exact h.complete _ _ may

theorem Keeps.runUnld (h : Keeps q a s) (may : q = true → s.mayEnd) : Keeps q a s.runUnld := by
  have left := h.leaveRead.onWf (fun w => { w with volumeFull := none })
  have may (hq : q = true) : (s.leaveRead.onWf (fun w => { w with volumeFull := none })).mayEnd := mayEnd_congr (by simp) (by simp) (may hq)
  unfold State.runUnld
  dsimp only
  split
  · exact (left.setProgress _ may).eject
  · exact left.unloadedPu.complete _ _ (fun _ => mayEnd_of_scan rfl)
  · exact left.recoverUnthread may
  · exact (left.setProgress _ may).beginTensioning _
  · exact (((left.setProgress _ may).setCartridge _ _).wfYield.onRtc _ (fun _ => by simp)).setGoal _
  · exact left.complete _ _ may

theorem Keeps.runRwnd (h : Keeps q a s) (may : q = true → s.mayEnd) : Keeps q a s.runRwnd := by
  unfold State.runRwnd
  exact (((h.leaveRead.wfYield.onPu (fun u => { u with partition := 0, object := 0, anchor := some (0, ⟨0, Config.headerZone⟩) }) (fun _ => by rfl)).clearFullMark
    false).setProgress _ (fun hq => mayEnd_congr (by simp [State.clearFullMark, State.when, apply_ite]) (by simp) (may hq))).setGoal _

theorem Keeps.shuttleToEnd (h : Keeps q a s) (e : EodKnown) (code : Code) (may : q = true → s.mayEnd) : Keeps q a (s.shuttleToEnd e code) :=
  (h.wfYield.setProgress _ (fun hq => mayEnd_congr (by simp) (by simp) (may hq))).setGoal _

theorem Keeps.runLoct (h : Keeps q a s) (p o : Nat) (may : q = true → s.mayEnd) : Keeps q a (s.runLoct p o) := by
  have there := h.leaveRead.wfYield.onPu (fun u => { u with cameFrom := u.partition, partition := p }) (fun _ => by rfl)
  unfold State.runLoct
  dsimp only
  split
  · exact Keeps.ite (fun _ => there.shuttleToEnd _ _ (fun hq => mayEnd_congr (by simp) (by simp) (may hq))) (fun _ => there.scanFor _ _ (by simp))
  · exact there.scanFor _ _ (by simp)

theorem Keeps.seekD (h : Keeps q a s) : Keeps q a s.seekD := (h.dropLoading.onRdr _ (fun _ _ => rfl)).scanFor _ _ (by simp)

theorem Keeps.checkedWrite (h : Keeps q a s) (may : q = true → s.mayEnd) : Keeps q a s.checkedWrite := by
  unfold State.checkedWrite
  split
  · exact (h.leaveRead.onRdr _ (fun _ _ => rfl)).scanFor _ _ (by simp)
  · split
    · exact h.complete _ _ may
    · exact Keeps.ite (fun _ => h.writeAtEnd) (fun _ => h.seekD)

theorem Keeps.runEras (h : Keeps q a s) (may : q = true → s.mayEnd) : Keeps q a s.runEras :=
  h.leaveRead.checkedWrite (fun hq => mayEnd_congr (by simp) (by simp) (may hq))

theorem Keeps.runDpar (h : Keeps q a s) (count : Nat) (sizes : List Nat) (may : q = true → s.mayEnd) : Keeps q a (s.runDpar count sizes) := by
  unfold State.runDpar
  split
  · exact ((h.leaveRead.wfYield.setPartitions _).setProgress _
      (fun hq => mayEnd_congr (s := s) (by simp [State.setPartitions]) (by simp [State.setPartitions]) (may hq))).beginHeader _ _
  · exact h.complete _ _ may

end

theorem Leads.runSpac (s : State) (k : SpaceKind) (n : Int) : Leads State.Unscanned State.Steady s (s.runSpac k n) := by
  have left : Leads State.Unscanned State.Unscanned s s.leaveRead := (Keeps.refl true s).leaveRead.unscanned
  have ends (t : State) (e : EodKnown) (code : Code) : Leads State.Unscanned State.Steady t (t.shuttleToEnd e code) :=
    (Leads.unscanned (fun _ may => (Keeps.refl _ t).shuttleToEnd e code may)).toSteady
  have places (t : State) (o : Nat) : Leads State.Unscanned State.Steady t (t.scanFor (.place o) o) :=
    ((Keeps.refl true t).scanFor _ _ (by simp)).unscanned.toSteady
  unfold State.runSpac
  dsimp only
  refine left.trans ?_
  split
  · split
    · exact ends _ _ _
    · exact places _ _
  · refine Leads.ite (fun _ => (Leads.unscanned (fun _ may => (Keeps.refl _ _).complete _ _ may)).toSteady) (fun _ => ?_)
    split
    · exact Leads.ite (fun _ => ends _ _ _) (fun _ => (places _ _).trans (Leads.decideScan _ _ _))
    · exact places _ _

/-! ### READ_RECORDS's own work -/

theorem scanFor_frame (s : State) (purpose : ScanFor) (o : Nat) : (s.scanFor purpose o).dbm = s.dbm ∧ (s.scanFor purpose o).rdr = s.rdr
    ∧ (s.scanFor purpose o).cu = { s.cu with progress := .scan } := by
  simp [State.scanFor, State.scanFrom]

/-- A locate before a read begins: no slot is FAILED and the Reader is stopped (R104). -/
theorem Leads.locatesForRead (s : State) (o : Nat) (f : Rdr → Rdr) (calm : (f s.rdr).calm = true)
    (reads : ∃ n limit : Nat, s.executing = some (.rrec n limit)) :
    Leads State.Clear State.ReaderSound s ((s.onRdr f).scanFor .read o) := by
  refine ⟨(Leads.onRdr s f).keeps.scanFor _ _ (by simp), fun c => ?_⟩
  obtain ⟨dbm, rdr, cu⟩ := scanFor_frame (s.onRdr f) .read o
  refine (readerSound_iff _).mpr ⟨fun failed => absurd (by rw [dbm] at failed; exact failed) c.1, fun _ => ⟨by rw [rdr]; exact calm, ?_⟩⟩
  refine (executing_rrec_iff _).mp ⟨by rw [cu], ?_⟩
  obtain ⟨n, limit, e⟩ := reads
  refine ⟨n, limit, ?_⟩
  simp only [State.executing, cu] at e ⊢
  exact e

theorem Leads.runRrec (s : State) (reads : ∃ n limit : Nat, s.executing = some (.rrec n limit)) (other : s.dbm.direction ≠ .write) :
    Leads State.Unscanned State.Steady s s.runRrec := by
  have turned (r : s.dbm.RingSound) : s.dbm.slots = [] ∨ s.dbm.direction = .read := by
    cases e : s.dbm.direction with
    | read => exact .inr rfl
    | write => exact absurd e other
    | neutral => exact .inl (((ringSound_iff _).mp r).2.2.1 e)
  have ahead := ((Keeps.refl true s).setDirection .read turned).onRdr (fun r => { r with readAhead := true }) (fun _ => id)
  have executing : ((s.setDirection .read).onRdr (fun r => { r with readAhead := true })).executing = s.executing := executing_congr (by simp)
  unfold State.runRrec
  dsimp only
  split
  · exact ahead.unscanned.trans (Leads.unscanned (fun _ may => (Keeps.refl _ _).setProgress _ may)).toSteady
  · next none_ =>
    have clear : Leads State.Unscanned State.Clear s ((s.setDirection .read).onRdr (fun r => { r with readAhead := true })) := by
      refine ⟨ahead.loud, fun x => ?_⟩
      refine clear_of_empty ?_ (by simpa using x.2)
      rw [onRdr_dbm, setDirection_dbm]
      rcases turned x.1.1 with e | e
      · exact e
      · simp only [e, beq_self_eq_true, Bool.true_and, Bool.or_eq_true, Bool.not_eq_true', not_or, beq_iff_eq] at none_
        simpa using none_.1.1
    refine Leads.ite (fun _ => ahead.unscanned.trans (Leads.unscanned (fun _ may => (Keeps.refl _ _).complete _ _ may)).toSteady) (fun _ => ?_)
    have given (f : Rx → Rx) := clear.trans ((Keeps.refl true _).onRx f).clear
    split
    · refine Leads.steady (Leads.toSound ?_) (fun x => x.1.1)
      exact (given _).trans (((Leads.clear (fun _ c => (Keeps.refl _ _).setProgress _ (fun hq => (c hq).mayEnd))).trans (Leads.onRdr _ _)).trans (Leads.handOver _ _ _ _))
    · refine Leads.steady ((given _).trans (Leads.locatesForRead _ _ _ rfl ?_)) (fun x => x.1.1)
      obtain ⟨n, limit, e⟩ := reads
      exact ⟨n, limit, executing.trans e⟩

/-- A command's own work; a read begins only where the buffer does not write. -/
theorem Leads.ownWork (s : State) (reads : s.dbm.direction = .write → ∀ n limit : Nat, s.executing ≠ some (.rrec n limit)) :
    Leads State.Unscanned State.Steady s s.ownWork := by
  have quiet {t : State} (k : ∀ q : Bool, (q = true → s.mayEnd) → Keeps q s t) : Leads State.Unscanned State.Steady s t :=
    (Leads.unscanned k).toSteady
  unfold State.ownWork
  split
  · exact quiet (fun _ may => (Keeps.refl _ s).runLoad may)
  · exact quiet (fun _ may => (Keeps.refl _ s).runUnld may)
  · exact quiet (fun _ may => (Keeps.refl _ s).runRwnd may)
  · exact quiet (fun _ may => (Keeps.refl _ s).runLoct _ _ may)
  · exact Leads.runSpac s _ _
  · exact quiet (fun _ may => (Keeps.refl _ s).checkedWrite may)
  · exact quiet (fun _ may => (Keeps.refl _ s).checkedWrite may)
  · next e => exact Leads.runRrec s ⟨_, _, e⟩ (fun w => reads w _ _ e)
  · exact quiet (fun _ may => (Keeps.refl _ s).runEras may)
  · exact quiet (fun _ may => (Keeps.refl _ s).runDpar _ _ may)
  · exact quiet (fun _ may => (Keeps.refl _ s).complete _ _ may)
  · exact quiet (fun _ _ => Keeps.refl _ s)

/-! ### The flush (R14, R15) -/

theorem Leads.beginFlush (s : State) (p : Progress) : Leads State.Unscanned State.Unscanned s (s.beginFlush p) :=
  (Keeps.refl true s).sealForCause.unscanned.trans (Leads.unscanned (fun _ may => (Keeps.refl _ _).setProgress p may))

theorem Leads.flushFirst (s : State) : Leads State.Unscanned State.Steady s s.flushFirst := by
  unfold State.flushFirst
  exact Leads.ite (fun _ => (Leads.beginFlush s _).toSteady) (fun other => Leads.ownWork s (fun w => absurd (by simpa using w) other))

/-- The executing command ends where no locate is under way. -/
theorem Leads.complete (s : State) (code : Code) (res : Results) : Leads State.Unscanned State.Unscanned s (s.complete code res) :=
  Leads.unscanned (fun _ may => (Keeps.refl _ s).complete code res may)

theorem Leads.flushHere (s : State) : Leads State.Unscanned State.Unscanned s s.flushHere :=
  Leads.ite (fun _ => Leads.beginFlush s _) (fun _ => Leads.complete s _ _)

@[simp] theorem wfStop_dbm (s : State) : s.wfStop.dbm = s.dbm := by simp [State.wfStop, State.stage]

/-- The direction set NEUTRAL with the write path written out. -/
theorem Keeps.writtenOut {q : Bool} {a s : State} (h : Keeps q a s) (empty : s.dbm.slots = []) : Keeps q a (s.wfStop.setDirection .neutral) :=
  h.wfStop.setDirection _ (fun _ => .inl (by simpa using empty))

theorem Leads.flushDone (s : State) (empty : s.dbm.slots = []) : Leads State.Unscanned State.Steady s s.flushDone :=
  ((Keeps.refl true s).writtenOut empty).unscanned.trans (Leads.ownWork _ (fun w => by simp [setDirection_dbm] at w))

theorem Leads.flushedHere (s : State) : Leads State.Unscanned State.Unscanned s s.flushedHere := by
  unfold State.flushedHere
  exact (Leads.complete s _ _).trans (Leads.ite (fun _ => Leads.refl _ _) (fun _ => ((Keeps.refl true _).backhitch _).unscanned))

theorem Leads.erased (s : State) (empty : s.dbm.slots = []) : Leads State.Unscanned State.Unscanned s s.erased := by
  unfold State.erased
  exact (((Keeps.refl true s).writtenOut empty).setPosition _ _).unscanned.trans (Leads.complete _ _ _)

theorem Keeps.markNow {q : Bool} {a s : State} (h : Keeps q a s) : Keeps q a s.markNow := by
  unfold State.markNow
  exact Keeps.ite (fun _ => h.beginHeader _ _) (fun _ => h.beginMark _ _)

theorem writtenOut_slots {s : State} (h : s.writtenOut = true) : s.dbm.slots = [] := by
  simp only [State.writtenOut, Bool.and_eq_true, List.isEmpty_iff] at h
  exact h.1

theorem Leads.advanceOnce (s : State) : Leads State.Steady State.Steady s s.advanceOnce := by
  unfold State.advanceOnce
  dsimp only
  refine (Keeps.refl true s).wfKick.steady.trans ?_
  generalize s.wfKick = t
  have waits (p : Progress) (e : t.cu.progress = p) (other : p ≠ .scan) (u v : State) (done : t.dbm.slots = [] → Leads State.Unscanned State.Steady t u)
      (mark : Leads State.Unscanned State.Steady t v) :
      Leads State.Steady State.Steady t (if (!t.writtenOut) = true then t else if t.wf.eodPending = true then v else u) := by
    have unscanned (x : t.Steady) : t.Unscanned := x.unscanned (cu_locates_of_progress (by simpa [e] using other))
    refine Leads.ite (fun _ => Leads.refl _ _) (fun out => Leads.ite (fun _ => mark.mono unscanned id) (fun _ => (done ?_).mono unscanned id))
    exact writtenOut_slots (by simpa using out)
  have mark : Leads State.Unscanned State.Steady t t.markNow := (Keeps.refl true t).markNow.unscanned.toSteady
  split
  · next e => exact waits _ e (by simp) _ _ (Leads.flushDone t) mark
  · next e => exact waits _ e (by simp) _ _ (fun _ => (Leads.flushedHere t).toSteady) mark
  · next e => exact waits _ e (by simp) _ _ (fun empty => (Leads.erased t empty).toSteady) mark
  · split
    · exact (Keeps.runFilemarks _ (Keeps.refl true t)).wfKick.steady
    · exact Leads.refl _ _
  · exact Leads.refl _ _

theorem Leads.advance (s : State) : Leads State.Steady State.Steady s s.advance := (Leads.advanceOnce s).trans (Leads.advanceOnce _)

/-! ### Beginning execution (R175) -/

theorem Leads.begin (s : State) : Leads State.Unscanned State.Steady s s.begin := by
  have own {c : Command} (e : s.executing = some c) (other : ∀ n limit : Nat, c ≠ .rrec n limit) :
      Leads State.Unscanned State.Steady s s.ownWork := Leads.ownWork s (fun _ n limit x => other n limit (by simpa [e] using x))
  have ends (code : Code) (res : Results) : Leads State.Unscanned State.Steady s (s.complete code res) := (Leads.complete s code res).toSteady
  unfold State.begin
  split
  · next e => exact own e (by simp)
  · next e => exact Leads.ite (fun _ => Leads.flushFirst s) (fun _ => own e (by simp))
  · exact Leads.ite (fun _ => ends _ _) (fun _ => Leads.flushFirst s)
  · next e =>
    split
    · exact ends _ _
    · exact own e (by simp)
  · next e =>
    refine Leads.ite (fun _ => (Leads.flushHere s).toSteady) (fun _ => ?_)
    split
    · exact ends _ _
    · exact own e (by simp)
  · exact (Leads.flushHere s).toSteady
  · split
    · exact ends _ _
    · split
      · exact ends _ _
      · exact Leads.flushFirst s
  · split
    · exact ends _ _
    · exact Leads.flushFirst s
  · exact Leads.flushFirst s
  · exact Leads.refl State.Unscanned s |>.toSteady

/-- Before the head of the queue begins no command executes, and so no locate is under way. -/
theorem Leads.beginHead (s : State) (may : s.mayBegin = true) : Leads State.Steady State.Unscanned s (s.onCu Cu.beginHead) := by
  obtain ⟨c, rest, hq, waits⟩ : ∃ c rest, s.cu.queue = c :: rest ∧ c.begun = false := by
    unfold State.mayBegin at may
    split at may
    · next c rest hq => exact ⟨c, rest, hq, by simp only [Bool.and_eq_true, Bool.not_eq_true'] at may; exact may.1⟩
    · simp at may
  have cu : Cu.beginHead s.cu = { s.cu with queue := { c with begun := true } :: rest, progress := .none, count := 0, finals := 0 } := by
    simp [Cu.beginHead, hq]
  have keeps : Keeps false s (s.onCu Cu.beginHead) := by
    refine ⟨id, id, fun x => ?_, id, id, id, id, id, by simp⟩
    obtain ⟨hl, hn, hz, hb⟩ := x
    rw [onCu_cu, cu]
    rw [hq] at hl hn hz hb
    exact ⟨by simpa using hl, by simpa using hn, by simpa using hz, by simpa using hb⟩
  have scan (x : s.Steady) : s.pu.locates = false := (x.unscanned (by simp [Cu.locates, hq, waits])).2
  refine ⟨keeps, fun x => ⟨⟨keeps.ring x.1, (readerSound_iff _).mpr ⟨fun f => ?_, fun l => ?_⟩⟩, scan x⟩⟩
  · exact ((readerSound_iff s).mp x.2).1 f
  · have := scan x
    simp only [onCu_pu] at l
    simp [this] at l

theorem Leads.beginsExecution (s : State) : Leads State.Steady State.Steady s s.beginsExecution := by
  unfold State.beginsExecution
  refine Leads.ite (fun _ => Leads.refl _ _) (fun may => ?_)
  dsimp only
  refine (Leads.beginHead s (by simpa using may)).trans ?_
  split
  · exact (Leads.unscanned (fun _ may => (Keeps.refl _ _).reportDeferred may)).toSteady
  · exact Leads.ite (fun _ => (Leads.begin _).trans (Leads.advance _)) (fun _ => (Leads.complete _ _ _).toSteady)
  · exact (Leads.refl State.Unscanned _).toSteady

end Sys2Proof.Machine
end

section
/-!
SUPPORT. What the tape at rest, the emergency stop, ABORT and the Stream Port keep (R115, R129, R133, R138, R139, R171 to R190).
-/
namespace Sys2Proof.Machine
open Sys2Proof.Laws

section
variable {q : Bool} {a s : State}

/-! ### The tape at rest -/

theorem Keeps.shuttleDone (h : Keeps q a s) : Keeps q a s.shuttleDone := by
  unfold State.shuttleDone
  split
  · next e => exact h.complete _ _ (fun _ => mayEnd_of_progress (by simp [e]))
  · next e =>
    split
    · exact (h.setPosition _ _).complete _ _ (fun _ => mayEnd_of_progress (by simp [State.setPosition, e]))
    · exact h
  · exact h

theorem Keeps.wfWrapEnd (h : Keeps q a s) (wrap : Nat) : Keeps q a (s.wfWrapEnd wrap) := by
  unfold State.wfWrapEnd
  exact Keeps.ite (fun _ => h.attemptNext _ _) (fun _ => h)

/-! ### The emergency stop -/

theorem Keeps.brake (h : Keeps q a s) : Keeps q a s.brake := by
  unfold State.brake
  exact (((h.onRtcAt _ (fun _ => by simp [Timer.start])).setCartridge _ _).onSv _ Sv.Sound.off).raise _

theorem Keeps.writeFaults (h : Keeps q a s) : Keeps q a s.writeFaults := by
  unfold State.writeFaults
  exact Keeps.ite (fun _ => (h.wfTension.discardWrite _).putEodBack _ _ _) (fun _ => h.wfTension)

theorem Keeps.commandFaults (h : Keeps q a s) (may : q = true → s.mayEnd) : Keeps q a s.commandFaults := by
  unfold State.commandFaults
  split
  · exact h.complete _ _ may
  · exact h.recoverUnthread may
  · exact Keeps.ite (fun _ => h) (fun _ => h.complete _ _ may)
  · exact Keeps.ite (fun _ => h.reportDeferred may) (fun _ => h.complete _ _ may)
  · exact h

theorem Keeps.positionFaults (h : Keeps q a s) : Keeps q a s.positionFaults := by
  unfold State.positionFaults
  split
  · exact h.provenBoundary _
  · split
    · exact h.positionKept
    · exact h.positionKept
    · exact h

theorem Keeps.emergencyStop (h : Keeps q a s) : Keeps q a s.emergencyStop := by
  unfold State.emergencyStop
  exact (h.cutOff.brake.writeFaults.readerFaults.positionFaults.dropVolume).commandFaults (fun _ => mayEnd_of_scan rfl)

/-! ### ABORT -/

theorem Keeps.abortReader (h : Keeps q a s) : Keeps q a s.abortReader := Keeps.when _ h _ (fun _ => h.stopReader)

theorem Keeps.abortBuffer (h : Keeps q a s) : Keeps q a s.abortBuffer := (h.cutBack.sealSlot.setSealTimer none).leaveRead.abortReader

theorem Keeps.abortMotion (h : Keeps q a s) : Keeps q a s.abortMotion := by
  unfold State.abortMotion
  split
  · exact h.scanStops
  · exact h.setGoal _
  · exact h.setGoal _
  · exact h

theorem Keeps.abortQueue (n : Nat) (h : Keeps false a s) : Keeps false a (State.abortQueue n s) := by
  induction n generalizing s with
  | zero => exact h
  | succ n ih =>
    unfold State.abortQueue
    split
    · exact h
    · exact ih (h.complete _ _ (by simp))

theorem Keeps.takeBackCredits (h : Keeps q a s) : Keeps q a (s.onSpu (fun x => { x with credits := 0, readCredits := 0 })) := by
  refine h.onSpu _ (fun ⟨hc, _, hl⟩ => ⟨?_, Nat.zero_le _, hl⟩)
  simp only [onSpu_spu, onSpu_dbm]
  omega

end

theorem Leads.wrapEnded (s : State) (wrap : Nat) : Leads State.Steady State.Steady s (s.wrapEnded wrap) := by
  have read (t : State) : Leads State.Steady State.Steady t (t.readWrapEnd wrap) :=
    ((Leads.readWrapEnd t wrap).mono And.right id).steady And.left
  exact (((Keeps.refl true s).wfWrapEnd wrap).steady.trans (read _)).trans (Leads.scanWrapEnd _ wrap)

theorem Leads.reelsRest (s : State) (x : Nat) : Leads State.Steady State.Steady s (s.reelsRest x) := by
  have rested := (Keeps.refl true s).rest x
  unfold State.reelsRest
  refine Leads.ite (fun _ => Leads.refl _ _) (fun _ => ?_)
  dsimp only
  refine Leads.trans ?_ (Leads.advance _)
  split
  · exact rested.steady
  · exact rested.steady.trans (Leads.wrapEnded _ _)
  · exact rested.shuttleDone.steady
  · exact rested.shuttleDone.steady
  · exact rested.rewound.steady
  · exact rested.beginUnthread.steady
  · exact rested.backhitched.steady
  · exact rested.beginUnthread.steady

/-- What an ABORT leaves of the buffer does not read. -/
theorem abortBuffer_direction (s : State) : s.abortBuffer.dbm.direction ≠ .read := by
  have stopped (t : State) : t.abortReader.dbm.direction = t.dbm.direction := by
    unfold State.abortReader State.when State.stopReader State.when
    repeat' (first | split | dsimp only)
    all_goals simp [Dbm.dropNewest]
  unfold State.abortBuffer
  rw [stopped]
  rcases leaveRead_direction (s.cutBack.sealSlot.onDbm (fun d => { d with sealTimer := none })) with e | e <;> rw [e] <;> simp

/-- A buffer that does not read has no slot FAILED. -/
theorem not_holdsFailed {d : Dbm} (ring : d.RingSound) (other : d.direction ≠ .read) : ¬ d.holdsFailed := by
  rintro ⟨x, hx, failed⟩
  exact other (ring.read_of_mem hx (by simp [Slot.onWritePath, failed]))

theorem Leads.abort (s : State) : Leads State.Steady State.Steady s s.abort := by
  have given := (((Keeps.abortQueue s.positionFaults.cu.queue.length (Keeps.refl false s).positionFaults).takeBackCredits).abortMotion.abortBuffer).onPuAt
    (fun u => { u with scan := none, cut := none }) (by simp)
  unfold State.abort
  refine Leads.trans ⟨given, fun x => ⟨given.ring x.1, State.Clear.readerSound ⟨?_, rfl⟩⟩⟩ (Leads.advance _)
  exact not_holdsFailed (given.ring x.1) (abortBuffer_direction _)

/-! ### The Stream Port -/

section
variable {q : Bool} {a s : State}

theorem Keeps.answer (h : Keeps q a s) (tag : Byte) (name : List Byte) (r : Answer) : Keeps q a (s.answer tag name r) := h.send _

/-- What R174 lets into the queue. -/
theorem screened_inr {tag : Byte} {parsed : Option Command} {c : Command} (e : s.screened tag parsed = .inr c) :
    tag ≠ 0 ∧ s.cu.tagInUse tag = false ∧ s.cu.queue.length < 4 := by
  unfold State.screened at e
  split at e
  · simp at e
  · split at e
    · simp at e
    · next zero =>
      split at e
      · simp at e
      · next used =>
        split at e
        · simp at e
        · split at e
          · simp at e
          · split at e
            · simp at e
            · next full => exact ⟨zero, by simpa using used, by omega⟩

theorem Cu.Sound.arrive {u : Cu} (h : u.Sound) {tag : Byte} (c : Command) (zero : tag ≠ 0) (used : u.tagInUse tag = false) (room : u.queue.length < 4) :
    ({ u with queue := u.queue ++ [{ tag := tag, command := c, begun := false }] } : Cu).Sound := by
  obtain ⟨_, hn, hz, hb⟩ := h
  simp only [Cu.tagInUse, List.any_eq_false, beq_iff_eq] at used
  refine ⟨by simp; omega, ?_, ?_, ?_⟩
  · simp only [List.map_append, List.map_cons, List.map_nil, List.nodup_append, hn, true_and]
    refine ⟨by simp, ?_⟩
    intro x hx y hy e
    obtain ⟨z, hz', rfl⟩ := List.mem_map.mp hx
    simp only [List.mem_singleton] at hy
    exact used z hz' (e.trans hy)
  · intro x hx
    rcases List.mem_append.mp hx with hx | hx
    · exact hz x hx
    · simp only [List.mem_singleton] at hx
      rw [hx]
      exact zero
  · intro x hx
    cases hq : u.queue with
    | nil => simp [hq] at hx
    | cons y ys =>
      simp only [hq, List.cons_append, List.tail_cons, List.mem_append, List.mem_singleton] at hx
      rcases hx with hx | hx
      · exact hb x (by simpa [hq] using hx)
      · rw [hx]

theorem Keeps.arrive (h : Keeps q a s) (tag : Byte) (name : List Byte) (parsed : Option Command) : Keeps q a (s.arrive tag name parsed) := by
  unfold State.arrive
  split
  · exact h.answer _ _ _
  · next c e =>
    obtain ⟨zero, used, room⟩ := screened_inr e
    have queued : Keeps q s (s.onCu (fun u => { u with queue := u.queue ++ [{ tag := tag, command := c, begun := false }] })) := by
      refine ⟨id, id, fun x => x.arrive c zero used room, id, id, id, id, id, fun _ => ⟨id, id, id, fun _ l => ?_⟩⟩
      cases hq : s.cu.queue with
      | nil => simp [Cu.locates, hq] at l
      | cons y ys => simpa [Cu.locates, hq] using l
    exact (h.trans queued).answer _ _ _

theorem Keeps.quick (h : Keeps q a s) (tag : Byte) (name : List Byte) (good : Bool) (act : State → State) (k : Keeps q a (act s)) :
    Keeps q a (s.quick tag name good act) := by
  unfold State.quick
  exact Keeps.ite (fun _ => h.answer _ _ _) (fun _ => Keeps.ite (fun _ => h.answer _ _ _) (fun _ => k))

/-- Latches cleared keep the Event Unit's counts (R187). -/
theorem Eu.Sound.acknowledge {e : Eu} (h : e.Sound) (ns : List Nat) : (e.acknowledge ns).Sound := by
  have cleared (f : Eu) (n : Nat) (k : (∀ i : Fin 32, f.latches[i].sound) ∧ ∀ i : Fin 32, 27 ≤ i.val → f.latches[i].set = false) :
      (∀ i : Fin 32, (f.clear n).latches[i].sound) ∧ ∀ i : Fin 32, 27 ≤ i.val → (f.clear n).latches[i].set = false := by
    obtain ⟨hl, hu⟩ := k
    refine ⟨fun i => ?_, fun i hi => ?_⟩
    · by_cases hv : n = i.val
      · simp [Eu.clear, hv, Latch.sound]
      · simpa [Eu.clear, Vector.getElem_setIfInBounds, hv] using hl i
    · by_cases hv : n = i.val
      · simp [Eu.clear, hv]
      · simpa [Eu.clear, Vector.getElem_setIfInBounds, hv] using hu i hi
  have all (f : Eu) (k : (∀ i : Fin 32, f.latches[i].sound) ∧ ∀ i : Fin 32, 27 ≤ i.val → f.latches[i].set = false) :
      (∀ i : Fin 32, (ns.foldl Eu.clear f).latches[i].sound) ∧ ∀ i : Fin 32, 27 ≤ i.val → (ns.foldl Eu.clear f).latches[i].set = false := by
    induction ns generalizing f with
    | nil => exact k
    | cons n ns ih => exact ih _ (cleared f n k)
  obtain ⟨hl, hu⟩ := all e ⟨h.1, h.2.1⟩
  exact ⟨hl, hu, rfl⟩

theorem Keeps.installMask (h : Keeps q a s) (mask : BitVec 32) : Keeps q a (s.installMask mask) := by
  have notes (is : List (Fin 32)) (t : State) (k : Keeps q a t) : Keeps q a (is.foldl (fun s i => s.send (.note i.val s.eu.latches[i].count)) t) := by
    induction is generalizing t with
    | nil => exact k
    | cons i is ih => exact ih _ (k.send _)
  exact notes _ _ (h.onEu _ (fun x => ⟨x.1, x.2.1, rfl⟩))

theorem Keeps.table (h : Keeps q a s) (tag : Byte) (name : List Byte) (check : BitVec 16) (fields : List Byte) (good : Bool) (first : Option Code)
    (install : Option (State → State)) (k : ∀ f, install = some f → Keeps q a (f s)) : Keeps q a (s.table tag name check fields good first install) := by
  unfold State.table
  refine Keeps.ite (fun _ => (h.raise _).answer _ _ _) (fun _ => Keeps.ite (fun _ => h.answer _ _ _) (fun _ => Keeps.ite (fun _ => h.answer _ _ _) (fun _ => ?_)))
  split
  · exact h.answer _ _ _
  · exact h.answer _ _ _
  · exact (k _ rfl).answer _ _ _

/-- A table that its fields parse to is installed. -/
theorem Keeps.parsed {α : Type} {p : Option α} {install : α → State → State} (k : ∀ x, Keeps q a (install x s)) (f : State → State)
    (e : p.map install = some f) : Keeps q a (f s) := by
  obtain ⟨x, _, rfl⟩ := Option.map_eq_some_iff.mp e
  exact k x

theorem Keeps.tableOf (h : Keeps q a s) (tag : Byte) (name : List Byte) (check : BitVec 16) (fields : List Byte) :
    Keeps q a (s.tableOf tag name check fields) := by
  unfold State.tableOf
  refine Keeps.ite (fun _ => h.table _ _ _ _ _ _ _ (Keeps.parsed (fun t => h.installSpdt t))) (fun _ => ?_)
  refine Keeps.ite (fun _ => h.table _ _ _ _ _ _ _ (Keeps.parsed (fun p => h.onPu _ (fun _ => by rfl)))) (fun _ => ?_)
  refine Keeps.ite (fun _ => h.table _ _ _ _ _ _ _ (Keeps.parsed (fun p => h.installCpol p))) (fun _ => ?_)
  refine Keeps.ite (fun _ => h.table _ _ _ _ _ _ _ (fun f e => ?_)) (fun _ => ?_)
  · obtain rfl := Option.some.inj e
    exact h.onCu _ (fun _ => by simp)
  refine Keeps.ite (fun _ => h.table _ _ _ _ _ _ _ (Keeps.parsed (fun r => h.installHrec r))) (fun _ => ?_)
  refine Keeps.ite (fun _ => h.table _ _ _ _ _ _ _ (fun f e => ?_)) (fun _ => h.table _ _ _ _ _ _ _ (by simp))
  obtain rfl := Option.some.inj e
  exact h.installMask _

theorem Keeps.leaveSearch (h : Keeps q a s) : Keeps q a s.leaveSearch := by
  unfold State.leaveSearch
  refine Keeps.ite (fun _ => h) (fun _ => ?_)
  split
  · exact h.scanStops.leaveRead
  · exact h.leaveRead.onPu _ (fun _ => by rfl)
  · exact h

theorem Keeps.recordData (h : Keeps q a s) (flags : Byte) (data : List Byte) : Keeps q a (s.recordData flags data) := by
  unfold State.recordData
  refine Keeps.ite (fun credited => ?_) (fun _ => h.leaveSearch.protocolEnd)
  have held : 1 ≤ s.spu.credits := by
    simp only [State.credited, Bool.and_eq_true, decide_eq_true_eq] at credited
    exact credited.1.1.1.2
  refine h.trans ⟨id, id, id, id, id, id, fun ⟨hc, hr, hl⟩ => ⟨?_, hr, hl⟩, id, fun _ => ⟨id, id, id, fun _ => id⟩⟩
  simp only [onDbm_spu, onSpu_spu, onDbm_dbm, onSpu_dbm, List.length_append, List.length_singleton]
  omega

theorem Keeps.readCredit (h : Keeps q a s) (n : Nat) : Keeps q a (s.readCredit n) := by
  unfold State.readCredit
  refine Keeps.ite (fun _ => h.raise _) (fun _ => Keeps.ite (fun _ => (h.onSpu _ ?_).raise _) (fun most => h.onSpu _ ?_))
  · exact fun ⟨hc, _, hl⟩ => ⟨hc, Nat.le_refl _, hl⟩
  · exact fun ⟨hc, _, hl⟩ => ⟨hc, Nat.not_lt.mp most, hl⟩

theorem Keeps.dropPacket (h : Keeps q a s) : Keeps q a s.dropPacket := by
  refine (h.onSpu (fun x => { x with linkErrors := satAdd Config.max16 x.linkErrors 1 }) (fun ⟨hc, hr, _⟩ => ⟨hc, hr, ?_⟩)).raise _
  simp only [onSpu_spu, satAdd, Config.max16]
  omega

end

end Sys2Proof.Machine
end

section
/-!
SUPPORT. What the servo's bursts and the pitches read keep (R145 to R154, R84, R113).
-/
namespace Sys2Proof.Machine
open Sys2Proof.Laws

section
variable {q : Bool} {a s : State}

theorem Keeps.lateralReading (h : Keeps q a s) (x : Int) (locked : s.sv.timebase = .locked) : Keeps q a (s.lateralReading x) := by
  unfold State.lateralReading
  exact h.onSv _ (fun ⟨hc, _, hr, hm⟩ => ⟨hc, fun _ => locked, hr, hm⟩)

theorem Keeps.lateralFrame (h : Keeps q a s) (x y : Option Int) : Keeps q a (s.lateralFrame x y) := by
  unfold State.lateralFrame
  split
  · refine Keeps.ite (fun _ => h) (fun locked => ?_)
    have read (z : Int) := h.lateralReading z (by simpa [State.locked] using locked)
    exact Keeps.ite (fun _ => (read _).inhibitCut) (fun _ => read _)
  · exact h

theorem Keeps.monitor (h : Keeps q a s) : Keeps q a s.monitor := by
  unfold State.monitor
  refine Keeps.ite (fun _ => h) (fun _ => ?_)
  exact Keeps.when _ (h.onSv _ id) _ (fun _ => (h.onSv _ id).raise _)

end

theorem Leads.turnaroundAt (s : State) (wrap word : Nat) : Leads State.Steady State.Steady s (s.turnaroundAt wrap word) := by
  unfold State.turnaroundAt
  exact Leads.ite (fun _ => Leads.refl _ _)
    (fun _ => (Leads.when _ _ (fun _ => Leads.wrapEnded s wrap) (Leads.refl _ s)).trans ((Keeps.refl true _).turnIfDue word).steady)

theorem Leads.readerComes (s : State) (l : Loc) : Leads State.Steady State.Steady s (s.readerAt l) :=
  ((Leads.readerAt s l).mono And.right id).steady And.left

theorem Leads.announce (s : State) (wrap : Nat) (pl : TapePlace) : Leads State.Steady State.Steady s (s.announce wrap pl) := by
  have told := ((Keeps.refl true s).onSv (fun v => { v with lastPlace := some pl }) id).tapeAt (wordOfPlace s.pitches wrap pl)
  unfold State.announce
  dsimp only
  refine told.steady.trans ?_
  split
  · exact (Leads.readerComes _ _).trans (((Keeps.refl true _).scanAt _).wfPitch _).steady
  · exact (Keeps.refl true _).restartWritten.steady.trans (Leads.turnaroundAt _ _ _)

theorem Leads.passUnlocked (s : State) (wrap : Nat) (pl : TapePlace) : Leads State.Steady State.Steady s (s.passUnlocked wrap pl) := by
  have passed (t : State) (l : Loc) : Leads State.Steady State.Steady t (t.headerPassed l) :=
    ((Leads.headerPassed t l).mono And.right id).steady And.left
  unfold State.passUnlocked
  dsimp only
  refine ((Keeps.refl true s).tapeAt (wordOfPlace s.pitches wrap pl)).steady.trans ?_
  split
  · exact ((Leads.readerComes _ _).trans (passed _ _)).trans (((Keeps.refl true _).scanAt _).wfUnlocked _).steady
  · exact Leads.turnaroundAt _ _ _

theorem Leads.passWord (s : State) (wrap word : Nat) : Leads State.Steady State.Steady s (s.passWord wrap word) :=
  ((Keeps.refl true s).onSv _ id).steady.trans (Leads.passUnlocked _ _ _)

theorem Leads.passBlind (s : State) : Leads State.Steady State.Steady s s.passBlind := by
  unfold State.passBlind
  split
  · exact Leads.passUnlocked _ _ _
  · exact Leads.refl _ _

theorem Leads.lose (s : State) : Leads State.Steady State.Steady s s.lose := by
  have lost := (Keeps.refl true s).onSv (fun v => { v.leaveLocked with timebase := .lost, missCount := 0, lastValid := false })
    (fun ⟨_, _, hr, _⟩ => by simp [Sv.Sound, Sv.leaveLocked, hr])
  exact (lost.raise _).wfLost.steady.trans (Leads.passBlind _)

theorem Leads.missed (s : State) (at_ : Option Instant) : Leads State.Steady State.Steady s (s.missed at_) := by
  unfold State.missed
  refine Leads.ite (fun _ => ((Keeps.refl true s).onSv _ id).steady.trans (Leads.lose _)) (fun few => ?_)
  have counted := (Keeps.refl true s).onSv (fun v => { v with missCount := v.missCount + 1, lastBurst := at_, history := [], lastValid := false })
    (fun ⟨hc, hi, hr, _⟩ => ⟨hc, hi, hr, by simpa using few⟩)
  dsimp only
  split
  · exact counted.steady.trans (Leads.announce _ _ _)
  · exact counted.steady

theorem Leads.validBurst (s : State) (at_ : Instant) (wrap word : Nat) (lateral : Int) (locked : s.sv.timebase = .locked) :
    Leads State.Steady State.Steady s (s.validBurst at_ wrap word lateral) := by
  have monitored (t : State) (b : Bool) (lock : t.sv.timebase = .locked) : (t.when b State.monitor).sv.timebase = .locked := by
    unfold State.when State.monitor State.when
    repeat' (first | split | dsimp only)
    all_goals simp [lock]
  have judged (f : Sv → Sv) (sound : s.sv.Sound → (f s.sv).Sound) (lock : (f s.sv).timebase = .locked) (b : Bool) (pl : TapePlace) :
      Leads State.Steady State.Steady s ((((s.onSv f).when b State.monitor).lateralReading lateral).announce wrap pl) := by
    have counted := (Keeps.refl true s).onSv f sound
    have read := (Keeps.when b counted _ (fun _ => counted.monitor)).lateralReading lateral (monitored _ b lock)
    exact read.steady.trans (Leads.announce _ _ _)
  unfold State.validBurst
  dsimp only
  refine judged _ (fun ⟨hc, hi, hr, _⟩ => ?_) ?_ _ _
  · exact ⟨hc, hi, hr, Nat.zero_le _⟩
  · exact locked

theorem Leads.acquireBurst (s : State) (at_ : Instant) (valid : Bool) (merged : Option (Nat × Int)) :
    Leads State.Steady State.Steady s (s.acquireBurst at_ valid merged) := by
  have counted := (Keeps.refl true s).onSv
    (fun v => { v with runCount := if valid then min 64 (v.runCount + 1) else 0, lastBurst := some at_, lastValid := valid })
    (fun ⟨hc, hi, _, hm⟩ => ⟨hc, hi, by dsimp only; split <;> omega, hm⟩)
  have passes (t : State) : Leads State.Steady State.Steady t (match merged, t.rtc.headWrap with
      | some (word, lateral), some w =>
        if t.sv.runCount = 64 ∧ t.rtc.motion = .streaming then ((t.onSv Sv.lock).lateralReading lateral).announce w (placeOf t.pitches w word)
        else t.passWord w word
      | _, _ => t.passBlind) := by
    split
    · exact Leads.ite (fun _ => (((Keeps.refl true t).onSv _ Sv.Sound.lock).lateralReading _ rfl).steady.trans (Leads.announce _ _ _))
        (fun _ => Leads.passWord _ _ _)
    · exact Leads.passBlind t
  exact counted.steady.trans (passes _)

theorem Sv.Sound.fromLost {v : Sv} (h : v.Sound) : v.fromLost.Sound := by
  unfold Sv.fromLost
  split
  · next lost =>
    obtain ⟨hc, hi, _, hm⟩ := h
    simp only [beq_iff_eq] at lost
    simp only [lost] at hc hi
    exact ⟨by simpa using hc, by simpa using hi, by simp, hm⟩
  · exact h

theorem Leads.burst (s : State) (b : Burst) : Leads State.Steady State.Steady s (s.burst b) := by
  unfold State.burst
  refine Leads.ite (fun _ => Leads.refl _ _) (fun _ => ?_)
  dsimp only
  split
  · exact Leads.refl _ _
  · next locked =>
    split
    · exact Leads.validBurst _ _ _ _ _ locked
    · exact ((Keeps.refl true s).lateralReading _ locked).steady.trans (Leads.missed _ _)
    · exact Leads.missed _ _
  · exact ((Keeps.refl true s).onSv _ Sv.Sound.fromLost).steady.trans (Leads.acquireBurst _ _ _ _)

theorem Leads.burstMissing (s : State) : Leads State.Steady State.Steady s s.burstMissing := by
  unfold State.burstMissing
  split
  · dsimp only
    split
    · exact Leads.refl _ _
    · exact Leads.missed _ _
    · have counted (t : Instant) := (Keeps.refl true s).onSv (fun v => { v.fromLost with runCount := 0, lastBurst := some t, lastValid := false })
        (fun h => ⟨h.fromLost.1, h.fromLost.2.1, Nat.zero_le _, h.fromLost.2.2.2⟩)
      exact Leads.when _ _ (fun _ => (counted _).steady.trans (Leads.passBlind _)) (counted _).steady
  · exact Leads.refl _ _

/-! ### Pitches read -/

theorem Leads.openLoadingAsked (s : State) : Leads State.Steady State.Steady s s.openLoading := by
  by_cases wanted : s.rdr.wanted = true
  · exact ((Leads.openLoading s).toSound.mono (fun x => x.2.clear (by simp [Rdr.calm, wanted])) id).steady And.left
  · have same : s.openLoading = s := by
      unfold State.openLoading
      split <;> simp [wanted]
    rw [same]
    exact Leads.refl _ _

theorem Leads.pitchRead (s : State) (c : PitchContent) : Leads State.Steady State.Steady s (s.pitchRead c) := by
  unfold State.pitchRead
  split
  · exact Leads.refl _ _
  · refine Leads.ite (fun _ => ?_) (fun _ => ?_)
    · exact ((Leads.openLoadingAsked s).trans (((Leads.readPitchAt _ _ c).mono And.right id).steady And.left)).trans (Leads.scanPitch _ _ _)
    · exact (((Leads.readUnseen s _).mono And.right id).steady And.left).trans ((Keeps.refl true _).scanUnseen _).steady

theorem Leads.aheadResumes (s : State) : Leads State.Steady State.Steady s s.aheadResumes := by
  unfold State.aheadResumes
  refine Leads.ite (fun paused => ?_) (fun _ => Leads.refl _ _)
  simp only [Bool.and_eq_true, beq_iff_eq] at paused
  exact ((Leads.readerResumes s).toSound.mono (fun x => x.2.clear (by simp [Rdr.calm, paused.1.1])) id).steady And.left

end Sys2Proof.Machine
end

section
/-!
SUPPORT. Every step keeps the soundness of each block, and the Reader off a FAILED slot: one case per command (Step.lean), then the obligations.
-/
namespace Sys2Proof.Machine
open Sys2Proof.Laws

section
variable {q : Bool} {a s : State}

/-! ### The mechanism's own -/

theorem Keeps.seatedOn (h : Keeps q a s) (t : TypeCode) (tab : Bool) : Keeps q a (s.seatedOn t tab) := by
  unfold State.seatedOn
  exact Keeps.ite (fun _ => h) (fun _ => ((((h.onSensors _).onRtc _ (fun _ => by simp)).onTape _).raise _).seatedByType _)

theorem Keeps.seatedOff (h : Keeps q a s) : Keeps q a s.seatedOff := by
  unfold State.seatedOff
  exact Keeps.ite (fun _ => ((h.setCartridge _ _).onRtc _ (fun _ => by simp)).onSensors _) (fun _ => h)

theorem Keeps.tensionLeaves (h : Keeps q a s) : Keeps q a s.tensionLeaves := by
  unfold State.tensionLeaves
  exact Keeps.ite (fun _ => h.onRtc _ (fun _ => by simp)) (fun _ => h)

theorem Keeps.windDone (h : Keeps q a s) : Keeps q a s.windDone := by
  unfold State.windDone
  exact Keeps.when _ h _ (fun _ => (h.onRtc _ (fun _ => by simp)).beginReturn)

theorem Keeps.runLength (h : Keeps q a s) : Keeps q a s.runLength := by
  unfold State.runLength
  exact Keeps.ite (fun _ => (h.onRtc _ (fun _ => by simp)).runCompletes) (fun _ => h)

theorem Keeps.endMarker (h : Keeps q a s) : Keeps q a s.endMarker := Keeps.ite (fun _ => h.runExpires) (fun _ => h)

/-! ### The buffer's own -/

theorem Keeps.takeNext (h : Keeps q a s) : Keeps q a s.takeNext := by
  unfold State.takeNext
  split
  · exact h.takePlace _
  · exact h

/-- One millisecond (log 1). -/
theorem Keeps.tick (h : Keeps q a s) : Keeps q a s.tick := by
  unfold State.tick
  exact ((h.onRtcAt _ (fun x => by simpa using x)).onDbm _ id (Nat.le_refl _) id (fun _ => id)).onSm _

end

theorem Leads.fillOpened (s : State) (needs : s.needsSlot = true) : Leads State.Steady State.Steady s s.fillOpened := by
  simp only [State.needsSlot, Bool.and_eq_true, beq_iff_eq, Option.isNone_iff_eq_none, decide_eq_true_eq] at needs
  obtain ⟨⟨⟨direction, none_⟩, room⟩, _⟩ := needs
  exact (Keeps.rcRun _ ((Keeps.refl true s).openFilling direction none_ room)).steady.trans (Leads.advance _)

/-- What follows a function of the write side that gives the Reader nothing to do. -/
theorem Keeps.advances {s t : State} (k : Keeps true s t) : Leads State.Steady State.Steady s t.advance := k.steady.trans (Leads.advance t)

/-- A quick command's answer, or what it does. -/
theorem Leads.quick (s : State) (tag : Byte) (name : List Byte) (good : Bool) (act : State → State) (k : Leads State.Steady State.Steady s (act s)) :
    Leads State.Steady State.Steady s (s.quick tag name good act) := by
  have refused (r : Answer) : Leads State.Steady State.Steady s (s.answer tag name r) := ((Keeps.refl true s).answer _ _ _).steady
  unfold State.quick
  exact Leads.ite (fun _ => refused _) (fun _ => Leads.ite (fun _ => refused _) (fun _ => k))

/-- The head stepped to the wrap asked for, if one was (R133). -/
theorem Keeps.headStepped {q : Bool} {a s : State} (h : Keeps q a s) : Keeps q a (match s.rtc.stepTo with
    | some w => s.stepped w
    | none => s) := by
  split
  · exact h.stepped _
  · exact h

/-- Every command keeps the soundness of each block, and the Reader off a FAILED slot. -/
theorem exec_leads (i : Instr) (s t : State) (e : exec i s = .next t) : Leads State.Steady State.Steady s t := by
  have h := Keeps.refl true s
  have done {u : State} (e : (.next u : Meaning) = .next t) (k : Leads State.Steady State.Steady s u) : Leads State.Steady State.Steady s t :=
    Host.Outcome.next.inj e ▸ k
  cases i with
  | powerOnReset x => exact done e ((h.powerOn x).steady)
  | nreset x => exact done e ((h.deviceReset x).steady)
  | linkCheckFailure bs => exact done e ((Keeps.ite (fun _ => h) (fun _ => h.dropPacket)).steady)
  | load tag ps => exact done e ((h.arrive _ _ _).steady)
  | unld tag ps => exact done e ((h.arrive _ _ _).steady)
  | rwnd tag ps => exact done e ((h.arrive _ _ _).steady)
  | loct tag ps => exact done e ((h.arrive _ _ _).steady)
  | spac tag ps => exact done e ((h.arrive _ _ _).steady)
  | writeRecords tag ps => exact done e ((h.arrive _ _ _).steady)
  | writeFilemarks tag ps => exact done e ((h.arrive _ _ _).steady)
  | readRecords tag ps => exact done e ((h.arrive _ _ _).steady)
  | sync tag ps => exact done e ((h.arrive _ _ _).steady)
  | eras tag ps => exact done e ((h.arrive _ _ _).steady)
  | definePartitions tag ps => exact done e ((h.arrive _ _ _).steady)
  | queryStatus tag ps => exact done e ((h.answer _ _ _).steady)
  | readPosition tag ps => exact done e (Leads.quick s _ _ _ _ (h.answer _ _ _).steady)
  | ackEvents tag ps => exact done e (Leads.quick s _ _ _ _ ((h.onEu _ (fun x => x.acknowledge _)).answer _ _ _).steady)
  | abort tag ps => exact done e (Leads.quick s _ _ _ _ ((Leads.abort s).trans ((Keeps.refl true _).answer _ _ _).steady))
  | resetDevice tag ps x => exact done e (Leads.quick s _ _ _ _ ((h.answer _ _ _).deviceReset x).steady)
  | spdt tag k fs => exact done e ((h.tableOf _ _ _ _).steady)
  | ppol tag k fs => exact done e ((h.tableOf _ _ _ _).steady)
  | cpol tag k fs => exact done e ((h.tableOf _ _ _ _).steady)
  | rpol tag k fs => exact done e ((h.tableOf _ _ _ _).steady)
  | hrec tag k fs => exact done e ((h.tableOf _ _ _ _).steady)
  | evmk tag k fs => exact done e ((h.tableOf _ _ _ _).steady)
  | wdat flags data => exact done e ((h.recordData _ _).steady)
  | rcrd n => exact done e ((h.readCredit _).steady)
  | commandBeginsExecution => exact done e (Leads.beginsExecution s)
  | seatedSensorOn type tab => exact done e ((h.seatedOn _ _).steady)
  | seatedSensorOff => exact done e (h.seatedOff.steady)
  | leaderOnTakeUpReel => exact done e (h.leaderTakenUp.steady)
  | leaderHome => exact done e (h.leaderIsHome.steady)
  | threadTimerExpiry => exact done e (h.threadExpires.steady)
  | tensioningComplete place => exact done e ((h.tensioned _).steady)
  | tensionTimerExpiry => exact done e (h.tensionExpires.steady)
  | tensionLeavesBand => exact done e (h.tensionLeaves.steady)
  | tensionReturnsToBand => exact done e ((h.onRtc (fun r => { r with faultTimer := none }) (fun _ => by simp)).steady)
  | tensionFaultTimerExpiry => exact done e ((Keeps.when _ h _ (fun _ => h.emergencyStop)).steady)
  | recoveryWindComplete => exact done e (h.windDone.steady)
  | recoveryWindTimerExpiry => exact done e ((Keeps.when _ h _ (fun _ => h.threadFault)).steady)
  | metreTravelled mm => exact done e ((h.travel _).steady)
  | runLengthReached => exact done e (h.runLength.steady)
  | endMarkerSensed => exact done e (h.endMarker.steady)
  | settleTimerExpiry => exact done e ((Keeps.when _ h _ (fun _ => h.settled)).steady)
  | headStepComplete => exact done e (h.headStepped.steady)
  | streamingReached => exact done e ((Keeps.when _ h _ (fun m => h.streamingReached (by rw [beq_iff_eq.mp m]; decide))).steady)
  | shuttleApproach => exact done e ((Keeps.when _ h _ (fun m => h.approach (by rw [beq_iff_eq.mp m]; decide))).steady)
  | reelsAtRest place => exact done e (Leads.reelsRest s _)
  | servoBurst b => exact done e ((Leads.burst s b).trans (Leads.advance _))
  | burstMissing => exact done e ((Leads.burstMissing s).trans (Leads.advance _))
  | lateralFrame x y => exact done e ((h.lateralFrame x y).advances)
  | timebaseLocked b => exact done e (Leads.ite (fun _ => (Leads.burst s b).trans (Leads.advance _)) (fun _ => Leads.refl _ _))
  | timebaseLost => exact done e (Leads.ite (fun _ => (Leads.burstMissing s).trans (Leads.advance _)) (fun _ => Leads.refl _ _))
  | readPitch c => exact done e ((Leads.pitchRead s c).trans (Leads.advance _))
  | verifyResult os => exact done e ((h.verify os).advances)
  | datasetDone => exact done e (h.separatorWritten.advances)
  | eodMarkWritten => exact done e (h.markWritten.advances)
  | sealTimerExpiry => exact done e ((Keeps.when _ h _ (fun _ => h.sealNow)).advances)
  | stagingPlaceTaken => exact done e (h.takeNext.advances)
  | entryLimitSeal => exact done e ((Keeps.when _ h _ (fun _ => h.sealNow)).advances)
  | openFillingSlot => exact done e (Leads.when _ _ (fun needs => Leads.fillOpened s needs) (Leads.refl _ _))
  | openLoadingSlot => exact done e (Leads.openLoadingAsked s)
  | readAheadResume => exact done e (Leads.aheadResumes s)
  | expanderTakesSlot => exact done e ((Keeps.when _ h _ (fun _ => h.takeSlot)).steady)
  | expandEntry => exact done e (h.expandEntry.steady)
  | rdatSend => exact done e (h.sendPacket.steady)
  | windowExpiry => exact done e ((Keeps.when _ h _ (fun _ => h.windowExpires)).steady)
  | confirmReached => exact done e ((h.onSm _).steady)
  | channelWindowClose ch failed => exact done e ((h.closeChannel _ _).steady)
  | unknownCommand tag name ps => exact done e ((Keeps.ite (fun _ => h) (fun _ => h.answer _ _ _)).steady)
  | tblNameInvalid tag name k fs => exact done e ((h.tableOf _ _ _ _).steady)

theorem step_leads {s t : State} (e : step s = .next t) : Leads State.Steady State.Steady s t := by
  unfold step at e
  split at e
  · obtain rfl := Host.Outcome.next.inj e
    exact (Keeps.refl true s).tick.steady
  · exact ((Keeps.refl true s).setPending _).steady.trans (exec_leads _ _ _ e)

/-- Settles O57: each block's soundness is one of the facts that every command keeps (`exec_leads`). -/
theorem stepKeepsServoMotionAndPort : Obligations.StepKeepsServoMotionAndPort :=
  ⟨fun _ _ sound e => (step_leads e).keeps.sv sound, fun _ _ sound e => (step_leads e).keeps.rtc sound,
   fun _ _ sound e => (step_leads e).keeps.port sound⟩

/-- Settles O58: the ring is one of the facts that every command keeps (`exec_leads`). -/
theorem stepKeepsBufferRing : Obligations.StepKeepsBufferRing := fun _ _ sound e => (step_leads e).keeps.ring sound

/-- Settles O59: a Reader given something to do finds no slot FAILED, and a read is located only for its own command (`exec_leads`). -/
theorem stepKeepsReaderSound : Obligations.StepKeepsReaderSound := fun _ _ ring sound e => ((step_leads e).holds ⟨ring, sound⟩).2

/-- Settles O60, block by block. -/
theorem resetStateSound : Obligations.ResetStateSound := by
  have readerSound : State.reset.ReaderSound := (readerSound_iff _).mpr (by simp [Dbm.holdsFailed, State.reset, Dbm.reset, Pu.locates, Pu.reset])
  refine ⟨Eu.reset_sound, rfl, Cu.reset_sound, Hm.reset_sound, Sv.reset_sound,
    Rtc.found_sound Machine.Sensors.emptyDrive false, ?_, Dbm.reset_ringSound _, readerSound, ?_⟩
  · simp [State.PortSound, State.reset, Spu.reset, Dbm.reset]
  · exact ⟨rfl, rfl, rfl, rfl, rfl, rfl, rfl, rfl, rfl, rfl, rfl, rfl, rfl, rfl, rfl, rfl, rfl, rfl, rfl, rfl, rfl⟩

end Sys2Proof.Machine
end

section
/-!
PROPERTY. A reset leaves an empty buffer (R20): what the cartridge found at it begins is the mechanism's, and touches neither the buffer nor the
Command Unit.
-/
namespace Sys2Proof.Machine
open Sys2Proof.Laws

/-- Only the mechanism, its sensors, the Servo Unit, the Speed Matcher, the Head Monitor, the latches and the packets handed over may differ. -/
def Threads (s t : State) : Prop :=
  ∃ (rtc : Rtc) (sv : Sv) (sm : Sm) (hm : Hm) (eu : Eu) (sensors : Sensors) (out : List Packet),
    t = { s with rtc := rtc, sv := sv, sm := sm, hm := hm, eu := eu, sensors := sensors, spu := { s.spu with out := out } }

theorem Threads.refl (s : State) : Threads s s := ⟨_, _, _, _, _, _, _, rfl⟩

theorem Threads.trans {s t u : State} (h : Threads s t) (k : Threads t u) : Threads s u := by
  obtain ⟨_, _, _, _, _, _, _, rfl⟩ := h
  obtain ⟨_, _, _, _, _, _, _, rfl⟩ := k
  exact ⟨_, _, _, _, _, _, _, rfl⟩

section
variable {a s : State}

theorem Threads.onRtc (h : Threads a s) (f : Rtc → Rtc) : Threads a (s.onRtc f) := h.trans ⟨_, _, _, _, _, _, _, rfl⟩
theorem Threads.onSv (h : Threads a s) (f : Sv → Sv) : Threads a (s.onSv f) := h.trans ⟨_, _, _, _, _, _, _, rfl⟩
theorem Threads.onSm (h : Threads a s) (f : Sm → Sm) : Threads a (s.onSm f) := h.trans ⟨_, _, _, _, _, _, _, rfl⟩
theorem Threads.setLeader (h : Threads a s) (l : Leader) : Threads a (s.setLeader l) := h.trans ⟨_, _, _, _, _, _, _, rfl⟩

theorem Threads.when (h : Threads a s) (b : Bool) (f : State → State) (k : Threads a (f s)) : Threads a (s.when b f) := by
  cases b with
  | true => exact k
  | false => exact h

theorem Threads.raise (h : Threads a s) (ev : Event) : Threads a (s.raise ev) := by
  obtain ⟨eu, hm, out, e⟩ := (Scores.raise s ev).rest
  exact h.trans ⟨_, _, _, hm, eu, _, out, e⟩

theorem Threads.recomputeHead (h : Threads a s) : Threads a s.recomputeHead := by
  obtain ⟨eu, hm, out, sm, e⟩ := recomputeHead_rest s
  exact h.trans ⟨_, _, sm, hm, eu, _, out, e⟩

theorem Threads.setCartridge (h : Threads a s) (c : Cartridge) (ph : Option Phase) : Threads a (s.setCartridge c ph) := by
  unfold State.setCartridge
  exact ((h.onRtc _).onSv _).when _ _ (((h.onRtc _).onSv _).onSm _)

theorem Threads.beginTensioning (h : Threads a s) (for_ : TensionFor) : Threads a (s.beginTensioning for_) := by
  unfold State.beginTensioning
  exact (h.setCartridge _ _).onRtc _

theorem Threads.seatedByType (h : Threads a s) (t : TypeCode) : Threads a (s.seatedByType t) := by
  unfold State.seatedByType
  split
  · exact h.setCartridge _ _
  · exact h.setCartridge _ _
  · exact ((h.setCartridge _ _).onRtc _).setLeader _
  · exact (h.setCartridge _ _).raise _

theorem Threads.foundCartridge (h : Threads a s) : Threads a s.foundCartridge := by
  unfold State.foundCartridge
  dsimp only
  split
  · exact h.setCartridge _ _
  · split
    · exact h.seatedByType _
    · split
      · exact h.setCartridge _ _
      · exact h.setCartridge _ _
      · exact (h.setCartridge _ _).beginTensioning _
      · exact ((h.setCartridge _ _).beginTensioning _).raise _

end

/-- The buffer, the credits, the deferred write error and the tape as a reset of `s` leaves them. -/
def State.EmptiedBy (s t : State) : Prop := t.dbm = .reset s.dbm.dram ∧ t.spu.credits = 0 ∧ t.cu.deferred = none ∧ s.tape <+: t.tape

theorem State.EmptiedBy.threads {s t u : State} (h : s.EmptiedBy t) (k : Threads t u) : s.EmptiedBy u := by
  obtain ⟨_, _, _, _, _, _, _, rfl⟩ := k
  exact h

theorem tape_prefix_cutOff (s : State) : s.tape <+: s.cutOff.tape := by
  rw [cutOff_tape]
  exact List.prefix_append _ _

theorem emptiedBy_deviceReset (s : State) (x : Sensors) : s.EmptiedBy (s.deviceReset x) := by
  refine State.EmptiedBy.threads ?_ (Threads.refl _).recomputeHead.foundCartridge
  exact ⟨by simp, rfl, rfl, tape_prefix_cutOff s⟩

theorem emptiedBy_powerOn (s : State) (x : Sensors) : s.EmptiedBy (s.powerOn x) := by
  refine State.EmptiedBy.threads ?_ (Threads.refl _).foundCartridge
  exact ⟨by simp, rfl, rfl, tape_prefix_cutOff s⟩

/-- Settles O11, by what a reset makes of the state before the cartridge is found (`emptiedBy_deviceReset`, `emptiedBy_powerOn`). -/
theorem resetsEmptyTheBuffer : Obligations.ResetsEmptyTheBuffer := by
  intro i s reset
  have empty {t : State} (h : s.EmptiedBy t) : t.dbm = Dbm.reset s.dbm.dram ∧ t.dbm.take = 0 ∧ t.spu.credits = 0 ∧ t.cu.deferred = none
      ∧ s.tape <+: t.tape := by
    obtain ⟨dbm, credits, deferred, tape⟩ := h
    exact ⟨dbm, by rw [dbm]; rfl, credits, deferred, tape⟩
  rcases reset with ⟨x, rfl⟩ | ⟨x, rfl⟩ | ⟨tag, x, rfl, run⟩
  · exact ⟨_, rfl, empty (emptiedBy_powerOn s x)⟩
  · exact ⟨_, rfl, empty (emptiedBy_deviceReset s x)⟩
  · refine ⟨(s.answer tag nameRset Answer.ok).deviceReset x, ?_, empty (emptiedBy_deviceReset _ x)⟩
    simp [exec, execResetDevice, State.quick, run]

end Sys2Proof.Machine
end

section
/-!
SUPPORT. What a step brings besides its own work: a motion goal that begins no streaming changes the reels and the Servo Unit alone (R132), and
nothing follows a step where no slot waits to be written and no command for the writing (R6, R14, R30).
-/
namespace Sys2Proof.Machine
open Sys2Proof.Laws

/-! ### A motion goal that is no run-up -/

/-- A motion goal from which no streaming acceleration begins. -/
def Goal.stands : Goal → Bool
  | .runUp _ _ | .wrapTurn _ => false
  | _ => true

/-- Only the reels and the Servo Unit may differ, in the same cartridge state and on the same wrap. -/
structure Drives (s t : State) : Prop where
  rest : ∃ (rtc : Rtc) (sv : Sv), t = { s with rtc := rtc, sv := sv }
  cartridge : t.rtc.cartridge = s.rtc.cartridge
  head : t.rtc.headWrap = s.rtc.headWrap

theorem Drives.refl (s : State) : Drives s s := ⟨⟨_, _, rfl⟩, rfl, rfl⟩

theorem Drives.trans {s t u : State} (h : Drives s t) (k : Drives t u) : Drives s u := by
  obtain ⟨_, _, e⟩ := h.rest
  obtain ⟨rtc, sv, e'⟩ := k.rest
  exact ⟨⟨rtc, sv, by rw [e', e]⟩, k.cartridge.trans h.cartridge, k.head.trans h.head⟩

theorem Drives.onRtc (s : State) (f : Rtc → Rtc) (cartridge : (f s.rtc).cartridge = s.rtc.cartridge) (head : (f s.rtc).headWrap = s.rtc.headWrap) :
    Drives s (s.onRtc f) := ⟨⟨_, _, rfl⟩, cartridge, head⟩

theorem Drives.onSv (s : State) (f : Sv → Sv) : Drives s (s.onSv f) := ⟨⟨_, _, rfl⟩, rfl, rfl⟩

theorem Drives.decelerate (s : State) : Drives s s.decelerate := (Drives.onRtc s _ rfl rfl).trans (Drives.onSv _ _)

theorem Drives.beginShuttle (s : State) (t : Loc) : Drives s (s.beginShuttle t) := (Drives.onRtc s _ rfl rfl).trans (Drives.onSv _ _)

theorem Drives.startMotion (s : State) (stands : s.rtc.goal.stands = true) : Drives s s.startMotion := by
  unfold State.startMotion
  split
  · next e => simp [Goal.stands, e] at stands
  · exact Drives.beginShuttle s _
  · exact Drives.beginShuttle s _
  · next e => simp [Goal.stands, e] at stands
  · exact Drives.onRtc s _ rfl rfl
  · exact Drives.onRtc s _ rfl rfl

theorem Drives.setGoal (s : State) (g : Goal) (stands : g.stands = true) : Drives s (s.setGoal g) := by
  have asked (g : Goal) (t : State) : Drives t (t.onRtc (fun r => { r with goal := g })) := Drives.onRtc t _ rfl rfl
  unfold State.setGoal
  dsimp only
  split
  · exact Drives.refl s
  · split
    · exact (asked g s).trans (Drives.startMotion _ stands)
    · split
      · exact (asked g s).trans (asked _ _)
      · exact asked g s
    · exact asked g s
    · exact (asked g s).trans (Drives.decelerate _)
    · split
      · split
        · exact asked _ s
        · exact (asked g s).trans (asked _ _)
      · exact (asked g s).trans (Drives.decelerate _)
    · split
      · exact asked g s
      · exact (asked g s).trans (Drives.decelerate _)

/-- The backhitch but for its motion. -/
theorem backhitch_drives (s : State) (counted : Bool) : Drives (s.stage (.backhitching counted)) (s.backhitch counted) := Drives.setGoal _ _ rfl

/-- The stop but for its motion. -/
theorem wfStop_drives (s : State) : Drives (s.stage .idle) s.wfStop := Drives.setGoal _ _ rfl

/-! ### What follows a step -/

theorem wfKick_of_busy {s : State} (h : s.writesNext = false) : s.wfKick = s := by simp [State.wfKick, h]

theorem writesNext_of_empty {s : State} (h : s.dbm.slots = []) : s.writesNext = false := by simp [State.writesNext, h]

theorem writesNext_of_direction {s : State} (h : s.dbm.direction ≠ .write) : s.writesNext = false := by simp [State.writesNext, h]

theorem writesNext_of_stage {s : State} (idle : s.wf.stage ≠ .idle) (resting : s.wf.stage ≠ .backhitched) : s.writesNext = false := by
  simp [State.writesNext, idle, resting]

/-- Nothing follows at once where no slot waits to be written and no command waits for the writing or places filemarks. -/
theorem advance_eq {s : State} (busy : s.writesNext = false) (waits : s.cu.progress.waitsForWriting = false)
    (other : s.cu.progress ≠ .filemarks) : s.advance = s := by
  have once : s.advanceOnce = s := by
    unfold State.advanceOnce
    rw [wfKick_of_busy busy]
    dsimp only
    split
    · next e => simp [e, Progress.waitsForWriting] at waits
    · next e => simp [e, Progress.waitsForWriting] at waits
    · next e => simp [e, Progress.waitsForWriting] at waits
    · next e => exact absurd e other
    · rfl
  rw [State.advance, once, once]

/-! ### The head of the queue -/

theorem executing_of_begun {s : State} {q : Queued} {rest : List Queued} (queue : s.cu.queue = q :: rest) (begun : q.begun = true) :
    s.executing = some q.command := by
  simp [State.executing, queue, begun]

/-- A command completes that is no WRITE_RECORDS: its DONE, the queue without it. -/
theorem complete_eq {s : State} {q : Queued} {rest : List Queued} (queue : s.cu.queue = q :: rest) (other : ∀ n : Nat, q.command ≠ .wrec n)
    (code : Code) (res : Results) : s.complete code res = { s with
      spu := { s.spu with out := s.spu.out ++ [.resp q.tag q.command.name (.done code (s.withEarlyFlag q res) [])] },
      cu := { s.cu with queue := rest, progress := .none, count := 0, finals := 0 } } := by
  unfold State.complete
  rw [queue]
  dsimp only
  split
  · next e => exact absurd e (other _)
  · rfl

/-- The results with the early-warning flag are those results but for their flags. -/
theorem withEarlyFlag_eq (s : State) (q : Queued) (res : Results) : ∃ flags : Nat, s.withEarlyFlag q res = { res with flags := flags } := by
  unfold State.withEarlyFlag
  split
  · exact ⟨_, rfl⟩
  · exact ⟨_, rfl⟩
  · exact ⟨_, rfl⟩

/-- A command that does not write completes with its results as they are. -/
theorem withEarlyFlag_other (s : State) {q : Queued} (wrec : ∀ n : Nat, q.command ≠ .wrec n) (wfmk : ∀ n : Nat, q.command ≠ .wfmk n) (res : Results) :
    s.withEarlyFlag q res = res := by
  unfold State.withEarlyFlag
  split
  · next e => exact absurd e (wrec _)
  · next e => exact absurd e (wfmk _)
  · rfl

end Sys2Proof.Machine
end

section
/-!
PROPERTY. What follows the EOD mark of a flush (R14, R15, R57, R109, R115).
-/
namespace Sys2Proof.Machine
open Sys2Proof.Laws

theorem getD_set_same {α : Type} (xs : List (Option α)) (p : Nat) (x : α) (h : p < xs.length) : (xs.set p (some x)).getD p none = some x := by
  simp [h]

theorem lt_length_of_getD_some {α : Type} {xs : List (Option α)} {p : Nat} {x : α} (h : xs.getD p none = some x) : p < xs.length := by
  by_contra out
  rw [List.getD_eq_default _ _ (Nat.le_of_not_lt out)] at h
  cases h

theorem setEod_eq (s : State) (p : Nat) (e : EodKnown) :
    ∃ directory, s.setEod p e = { s with pu := { s.pu with eod := s.pu.eod.set p (some e), directory := directory } } := ⟨_, rfl⟩

/-- The EOD mark's place reported: the append point and the write point stand there, and the EOD record takes it. -/
theorem reportMark_eq (s : State) (l : Loc) (onTape : Bool) : ∃ eod directory,
    s.reportMark l onTape = { s with
      pu := { s.pu with eod := eod, directory := directory },
      wf := { s.wf with eodPending := false, appendPoint := some l, writePoint := some (s.pu.partition, l) } }
    ∧ eod.getD s.pu.partition none = (s.pu.eod.getD s.pu.partition none).map (fun e => { e with mark := l, onTape := onTape }) := by
  unfold State.reportMark
  dsimp only
  split
  · next e k =>
    simp only [onWf_pu] at k
    refine ⟨_, _, rfl, ?_⟩
    simp only [k, Option.map_some]
    exact getD_set_same _ _ _ (lt_length_of_getD_some k)
  · next k =>
    simp only [onWf_pu] at k
    exact ⟨_, _, rfl, by rw [k, Option.map_none]⟩

/-- What the mark on tape has brought to the Write Formatter and the EOD record. -/
def State.Marked (s : State) (start : Loc) (t : State) : Prop :=
  t.wf.eodPending = false ∧ t.wf.appendPoint = some start
  ∧ t.pu.eod.getD s.pu.partition none = (s.pu.eod.getD s.pu.partition none).map (fun e => { e with mark := start, onTape := true })
  ∧ t.wf.backhitches = s.wf.backhitches ∧ t.tape = s.tape ∧ t.eu = s.eu

theorem State.Marked.report {s : State} (start : Loc) : s.Marked start (s.reportMark start true) := by
  obtain ⟨eod, directory, e, same⟩ := reportMark_eq s start true
  rw [e]
  exact ⟨rfl, rfl, same, rfl, rfl, rfl⟩

theorem State.Marked.stage {s t : State} {start : Loc} (h : s.Marked start t) (st : WfStage) : s.Marked start (t.stage st) := h

theorem State.Marked.drives {s t u : State} {start : Loc} (h : s.Marked start t) (k : Drives t u) : s.Marked start u := by
  obtain ⟨_, _, rfl⟩ := k.rest
  exact h

/-- A mark report touches the Position Unit's EOD record and the Write Formatter alone. -/
theorem reportMark_rest (s : State) (l : Loc) (onTape : Bool) : ∃ (eod : List (Option EodKnown)) (directory : List PartitionDirectory) (wf : Wf),
    s.reportMark l onTape = { s with pu := { s.pu with eod := eod, directory := directory }, wf := wf }
    ∧ wf.eodPending = false ∧ wf.header = s.wf.header := by
  obtain ⟨eod, directory, e, _⟩ := reportMark_eq s l onTape
  exact ⟨eod, directory, _, e, rfl, rfl⟩

theorem markWritten_flush {s : State} {start : Loc} (stage : s.wf.stage = .marking .flush start 2) : s.markWritten =
    if s.cu.progress.waitsForWriting then (s.reportMark start true).stage .idle
    else if s.dbm.direction == .write then (s.reportMark start true).backhitch false
    else (s.reportMark start true).wfStop := by
  obtain ⟨eod, directory, e, _⟩ := reportMark_eq s start true
  have cu : (s.reportMark start true).cu = s.cu := by rw [e]
  have dbm : (s.reportMark start true).dbm = s.dbm := by rw [e]
  unfold State.markWritten
  rw [stage]
  simp only [cu, dbm]

/-- With no command waiting for it the mark is followed by a backhitch that is not counted (R61). -/
theorem mark_backhitches {s : State} {start : Loc} (stage : s.wf.stage = .marking .flush start 2) (direction : s.dbm.direction = .write)
    (waits : s.cu.progress.waitsForWriting = false) (other : s.cu.progress ≠ .filemarks) :
    ∃ t : State, exec .eodMarkWritten s = .next t ∧ s.Marked start t ∧ t.wf.stage = .backhitching false ∧ t.dbm = s.dbm ∧ t.cu = s.cu
      ∧ t.spu = s.spu := by
  have marked := ((State.Marked.report (s := s) start).stage (.backhitching false)).drives (backhitch_drives _ false)
  obtain ⟨eod, directory, wf, e, _, _⟩ := reportMark_rest s start true
  obtain ⟨rtc, sv, b⟩ := (backhitch_drives (s.reportMark start true) false).rest
  refine ⟨(s.reportMark start true).backhitch false, ?_, marked, by rw [b]; rfl, by rw [b, e]; rfl, by rw [b, e]; rfl, by rw [b, e]; rfl⟩
  have written : s.markWritten = (s.reportMark start true).backhitch false := by
    rw [markWritten_flush stage, if_neg (by simp [waits]), if_pos (by simp [direction])]
  have none_ : ((s.reportMark start true).backhitch false).advance = (s.reportMark start true).backhitch false := by
    rw [b]
    exact advance_eq (writesNext_of_stage (by simp [State.stage]) (by simp [State.stage])) (by rw [e]; exact waits) (by rw [e]; exact other)
  exact congrArg Host.Outcome.next (by rw [written, none_])

section
variable {s : State} {start : Loc} {q : Queued} {rest : List Queued}

/-- The mark written while a command waits for it: the Write Formatter at rest, with an empty write path. -/
theorem mark_waited (stage : s.wf.stage = .marking .flush start 2) (waits : s.cu.progress.waitsForWriting = true) (empty : s.dbm.slots = [])
    (header : s.wf.header = none) :
    ∃ t : State, s.markWritten = t ∧ s.Marked start t ∧ t.wfKick = t ∧ t.writtenOut = true ∧ t.wf.stage = .idle ∧ t.wf.hasExtra = false
      ∧ ∃ (eod : List (Option EodKnown)) (directory : List PartitionDirectory) (wf : Wf),
        t = { s with pu := { s.pu with eod := eod, directory := directory }, wf := wf } := by
  have marked := (State.Marked.report (s := s) start).stage .idle
  obtain ⟨eod, directory, wf, e, pending, same⟩ := reportMark_rest s start true
  have written : s.markWritten = (s.reportMark start true).stage .idle := by rw [markWritten_flush stage, if_pos waits]
  refine ⟨_, written, marked, ?_⟩
  rw [e]
  exact ⟨wfKick_of_busy (writesNext_of_empty empty), by simp [State.writtenOut, State.stage, Wf.quiet, empty, same, header], rfl,
    by simp [State.stage, Wf.hasExtra, same, header], eod, directory, _, rfl⟩

/-- A flush in place ends with its mark: the command GOOD, the tape brought back (R15). -/
theorem mark_ends_flushInPlace (stage : s.wf.stage = .marking .flush start 2) (queue : s.cu.queue = q :: rest) (empty : s.dbm.slots = [])
    (header : s.wf.header = none) (progress : s.cu.progress = .flushInPlace) (command : q.command = .sync ∨ q.command = .wfmk 0) :
    ∃ (t : State) (flags : Nat), exec .eodMarkWritten s = .next t ∧ s.Marked start t ∧ t.wf.stage = .backhitching false ∧ t.dbm = s.dbm
      ∧ t.cu.queue = rest ∧ t.spu.out = s.spu.out ++ [.resp q.tag q.command.name (.done .good { flags := flags } [])] := by
  obtain ⟨t, written, marked, kick, out, idle, _, eod, directory, wf, rfl⟩ :=
    mark_waited stage (by simp [progress, Progress.waitsForWriting]) empty header
  generalize same : ({ s with pu := { s.pu with eod := eod, directory := directory }, wf := wf } : State) = t at *
  have cu : t.cu = s.cu := by rw [← same]
  have spu : t.spu = s.spu := by rw [← same]
  have dbm : t.dbm = s.dbm := by rw [← same]
  obtain ⟨flags, early⟩ := withEarlyFlag_eq t q {}
  have done := complete_eq (s := t) (by rw [cu, queue]) (by rcases command with e | e <;> simp [e]) .good {}
  rw [early, spu] at done
  have pending : t.wf.eodPending = false := marked.1
  obtain ⟨rtc, sv, b⟩ := (backhitch_drives (t.complete .good) false).rest
  have once : t.advanceOnce = (t.complete .good).backhitch false := by
    unfold State.advanceOnce
    rw [kick]
    simp [cu, progress, out, pending, State.flushedHere, idle]
  have twice : ((t.complete .good).backhitch false).advanceOnce = (t.complete .good).backhitch false := by
    unfold State.advanceOnce
    rw [wfKick_of_busy (writesNext_of_empty (by rw [b, done]; exact dbm ▸ empty))]
    rw [b, done]
    rfl
  refine ⟨(t.complete .good).backhitch false, flags, ?_, ?_, by rw [b]; rfl, by rw [b, done]; exact dbm, by rw [b, done]; rfl, by rw [b, done]; rfl⟩
  · exact congrArg Host.Outcome.next (by rw [written, State.advance, once, twice])
  · rw [b, done]
    exact marked

/-- RWND's own work with nothing in hand at the Write Formatter: the position at the partition's start, and a shuttle there (R115). -/
theorem runRwnd_eq {t : State} (direction : t.dbm.direction = .neutral) (extra : t.wf.hasExtra = false) :
    ∃ (vf : Option Nat) (rtc : Rtc) (sv : Sv), t.runRwnd = { t with
      pu := { t.pu with partition := 0, object := 0, anchor := some (0, ⟨0, Config.headerZone⟩) },
      wf := { t.wf with volumeFull := vf }, cu := { t.cu with progress := .shuttle .good }, rtc := rtc, sv := sv } := by
  have left : t.leaveRead.wfYield = t := by
    rw [State.leaveRead, if_neg (by simp [direction]), State.wfYield, extra]
    rfl
  unfold State.runRwnd
  rw [left]
  dsimp only
  obtain ⟨rtc, sv, e⟩ := (Drives.setGoal (((t.onPu (fun u => { u with partition := 0, object := 0, anchor := some (0, ⟨0, Config.headerZone⟩) })).clearFullMark
    false).setProgress (.shuttle .good)) (.shuttle ⟨0, 0⟩ .rwnd false) rfl).rest
  rw [e]
  unfold State.clearFullMark
  generalize (t.onPu (fun u => { u with partition := 0, object := 0, anchor := some (0, ⟨0, Config.headerZone⟩) })).belowEod false = below
  cases below with
  | true => exact ⟨none, rtc, sv, rfl⟩
  | false => exact ⟨t.wf.volumeFull, rtc, sv, rfl⟩

/-- The flush of a RWND ends with its mark: the direction NEUTRAL, and its own work (R14, R115). -/
theorem mark_ends_flushing_of_rwnd (stage : s.wf.stage = .marking .flush start 2) (direction : s.dbm.direction = .write)
    (queue : s.cu.queue = q :: rest) (begun : q.begun = true) (empty : s.dbm.slots = []) (header : s.wf.header = none)
    (progress : s.cu.progress = .flushing) (command : q.command = .rwnd) :
    ∃ t : State, exec .eodMarkWritten s = .next t ∧ s.Marked start t ∧ t.wf.stage = .idle ∧ t.dbm = { s.dbm with direction := .neutral }
      ∧ t.cu.queue = s.cu.queue ∧ t.cu.progress = .shuttle .good ∧ t.pu.partition = 0 ∧ t.pu.object = 0 ∧ t.pu.anchor = some (0, ⟨0, 64⟩)
      ∧ t.spu = s.spu := by
  obtain ⟨t, written, marked, kick, out, idle, extra, eod, directory, wf, rfl⟩ :=
    mark_waited stage (by simp [progress, Progress.waitsForWriting]) empty header
  generalize same : ({ s with pu := { s.pu with eod := eod, directory := directory }, wf := wf } : State) = t at *
  have cu : t.cu = s.cu := by rw [← same]
  have spu : t.spu = s.spu := by rw [← same]
  have dbm : t.dbm = s.dbm := by rw [← same]
  have pending : t.wf.eodPending = false := marked.1
  obtain ⟨rtc, sv, stop⟩ := (wfStop_drives t).rest
  have neutral : t.wfStop.setDirection .neutral = { t with
      wf := { t.wf with stage := .idle }, rtc := rtc, sv := sv, dbm := { t.dbm with direction := .neutral }, sm := Sm.halt t.sm } := by
    rw [stop, State.setDirection, if_neg (by simp [State.stage, dbm, direction])]
    rfl
  obtain ⟨vf, rtc', sv', own⟩ := runRwnd_eq (t := t.wfStop.setDirection .neutral) (by rw [neutral]) (by
    rw [neutral]
    simpa [Wf.hasExtra, idle] using extra)
  have executing : (t.wfStop.setDirection .neutral).executing = some .rwnd := by
    rw [executing_of_begun (by rw [neutral]; exact cu ▸ queue) begun, command]
  have once : t.advanceOnce = (t.wfStop.setDirection .neutral).runRwnd := by
    unfold State.advanceOnce
    rw [kick]
    simp [cu, progress, out, pending, State.flushDone, State.ownWork, executing]
  have twice : (t.wfStop.setDirection .neutral).runRwnd.advanceOnce = (t.wfStop.setDirection .neutral).runRwnd := by
    unfold State.advanceOnce
    rw [wfKick_of_busy (writesNext_of_empty (by rw [own, neutral]; exact dbm ▸ empty)), own]
  refine ⟨_, congrArg Host.Outcome.next (by rw [written, State.advance, once, twice]), ?_⟩
  rw [own, neutral]
  exact ⟨marked, rfl, by rw [← dbm], by rw [← cu], rfl, rfl, rfl, rfl, spu⟩

end

/-- Settles O46, by what waits for the mark: nothing, a flush in place, or the flush before a RWND's own work. -/
theorem eodMarkWritten : Obligations.EodMarkWritten := by
  intro s start stage direction
  refine ⟨mark_backhitches stage direction, fun q rest queue begun empty header => ⟨?_, ?_⟩⟩
  · exact mark_ends_flushInPlace stage queue empty header
  · exact mark_ends_flushing_of_rwnd stage direction queue begun empty header

end Sys2Proof.Machine
end

section
/-!
SUPPORT. The rules that a span's end rests on: a tally at the Head Monitor (R53, R157), a dataset boundary at the Speed Matcher (R76), the next slot
WRITING and where its attempt stands (R9, R45, R46).
-/
namespace Sys2Proof.Machine
open Sys2Proof.Laws

/-! ### A tally -/

/-- What scoring makes of the Head Monitor, it makes of the Head Monitor alone. -/
theorem closeWindow_hm_congr {s t : State} (h : s.hm = t.hm) (ch : Fin 16) (f : Nat) : (s.closeWindow ch f).hm = (t.closeWindow ch f).hm := by
  unfold State.closeWindow
  rw [h]
  dsimp only
  split <;> simp [h]

theorem takeChannel_hm_congr {s t : State} (h : s.hm = t.hm) (ts : Vector Tally 16) (ch : Fin 16) :
    (State.takeChannel ts s ch).hm = (State.takeChannel ts t ch).hm := by
  have fold (fs : List Nat) {s t : State} (h : s.hm = t.hm) :
      (fs.foldl (fun s f => s.closeWindow ch f) s).hm = (fs.foldl (fun s f => s.closeWindow ch f) t).hm := by
    induction fs generalizing s t with
    | nil => exact h
    | cons f fs ih => exact ih (closeWindow_hm_congr h ch f)
  unfold State.takeChannel
  rw [h]
  exact fold _ (by simp [h])

theorem recomputeHead_hm_congr {s t : State} (h : s.hm = t.hm) : s.recomputeHead.hm = t.recomputeHead.hm := by
  unfold State.recomputeHead
  rw [h]
  dsimp only
  split
  · exact h
  · split <;> simp [State.capSchedule, h]

theorem takeTally_hm_congr {s t : State} (h : s.hm = t.hm) (ts : Vector Tally 16) : (s.takeTally ts).hm = (t.takeTally ts).hm := by
  have fold (chs : List (Fin 16)) {s t : State} (h : s.hm = t.hm) :
      (chs.foldl (State.takeChannel ts) s).hm = (chs.foldl (State.takeChannel ts) t).hm := by
    induction chs generalizing s t with
    | nil => exact h
    | cons ch chs ih => exact ih (takeChannel_hm_congr h ts ch)
  exact recomputeHead_hm_congr (fold _ h)

/-- A tally touches the Head Monitor, the latches, the packets, and the Speed Matcher's schedule. -/
theorem takeTally_rest (s : State) (ts : Vector Tally 16) : ∃ (eu : Eu) (sm : Sm) (out : List Packet),
    s.takeTally ts = { s with eu := eu, hm := (s.takeTally ts).hm, sm := sm, spu := { s.spu with out := out } } := by
  obtain ⟨_, _, _, scored⟩ := (Scores.takeChannels ts (List.finRange 16) s).rest
  obtain ⟨eu, hm, out, sm, judged⟩ := recomputeHead_rest ((List.finRange 16).foldl (State.takeChannel ts) s)
  have whole : s.takeTally ts = { s with eu := eu, hm := hm, sm := sm, spu := { s.spu with out := out } } := by
    rw [State.takeTally, judged, scored]
  exact ⟨eu, sm, out, by rw [whole]⟩

/-- The span tallies handed over touch as much, and are zero at the Write Formatter. -/
theorem handTallies_rest (s : State) : ∃ (eu : Eu) (hm : Hm) (sm : Sm) (wf : Wf) (out : List Packet),
    s.handTallies = { s with eu := eu, hm := hm, sm := sm, wf := wf, spu := { s.spu with out := out } } := by
  obtain ⟨eu, sm, out, e⟩ := takeTally_rest s s.wf.tallies
  exact ⟨eu, _, sm, _, out, by rw [State.handTallies, e]; rfl⟩

@[simp] theorem handTallies_hm (s : State) : s.handTallies.hm = (s.takeTally s.wf.tallies).hm := onWf_hm _ _
@[simp] theorem handTallies_sm (s : State) : s.handTallies.sm = (s.takeTally s.wf.tallies).sm := onWf_sm _ _
@[simp] theorem handTallies_wf (s : State) : s.handTallies.wf = { s.wf with tallies := Tally.zeros } := by
  obtain ⟨_, _, _, e⟩ := takeTally_rest s s.wf.tallies
  rw [State.handTallies, e]
  rfl
@[simp] theorem handTallies_cu (s : State) : s.handTallies.cu = s.cu := by
  obtain ⟨_, _, _, _, _, e⟩ := handTallies_rest s
  rw [e]
@[simp] theorem handTallies_rc (s : State) : s.handTallies.rc = s.rc := by
  obtain ⟨_, _, _, _, _, e⟩ := handTallies_rest s
  rw [e]
@[simp] theorem handTallies_dbm (s : State) : s.handTallies.dbm = s.dbm := by
  obtain ⟨_, _, _, _, _, e⟩ := handTallies_rest s
  rw [e]
@[simp] theorem handTallies_rdr (s : State) : s.handTallies.rdr = s.rdr := by
  obtain ⟨_, _, _, _, _, e⟩ := handTallies_rest s
  rw [e]
@[simp] theorem handTallies_pu (s : State) : s.handTallies.pu = s.pu := by
  obtain ⟨_, _, _, _, _, e⟩ := handTallies_rest s
  rw [e]
@[simp] theorem handTallies_rtc (s : State) : s.handTallies.rtc = s.rtc := by
  obtain ⟨_, _, _, _, _, e⟩ := handTallies_rest s
  rw [e]
@[simp] theorem handTallies_sv (s : State) : s.handTallies.sv = s.sv := by
  obtain ⟨_, _, _, _, _, e⟩ := handTallies_rest s
  rw [e]
@[simp] theorem handTallies_tape (s : State) : s.handTallies.tape = s.tape := by
  obtain ⟨_, _, _, _, _, e⟩ := handTallies_rest s
  rw [e]

/-! ### A boundary, a rise of the FREE count -/

/-- A boundary touches the Speed Matcher, the speed in effect and the timebase, with what is latched and sent. -/
theorem boundary_rest (s : State) : ∃ (index speed : Nat) (sv : Sv) (sm : Sm) (eu : Eu) (out : List Packet),
    s.boundary = { s with rtc := { s.rtc with speedIndex := index, speed := speed }, sv := sv, sm := sm, eu := eu, spu := { s.spu with out := out } } := by
  unfold State.boundary
  split
  · exact ⟨_, _, _, _, _, _, rfl⟩
  · next i e =>
    obtain ⟨eu, hm, out, applied⟩ := (Scores.raise (s.onSm (fun m => { m with index := i, scheduled := none })) .speedChanged).rest
    have same : hm = s.hm := by simpa using (congrArg State.hm applied).symm
    have change : s.applyScheduled = { s with sm := { s.sm with index := i, scheduled := none }, eu := eu, spu := { s.spu with out := out } } := by
      rw [State.applyScheduled, e]
      dsimp only
      rw [applied, same]
      rfl
    dsimp only
    rw [change]
    split
    · exact ⟨_, _, _, _, _, _, rfl⟩
    · split <;> exact ⟨_, _, _, _, _, _, rfl⟩

@[simp] theorem boundary_cu (s : State) : s.boundary.cu = s.cu := by
  obtain ⟨_, _, _, _, _, _, e⟩ := boundary_rest s
  rw [e]
@[simp] theorem boundary_rc (s : State) : s.boundary.rc = s.rc := by
  obtain ⟨_, _, _, _, _, _, e⟩ := boundary_rest s
  rw [e]
@[simp] theorem boundary_dbm (s : State) : s.boundary.dbm = s.dbm := by
  obtain ⟨_, _, _, _, _, _, e⟩ := boundary_rest s
  rw [e]
@[simp] theorem boundary_wf (s : State) : s.boundary.wf = s.wf := by
  obtain ⟨_, _, _, _, _, _, e⟩ := boundary_rest s
  rw [e]
@[simp] theorem boundary_pu (s : State) : s.boundary.pu = s.pu := by
  obtain ⟨_, _, _, _, _, _, e⟩ := boundary_rest s
  rw [e]
@[simp] theorem boundary_hm (s : State) : s.boundary.hm = s.hm := by
  obtain ⟨_, _, _, _, _, _, e⟩ := boundary_rest s
  rw [e]
@[simp] theorem boundary_tape (s : State) : s.boundary.tape = s.tape := by
  obtain ⟨_, _, _, _, _, _, e⟩ := boundary_rest s
  rw [e]
@[simp] theorem boundary_headWrap (s : State) : s.boundary.rtc.headWrap = s.rtc.headWrap := by
  obtain ⟨_, _, _, _, _, _, e⟩ := boundary_rest s
  rw [e]

@[simp] theorem boundary_typeCode (s : State) : s.boundary.rtc.typeCode = s.rtc.typeCode := by
  obtain ⟨_, _, _, _, _, _, e⟩ := boundary_rest s
  rw [e]

/-! ### The record of a dataset done, and R9's steps -/

theorem proveDataset_eq (s : State) (p dataset first filemarks : Nat) (start : Loc) (done : Bool) :
    ∃ directory, s.proveDataset p dataset first filemarks start done = { s with pu := { s.pu with directory := directory } } := ⟨_, rfl⟩

/-- The Position Unit's record of a dataset done: the EOD record of its partition (R109). -/
theorem recordDone_eq (s : State) (x : Slot) (start next : Loc) (here : x.partition < s.pu.eod.length) :
    ∃ (eod : List (Option EodKnown)) (directory : List PartitionDirectory) (filemarks : List (Option Nat)),
      s.recordDone x start next = { s with pu := { s.pu with eod := eod, directory := directory, eodFilemarks := filemarks } }
      ∧ eod.getD x.partition none = some { object := x.first.getD 0 + x.objects, last := some x.dataset, mark := next, onTape := false } := by
  have known := getD_set_same s.pu.eod x.partition
    { object := x.first.getD 0 + x.objects, last := some x.dataset, mark := next, onTape := false } here
  obtain ⟨directory, e⟩ := setEod_eq s x.partition { object := x.first.getD 0 + x.objects, last := some x.dataset, mark := next, onTape := false }
  unfold State.recordDone
  dsimp only
  rw [e]
  obtain ⟨directory', e'⟩ := proveDataset_eq _ _ _ _ _ _ _
  exact ⟨_, directory', _, e', known⟩

/-- The state a dataset done leaves at its boundary: the tallies handed over, the slot FREE, the EOD record behind it (R9, R53, R109). -/
structure Freed (s : State) (x : Slot) (rest : List Slot) (l : Loc) (t : State) : Prop where
  cu : t.cu = s.cu
  rc : t.rc = s.rc
  dbm : t.dbm = { s.dbm with slots := rest, drain := s.dbm.number 1 }
  wf : t.wf = { s.wf with tallies := Tally.zeros, appendPoint := some (s.after l), writePoint := some (x.partition, s.after l), misses := 0,
                          planned := false }
  hm : t.hm = (s.takeTally s.wf.tallies).hm
  pu : ∃ eod directory filemarks, t.pu = { s.pu with eod := eod, directory := directory, eodFilemarks := filemarks }
    ∧ eod.getD x.partition none = some { object := x.first.getD 0 + x.objects, last := some x.dataset, mark := s.after l, onTape := false }
  head : t.rtc.headWrap = s.rtc.headWrap
  typeCode : t.rtc.typeCode = s.rtc.typeCode
  tape : t.tape = s.tape

theorem Dbm.freeOldest_eq {d : Dbm} {x : Slot} {rest : List Slot} (slots : d.slots = x :: rest) :
    d.freeOldest = { d with slots := rest, drain := d.number 1 } := by
  unfold Dbm.freeOldest
  rw [slots]

/-- The dataset done, then the write path at a boundary (R9, R51). -/
theorem dataDone_eq {s : State} {x : Slot} {rest : List Slot} (slots : s.dbm.slots = x :: rest) (l : Loc) (here : x.partition < s.pu.eod.length) :
    ∃ t : State, s.dataDone l = t.wfBoundary ∧ Freed s x rest l t := by
  obtain ⟨eod, directory, filemarks, recorded, known⟩ := recordDone_eq s x (s.wf.spanStart.getD l) (s.after l) here
  unfold State.dataDone
  rw [slots]
  dsimp only
  generalize s.recordDone x (s.wf.spanStart.getD l) (s.after l) = r at recorded
  have hm : r.hm = s.hm := by rw [recorded]
  have wf : r.wf = s.wf := by rw [recorded]
  have cu : r.cu = s.cu := by rw [recorded]
  have rc : r.rc = s.rc := by rw [recorded]
  have dbm : r.dbm = s.dbm := by rw [recorded]
  have rtc : r.rtc = s.rtc := by rw [recorded]
  have tape : r.tape = s.tape := by rw [recorded]
  have pu : r.pu = { s.pu with eod := eod, directory := directory, eodFilemarks := filemarks } := by rw [recorded]
  refine ⟨_, rfl, ?_, ?_, ?_, ?_, ?_, ⟨eod, directory, filemarks, ?_, known⟩, ?_, ?_, ?_⟩
  · simp [cu]
  · simp [rc]
  · simp [dbm, Dbm.freeOldest_eq slots]
  · simp [wf]
  · simp [wf, takeTally_hm_congr hm]
  · simp [pu]
  · simp [rtc]
  · simp [rtc]
  · simp [tape]

end Sys2Proof.Machine
end

section
/-!
PROPERTY. A dataset done, or an unseal (R9, R51, R53, R58, R61, R62, R109).
-/
namespace Sys2Proof.Machine
open Sys2Proof.Laws

/-- The oldest SEALED slot becomes WRITING, with its attempt planned; only its parity rows change the DRAM (R9, R46). -/
theorem beginSlot_eq {s : State} {x : Slot} {rest : List Slot} (slots : s.dbm.slots = x :: rest) (sealed_ : x.state = .sealed) : ∃ dram : Memory,
    s.beginSlot = { s with
      dbm := { s.dbm with slots := { x with state := .writing } :: rest, dram := dram },
      wf := { s.wf.replan with tallies := Tally.zeros, spanStart := s.wf.appendPoint } } := by
  unfold State.beginSlot
  rw [slots]
  dsimp only
  rw [if_pos sealed_]
  refine ⟨(List.range 16).foldl (fun m i => m.place (s.dbm.base 0 + (240 + i) * Config.rowBytes) Config.rowBytes
    (parityCells (s.dbm.dram.cells (s.dbm.base 0) (240 * Config.rowBytes)) (240 + i))) s.dbm.dram, ?_⟩
  simp only [State.onDbm, State.onWf, Dbm.setSlot, slots, List.modify_zero_cons]

theorem pitches_congr {s t : State} (h : t.rtc.typeCode = s.rtc.typeCode) : t.pitches = s.pitches := by
  simp [State.pitches, State.generation, h]

theorem remaining_congr {s t : State} (h : t.rtc.typeCode = s.rtc.typeCode) (l : Loc) : t.remaining l = s.remaining l := by
  simp [State.remaining, pitches_congr h]

theorem attemptAt_here {s : State} {l : Loc} (room : 21 ≤ s.remaining l) : s.attemptAt l = some l := if_pos room

/-- The attempt due at a place on the head's wrap, with the room it needs: the span may begin there (R45). -/
theorem attemptNext_here {s : State} {l : Loc} (room : 21 ≤ s.remaining l) (head : s.rtc.headWrap = some l.wrap) (between : Bool) :
    s.attemptNext l between = s.onWf (fun w => { w with stage := .span, writePoint := some (s.pu.partition, l),
                                                        appendPoint := if between then some l else w.appendPoint }) := by
  unfold State.attemptNext
  rw [attemptAt_here room]
  exact if_pos head

theorem appendLoc_eq {s : State} {a : Loc} (h : s.wf.appendPoint = some a) : s.appendLoc = a := by simp [State.appendLoc, h]

theorem tally_zero (c : Fin 16) : Tally.zeros[c] = { rows := 0, failed := 0 } := by simp [Tally.zeros]

/-- The separator of a dataset is written: what follows its record is the write path at a boundary. -/
theorem separatorWritten_data {s : State} {l : Loc} (stage : s.wf.stage = .closing .done (some l)) (header : s.wf.header = none) :
    s.separatorWritten = s.dataDone l := by
  unfold State.separatorWritten
  rw [stage]
  dsimp only
  rw [header]

section
variable {s : State} {x : Slot} {rest : List Slot} {l : Loc}

/-- With no slot to follow the tape backhitches (R61). -/
theorem dataset_done_backhitches (stage : s.wf.stage = .closing .done (some l)) (header : s.wf.header = none) (slots : s.dbm.slots = [x])
    (here : x.partition < s.pu.eod.length) (waits : s.cu.progress.waitsForWriting = false) (other : s.cu.progress ≠ .filemarks) :
    ∃ t : State, exec .datasetDone s = .next t
      ∧ t.pu.eod.getD x.partition none
        = some { object := x.first.getD 0 + x.objects, last := some x.dataset, mark := s.after l, onTape := false }
      ∧ t.dbm.slots = [] ∧ t.dbm.drain = (s.dbm.drain + 1) % 512 ∧ t.dbm.dram = s.dbm.dram ∧ t.dbm.direction = s.dbm.direction
      ∧ t.wf.stage = .backhitching true ∧ t.wf.appendPoint = some (s.after l) ∧ t.wf.misses = 0 ∧ t.hm = (s.takeTally s.wf.tallies).hm
      ∧ (∀ c : Fin 16, t.wf.tallies[c] = { rows := 0, failed := 0 }) ∧ t.tape = s.tape ∧ t.cu = s.cu := by
  obtain ⟨f, done, freed⟩ := dataDone_eq slots l here
  obtain ⟨eod, directory, filemarks, pu, known⟩ := freed.pu
  obtain ⟨rtc, sv, b⟩ := (backhitch_drives f true).rest
  have boundary : f.wfBoundary = f.backhitch true := by simp [State.wfBoundary, freed.dbm, freed.cu, waits]
  have none_ : (f.backhitch true).advance = f.backhitch true := by
    rw [b]
    exact advance_eq (writesNext_of_empty (by rw [State.stage, onWf_dbm, freed.dbm])) (by simpa [State.stage, freed.cu] using waits)
      (by simpa [State.stage, freed.cu] using other)
  refine ⟨f.backhitch true, congrArg Host.Outcome.next (by rw [separatorWritten_data stage header, done, boundary, none_]), ?_⟩
  rw [b]
  simp only [State.stage, onWf_pu, onWf_dbm, onWf_wf, onWf_hm, onWf_tape, onWf_cu, pu, freed.dbm, freed.wf, freed.hm, freed.tape, freed.cu, known]
  exact ⟨trivial, trivial, rfl, trivial, trivial, trivial, trivial, trivial, trivial, tally_zero, trivial, trivial⟩

/-- A SEALED slot that follows, with room for a span on the head's wrap, is WRITING at once (R9, R45, R51). -/
theorem dataset_done_goes_on {y : Slot} {ys : List Slot} (stage : s.wf.stage = .closing .done (some l)) (header : s.wf.header = none)
    (slots : s.dbm.slots = x :: y :: ys) (here : x.partition < s.pu.eod.length) (waits : s.cu.progress.waitsForWriting = false)
    (other : s.cu.progress ≠ .filemarks) (follows : y.state = .sealed) (room : 21 ≤ s.remaining (s.after l))
    (head : s.rtc.headWrap = some (s.after l).wrap) :
    ∃ t : State, exec .datasetDone s = .next t
      ∧ t.pu.eod.getD x.partition none
        = some { object := x.first.getD 0 + x.objects, last := some x.dataset, mark := s.after l, onTape := false }
      ∧ t.dbm.slots = { y with state := .writing } :: ys ∧ t.dbm.drain = (s.dbm.drain + 1) % 512 ∧ t.dbm.direction = s.dbm.direction
      ∧ t.wf.stage = .span ∧ t.wf.appendPoint = some (s.after l) ∧ t.wf.writePoint = some (s.pu.partition, s.after l)
      ∧ t.wf.planned = true ∧ t.wf.nextSet = 0 ∧ t.wf.rewriteSets = 0 ∧ t.wf.queue = [] ∧ t.wf.inFlight = none ∧ t.wf.misses = 0
      ∧ t.hm = (s.takeTally s.wf.tallies).hm
      ∧ (∀ c : Fin 16, t.wf.tallies[c] = { rows := 0, failed := 0 }) ∧ t.tape = s.tape ∧ t.cu = s.cu := by
  obtain ⟨f, done, freed⟩ := dataDone_eq slots l here
  obtain ⟨eod, directory, filemarks, pu, known⟩ := freed.pu
  obtain ⟨dram, begun⟩ := beginSlot_eq (s := f) (x := y) (rest := ys) (by rw [freed.dbm]) follows
  have boundary : f.wfBoundary = f.beginSlot.attemptNext f.appendLoc true := by simp [State.wfBoundary, freed.dbm, follows]
  have attempt := attemptNext_here (s := f.beginSlot) (l := s.after l) (by
    rwa [remaining_congr (s := s) (by rw [begun]; exact freed.typeCode)]) (by rw [begun, freed.head, head]) true
  rw [appendLoc_eq (a := s.after l) (by rw [freed.wf]), attempt, begun] at boundary
  have none_ : f.wfBoundary.advance = f.wfBoundary := by
    rw [boundary]
    exact advance_eq (writesNext_of_stage (by simp) (by simp)) (by simpa [freed.cu] using waits) (by simpa [freed.cu] using other)
  refine ⟨f.wfBoundary, congrArg Host.Outcome.next (by rw [separatorWritten_data stage header, done, none_]), ?_⟩
  rw [boundary]
  simp only [onWf_pu, onWf_dbm, onWf_wf, onWf_hm, onWf_tape, onWf_cu, pu, freed.dbm, freed.wf, freed.hm, freed.tape, freed.cu, known, Wf.replan, if_true]
  exact ⟨trivial, trivial, rfl, trivial, trivial, trivial, trivial, trivial, trivial, trivial, trivial, trivial, trivial, trivial, tally_zero, trivial, trivial⟩

end

/-- A goal that a streaming tape cannot keep to: it comes to rest first (R132). -/
theorem setGoal_streaming {s : State} {g : Goal} (takes : s.rtc.takesGoals = true) (motion : s.rtc.motion = .streaming)
    (keeps : (s.onRtc (fun r => { r with goal := g })).keepsStreaming g = false) :
    s.setGoal g = (s.onRtc (fun r => { r with goal := g })).decelerate := by
  unfold State.setGoal
  rw [if_neg (by simp [takes])]
  dsimp only
  simp only [onRtc_rtc, motion, keeps]
  rfl

/-- An unseal done with a SEALED slot waiting: it is WRITING, and the tape is taken by a shuttle to the run-up point before it (R58, R62, R135). -/
theorem unseal_done {s : State} {x : Slot} {rest : List Slot} {l a : Loc} {k : Nat} (stage : s.wf.stage = .closing .done (some l))
    (header : s.wf.header = some { purpose := .unseal, attempt := k }) (slots : s.dbm.slots = x :: rest) (sealed_ : x.state = .sealed)
    (direction : s.dbm.direction = .write) (waits : s.cu.progress.waitsForWriting = false) (other : s.cu.progress ≠ .filemarks)
    (takes : s.rtc.takesGoals = true) (motion : s.rtc.motion = .streaming) (append : s.wf.appendPoint = some a) (room : a.pitch + 21 ≤ s.pitches) :
    ∃ t : State, exec .datasetDone s = .next t
      ∧ t.pu = { s.pu with header := some .opened, volume := if s.pu.volume = .blank then .formatted else s.pu.volume }
      ∧ t.wf.header = none ∧ t.wf.stage = .runUp a .span false ∧ t.wf.appendPoint = some a ∧ t.wf.writePoint = some (s.pu.partition, a)
      ∧ t.dbm.slots = { x with state := .writing } :: rest ∧ t.rtc.motion = .decelerating ∧ t.rtc.goal = .trip a
      ∧ t.sm = (s.takeTally s.wf.tallies).sm ∧ t.hm = (s.takeTally s.wf.tallies).hm
      ∧ (∀ c : Fin 16, t.wf.tallies[c] = { rows := 0, failed := 0 }) ∧ t.tape = s.tape ∧ t.cu = s.cu := by
  obtain ⟨h, hdef⟩ : ∃ h, h = (s.handTallies.onWf (fun w => { w with header := none, planned := false, misses := 0, stage := .idle })).onPu
      (fun u => { u with header := some .opened, volume := if u.volume = .blank then .formatted else u.volume }) := ⟨_, rfl⟩
  have cu : h.cu = s.cu := by simp [hdef]
  have dbm : h.dbm = s.dbm := by simp [hdef]
  have rtc : h.rtc = s.rtc := by simp [hdef]
  have wf : h.wf = { s.wf with header := none, planned := false, misses := 0, stage := .idle, tallies := Tally.zeros } := by simp [hdef]
  have pu : h.pu = { s.pu with header := some .opened, volume := if s.pu.volume = .blank then .formatted else s.pu.volume } := by simp [hdef]
  have hm : h.hm = (s.takeTally s.wf.tallies).hm := by simp [hdef]
  have sm : h.sm = (s.takeTally s.wf.tallies).sm := by simp [hdef]
  have tape : h.tape = s.tape := by simp [hdef]
  have next : h.writesNext = true := by simp [State.writesNext, dbm, direction, wf, slots, sealed_]
  have quiet : (h.cu.progress == .erasing) = false := by
    rw [cu]
    cases e : s.cu.progress <;> simp [e, Progress.waitsForWriting] at waits ⊢
  have written : s.separatorWritten = h.beginSlot.attemptFrom h.appendLoc true := by
    unfold State.separatorWritten
    rw [stage]
    dsimp only
    rw [header]
    unfold State.headerDone
    dsimp only
    rw [← hdef, quiet]
    simp [State.when, cu, waits, next]
  obtain ⟨dram, begun⟩ := beginSlot_eq (s := h) (x := x) (rest := rest) (by rw [dbm]; exact slots) sealed_
  have at_ : h.beginSlot.attemptAt a = some a := attemptAt_here (by
    rw [remaining_congr (s := s) (by rw [begun]; exact congrArg Rtc.typeCode rtc)]
    unfold State.remaining
    omega)
  rw [appendLoc_eq (a := a) (by rw [wf]; exact append)] at written
  unfold State.attemptFrom State.resumeAt at written
  rw [at_] at written
  dsimp only at written
  rw [if_pos rfl, setGoal_streaming (by rw [begun]; simpa [State.stage, rtc] using takes) (by rw [begun]; simpa [State.stage, rtc] using motion) rfl, begun] at written
  have none_ : s.separatorWritten.advance = s.separatorWritten := by
    rw [written]
    exact advance_eq (writesNext_of_stage (by simp [State.decelerate, State.stage]) (by simp [State.decelerate, State.stage]))
      (by simpa [State.decelerate, State.stage, cu] using waits) (by simpa [State.decelerate, State.stage, cu] using other)
  refine ⟨s.separatorWritten, congrArg Host.Outcome.next none_, ?_⟩
  rw [written]
  simp only [State.decelerate, State.stage, onWf_pu, onWf_wf, onWf_dbm, onWf_rtc, onWf_sm, onWf_hm, onWf_tape, onWf_cu, onSv_pu, onSv_wf, onSv_dbm,
    onSv_rtc, onSv_sm, onSv_hm, onSv_tape, onSv_cu, onRtc_pu, onRtc_wf, onRtc_dbm, onRtc_rtc, onRtc_sm, onRtc_hm, onRtc_tape, onRtc_cu, pu, sm, hm,
    tape, cu, wf, Wf.replan]
  exact ⟨trivial, trivial, trivial, trivial, trivial, trivial, trivial, trivial, trivial, trivial, tally_zero, trivial, trivial⟩

/-- Settles O45, by what the separator closed, and by what waits to be written then. -/
theorem datasetDone : Obligations.DatasetDone := by
  refine ⟨fun s x rest l stage header slots here waits other => ⟨?_, ?_⟩, ?_⟩
  · rintro rfl
    exact dataset_done_backhitches stage header slots here waits other
  · rintro y ys rfl follows room head
    exact dataset_done_goes_on stage header slots here waits other follows room head
  · intro s x rest l a k stage header slots sealed_ direction waits other takes motion append room
    exact unseal_done stage header slots sealed_ direction waits other takes motion append room

end Sys2Proof.Machine
end

section
/-!
PROPERTY. What the Reader asks of the buffer: a slot to load, and to go on from its resume point (R11, R96).
-/
namespace Sys2Proof.Machine
open Sys2Proof.Laws

/-- A slot may be opened LOADING: none is LOADING, none FAILED stands at the newest end, and one is FREE (R11). -/
theorem mayLoad_iff (d : Dbm) : d.mayLoad = true ↔
    (∀ x ∈ d.slots, x.state ≠ .loading) ∧ (∀ x, d.slots.getLast? = some x → x.state ≠ .failed) ∧ d.slots.length < 512 := by
  have free : (0 < d.free) ↔ d.slots.length < 512 := by
    rw [Dbm.free, show Config.slotCount = 512 from rfl]
    omega
  simp only [Dbm.mayLoad, Bool.and_eq_true, Option.isNone_iff_eq_none, find_eq_none_iff, decide_eq_true_eq, free, and_assoc]
  refine and_congr_right fun _ => and_congr_left fun _ => ?_
  cases d.slots.getLast? with
  | none => simp
  | some x => simp

/-- The LOADING slot of a dataset about to be read. -/
def Slot.loadingFor (n p : Nat) : Slot :=
  { state := .loading, dataset := n, partition := p, first := none, filemarksBefore := none, entries := none, payload := none, attempt := none,
    passes := some 1, outcome := none, objects := 0, filemarks := 0 }

/-- The slot the Reader asks for, where it may be had. -/
theorem openLoading_opens {s : State} {n p : Nat} (expected : s.rdr.expected = some (n, p)) (wanted : s.rdr.wanted = true)
    (direction : s.dbm.direction = .read) (may : s.dbm.mayLoad = true) : s.openLoading = { s with
      dbm := s.dbm.opened (.loadingFor n p),
      rdr := { Rdr.emptyMap s.rdr with pass := some 1, wanted := false, tallies := Tally.zeros } } := by
  unfold State.openLoading
  rw [expected]
  dsimp only
  rw [if_pos (by simp [wanted, direction, may])]
  rfl

/-- No slot where the Reader does not ask, the buffer does not read, or none may be opened. -/
theorem openLoading_eq_self {s : State} (h : s.rdr.wanted = false ∨ s.dbm.direction ≠ .read ∨ s.dbm.mayLoad = false) : s.openLoading = s := by
  unfold State.openLoading
  split
  · refine if_neg ?_
    rcases h with e | e | e <;> simp [e]
  · rfl

/-- A slot opened or not, the Reader keeps to what it does. -/
theorem openLoading_rdr (s : State) : s.openLoading.rdr.activity = s.rdr.activity ∧ s.openLoading.rdr.expected = s.rdr.expected
    ∧ s.openLoading.rdr.target = s.rdr.target ∧ s.openLoading.cu = s.cu ∧ s.openLoading.pu = s.pu := by
  unfold State.openLoading
  split
  · split <;> exact ⟨rfl, rfl, rfl, rfl, rfl⟩
  · exact ⟨rfl, rfl, rfl, rfl, rfl⟩

/-- A dataset handed over that lies before the end of data: the Reader is brought to its seek pitch (R83). -/
theorem handOver_reads {s : State} {n : Nat} {seek : Loc} {alone : Bool} (eod : s.eodHere = none) (inside : seek.pitch < s.pitches) :
    (s.handOver n seek alone).rdr.activity = .repositioning ∧ (s.handOver n seek alone).rdr.expected = some (n, s.pu.partition)
    ∧ (s.handOver n seek alone).rdr.target = some seek ∧ (s.handOver n seek alone).cu = s.cu ∧ (s.handOver n seek alone).pu = s.pu := by
  obtain ⟨h, hdef⟩ : ∃ h, h = s.wfYield.onRdr (fun r => { r with expected := some (n, s.pu.partition), unseen := none, blankRun := 0,
                                                                 blankStart := none, alone := alone }) := ⟨_, rfl⟩
  have none_ : h.endKnown n = none := by
    have same : h.eodHere = none := by simpa [hdef, State.eodHere, State.eodOf] using eod
    simp [State.endKnown, same]
  have pitches : h.pitches = s.pitches := pitches_congr (by simp [hdef])
  unfold State.handOver
  dsimp only
  rw [← hdef, none_]
  dsimp only
  rw [if_neg (by omega)]
  obtain ⟨activity, expected, target, cu, pu⟩ := openLoading_rdr
    ((h.onRdr (fun r => { r with activity := .repositioning, target := some seek, wanted := true })).setGoal (.runUp seek false))
  rw [activity, expected, target, cu, pu]
  simp [hdef]

/-- Settles O38, by what `openLoading` asks for and by the hand-over that takes a paused Reader on. -/
theorem readerAsksForSlots : Obligations.ReaderAsksForSlots := by
  intro s n p expected
  refine ⟨fun wanted direction ready space => ?_, fun h => ?_, fun seek paused ahead below eod resume inside => ?_, fun limit => ?_⟩
  · have may : s.dbm.mayLoad = true := (mayLoad_iff _).mpr
      ⟨fun x mem => (ready x mem).1, fun x last => (ready x (List.mem_of_getLast? last)).2, space⟩
    refine ⟨_, congrArg Host.Outcome.next (openLoading_opens expected wanted direction may), rfl, rfl, rfl, rfl, ?_, rfl, rfl, rfl, rfl, rfl, rfl⟩
    simp [Rdr.emptyMap]
  · refine congrArg Host.Outcome.next (openLoading_eq_self ?_)
    rw [← Bool.not_eq_true s.dbm.mayLoad, mayLoad_iff]
    rcases h with e | e | ⟨x, mem, e⟩ | ⟨x, last, e⟩ | e
    · exact .inl e
    · exact .inr (.inl e)
    · exact .inr (.inr (fun m => m.1 x mem e))
    · exact .inr (.inr (fun m => m.2.1 x last e))
    · exact .inr (.inr (fun m => absurd m.2.2 (by omega)))
  · have resumes : s.aheadResumes = s.handOver n seek false := by
      unfold State.aheadResumes
      rw [if_pos (by simp [paused, ahead, below])]
      unfold State.readerResumes
      rw [expected]
      dsimp only
      rw [resume]
      rfl
    exact ⟨_, congrArg Host.Outcome.next resumes, handOver_reads eod inside⟩
  · refine congrArg Host.Outcome.next (if_neg ?_)
    simp [Nat.not_lt.mpr limit]

end Sys2Proof.Machine
end

section
/-!
PROPERTY. The Record Expander at the slot at the drain pointer (R12, R34, R35, R37 to R41, R102).
-/
namespace Sys2Proof.Machine
open Sys2Proof.Laws

/-! ### What is sent with an event -/

/-- An occurrence hands over one NOTE at most, and none at a latch that is set (R185). -/
theorem raise_out (s : State) (ev : Event) : ∃ notes : List Packet, (s.raise ev).spu.out = s.spu.out ++ notes
    ∧ (s.eu.latches[ev.num].set = true → notes = []) ∧ (notes = [] ∨ notes = [.note ev.num.val 1]) := by
  unfold State.raise State.when
  dsimp only
  split
  · next note =>
    refine ⟨[.note ev.num.val 1], rfl, fun latched => ?_, .inr rfl⟩
    simp only [Fin.getElem_fin] at latched
    simp [latched] at note
  · exact ⟨[], by simp, fun _ => rfl, .inl rfl⟩

/-- The kinds that continue an object (R30). -/
theorem continues_iff (k : EntryKind) : k.continues = true ↔ k = .middle ∨ k = .end_ := by cases k <;> simp [EntryKind.continues]

/-! ### A READ_RECORDS that reads -/

section
variable {s : State} {q : Queued} {rest : List Queued} {n limit : Nat}

/-- The command at the head reads: a READ_RECORDS under way. -/
structure Reads (s : State) (q : Queued) (rest : List Queued) (n limit : Nat) : Prop where
  queue : s.cu.queue = q :: rest
  begun : q.begun = true
  command : q.command = .rrec n limit
  progress : s.cu.progress = .reading

theorem Reads.reading (h : Reads s q rest n limit) : s.reading = some (n, limit) := by
  simp [State.reading, executing_of_begun h.queue h.begun, h.command, h.progress]

theorem Reads.congr {t : State} (h : Reads s q rest n limit) (queue : t.cu.queue = s.cu.queue) (progress : t.cu.progress = s.cu.progress) :
    Reads t q rest n limit := ⟨queue ▸ h.queue, h.begun, h.command, progress ▸ h.progress⟩

/-- A command whose progress is another does not read. -/
theorem reading_of_progress (h : s.cu.progress ≠ .reading) : s.reading = none := by
  unfold State.reading
  split
  · exact if_neg h
  · rfl

/-- The completion of a READ_RECORDS: its DONE with its results as they are, the queue without it (R102). -/
theorem Reads.complete_eq (h : Reads s q rest n limit) (code : Code) (res : Results) : s.complete code res = { s with
    spu := { s.spu with out := s.spu.out ++ [.resp q.tag (ascii 'R' 'R' 'E' 'C') (.done code res [])] },
    cu := { s.cu with queue := rest, progress := .none, count := 0, finals := 0 } } := by
  rw [Machine.complete_eq h.queue (by simp [h.command]), withEarlyFlag_other s (by simp [h.command]) (by simp [h.command]), h.command]
  rfl

/-! ### The slot taken -/

/-- The slot at the drain pointer becomes EXPANDING, walked from entry 0 with an empty history (R12, R35). -/
theorem takeReady_eq {x : Slot} {xs : List Slot} (slots : s.dbm.slots = x :: xs) : s.takeReady x = { s with
    dbm := { s.dbm with slots := { x with state := .expanding } :: xs, recovered := s.dbm.recovered + x.outcome.getD 0 },
    rx := { s.rx with history := [], sinceReset := 0, entry := 0, offset := 0, object := x.first.getD 0 } } := by
  simp only [State.takeReady, State.onDbm, State.onRx, Dbm.setSlot, slots, List.modify_zero_cons]

/-- A slot is released where it is EXPANDING and its last entry is done (R12). -/
theorem releaseDone_expanding {x : Slot} {xs : List Slot} (slots : s.dbm.slots = x :: xs) (expanding : x.state = .expanding) :
    s.releaseDone = if x.entries.getD 0 ≤ s.rx.entry then s.onDbm (fun d => { d with slots := xs, drain := d.number 1 }) else s := by
  unfold State.releaseDone
  rw [slots]
  dsimp only
  simp only [expanding, true_and]
  split
  · rw [State.onDbm, Dbm.freeOldest_eq slots]
    rfl
  · rfl

theorem releaseDone_other {x : Slot} {xs : List Slot} (slots : s.dbm.slots = x :: xs) (other : x.state ≠ .expanding) : s.releaseDone = s := by
  unfold State.releaseDone
  rw [slots]
  exact if_neg (fun c => other c.1)

/-! ### The end of a record -/

/-- The record that ends is below the position: it is skipped (R39). -/
theorem recordEnds_skips (b : Assembly) (below : s.rx.object < s.pu.object) :
    s.recordEnds b limit = (s.onRx (fun x => { x with assembly := none, object := x.object + 1 })).releaseDone := if_pos below

/-- The record as it waits to be sent within the limit. -/
def Assembly.toSend (b : Assembly) (object limit : Nat) : Sending :=
  { object := object, rest := b.data.take limit, actual := b.data.length, limit := limit, stored := b.stored, begun := false, fault := b.fault }

/-- The record with its fault mark set. -/
def Assembly.faulty (a : Assembly) : Assembly := { a with fault := true }

/-- The record that ends waits to be sent (R40). -/
theorem recordEnds_sends (b : Assembly) (position : s.pu.object ≤ s.rx.object) (bytes : b.data.take limit ≠ []) :
    s.recordEnds b limit = s.onRx (fun x => { x with assembly := some b, sending := some (b.toSend s.rx.object limit) }) := by
  unfold State.recordEnds
  rw [if_neg (Nat.not_lt.mpr position)]
  exact if_neg (by simpa using bytes)

/-- The record that ends delivers no byte: it is delivered at once (R40, log 50). -/
theorem recordEnds_delivers (b : Assembly) (position : s.pu.object ≤ s.rx.object) (none_ : b.data.take limit = []) :
    s.recordEnds b limit = s.delivered (b.toSend s.rx.object limit) := by
  unfold State.recordEnds
  rw [if_neg (Nat.not_lt.mpr position)]
  exact if_pos (by simp [none_])

/-- What a record delivered with its fault mark set brings: the position after it, DATA_CHECK latched, and the end of the read. -/
structure EndsDataCheck (s t : State) (q : Queued) (rest : List Queued) (actual : Nat) : Prop where
  queue : t.cu.queue = rest
  progress : t.cu.progress = .none
  pu : t.pu = { s.pu with object := s.pu.object + 1, anchor := none }
  assembly : t.rx.assembly = none
  sending : t.rx.sending = none
  readCredits : t.spu.readCredits = s.spu.readCredits
  dram : t.dbm.dram = s.dbm.dram
  rdr : t.rdr = s.rdr
  rtc : t.rtc = s.rtc
  latched : t.eu.latches[2].set = true
  out : ∃ notes : List Packet, (s.eu.latches[2].set = true → notes = []) ∧ (notes = [] ∨ notes = [.note 2 1])
    ∧ t.spu.out = s.spu.out ++ notes ++ [.resp q.tag (ascii 'R' 'R' 'E' 'C') (.done .dataCheck
        { count := s.cu.count + 1, object := s.pu.object + 1, actualLength := actual } [])]

@[simp] theorem releaseDone_dram (s : State) : s.releaseDone.dbm.dram = s.dbm.dram := by
  unfold State.releaseDone
  split
  · next e =>
    split
    · rw [onDbm_dbm, Dbm.freeOldest_eq e]
    · rfl
  · rfl

theorem delivered_fault (h : Reads s q rest n limit) (d : Sending) (fault : d.fault = true) :
    EndsDataCheck s (s.delivered d) q rest (if d.limit < d.actual then d.actual else 0) := by
  obtain ⟨r, hr⟩ : ∃ r, r = ((s.advancePosition.onRx (fun x => { x with sending := none, assembly := none, object := x.object + 1 })).onCu
    (fun c => { c with count := c.count + 1 })).releaseDone := ⟨_, rfl⟩
  obtain ⟨dbm, released⟩ := releaseDone_frame ((s.advancePosition.onRx (fun x => { x with sending := none, assembly := none, object := x.object + 1 })).onCu
    (fun c => { c with count := c.count + 1 }))
  have dram : r.dbm.dram = s.dbm.dram := by simp [hr, State.advancePosition, State.setPosition]
  have cu : r.cu = { s.cu with count := s.cu.count + 1 } := by simp [hr, State.advancePosition, State.setPosition]
  have pu : r.pu = { s.pu with object := s.pu.object + 1, anchor := none } := by simp [hr, State.advancePosition, State.setPosition]
  rw [← hr] at released
  have same : r.spu = s.spu ∧ r.eu = s.eu ∧ r.rdr = s.rdr ∧ r.rtc = s.rtc ∧ r.rx.assembly = none ∧ r.rx.sending = none := by
    rw [released]
    exact ⟨rfl, rfl, rfl, rfl, rfl, rfl⟩
  obtain ⟨spu, eu, rdr, rtc, assembly, sending⟩ := same
  have result : s.delivered d = (r.raise .dataCheck).complete .dataCheck
      { count := s.cu.count + 1, object := s.pu.object + 1, actualLength := if d.limit < d.actual then d.actual else 0 } := by
    unfold State.delivered
    dsimp only
    rw [← hr, if_pos fault]
    simp [State.readCompletes, cu, pu]
  obtain ⟨notes, out, latched, one⟩ := raise_out r .dataCheck
  rw [result, (h.congr (t := r.raise .dataCheck) (by simp [cu]) (by simp [cu])).complete_eq]
  exact ⟨rfl, rfl, by simp [pu], by simp [assembly], by simp [sending], by simp [spu], by simp [dram], by simp [rdr], by simp [rtc],
    (congrArg (fun e : Eu => e.latches[2].set) (raise_eu r .dataCheck)).trans (occur_sets r.eu 2),
    notes, fun l => latched (by rw [eu]; exact l), one, by simp only [out, spu]⟩

/-! ### The slot at the drain pointer -/

/-- What a state that follows from `s` shares with it, so that a record ends in it as in `s`. -/
theorem EndsDataCheck.congr {t u : State} {actual : Nat} (h : EndsDataCheck t u q rest actual) (cu : t.cu = s.cu) (pu : t.pu = s.pu)
    (spu : t.spu = s.spu) (dram : t.dbm.dram = s.dbm.dram) (rdr : t.rdr = s.rdr) (rtc : t.rtc = s.rtc) (eu : t.eu = s.eu) :
    EndsDataCheck s u q rest actual :=
  ⟨h.queue, h.progress, pu ▸ h.pu, h.assembly, h.sending, spu ▸ h.readCredits, dram ▸ h.dram, rdr ▸ h.rdr, rtc ▸ h.rtc, h.latched,
    by rw [← cu, ← pu, ← spu, ← eu]; exact h.out⟩

section
variable {x : Slot} {xs : List Slot} (reads : Reads s q rest n limit) (idle : s.rx.sending = none) (slots : s.dbm.slots = x :: xs)
  (ready : x.state = .ready)
include reads idle slots ready

/-- A READY slot with no record standing. -/
theorem takeSlot_fresh (none_ : s.rx.assembly = none) : s.takeSlot = s.takeReady x := by
  simp [State.takeSlot, reads.reading, idle, slots, ready, none_]

/-- A READY slot whose trailer's continues flag is clear. -/
theorem takeSlot_new {a : Assembly} (some_ : s.rx.assembly = some a) (continues : (s.dbm.dram.trailer (s.dbm.base 0)).continues = false) :
    s.takeSlot = (s.onRx (fun r => { r with assembly := none })).takeReady x := by
  simp [State.takeSlot, reads.reading, idle, slots, ready, some_, continues]

/-- A READY slot of the record's own first object number. -/
theorem takeSlot_continued {a : Assembly} (some_ : s.rx.assembly = some a) (continues : (s.dbm.dram.trailer (s.dbm.base 0)).continues = true)
    (same : x.first.getD 0 = a.object) : s.takeSlot = s.takeContinued x a (s.dbm.dram.entry (s.dbm.base 0) 0).kind limit := by
  simp [State.takeSlot, reads.reading, idle, slots, ready, some_, continues, same]

/-- A READY slot of another first object number: the record ends before it is taken. -/
theorem takeSlot_other {a : Assembly} (some_ : s.rx.assembly = some a) (continues : (s.dbm.dram.trailer (s.dbm.base 0)).continues = true)
    (other : x.first.getD 0 ≠ a.object) : s.takeSlot =
      let t := s.recordEnds a.faulty limit
      if t.reading.isNone ∨ t.rx.sending.isSome then t else t.takeReady x := by
  simp [State.takeSlot, reads.reading, idle, slots, ready, some_, continues, other, Assembly.faulty]

end

/-! ### The cases of the slot -/

/-- The buffer with the slot at its drain pointer taken. -/
def Dbm.taken (d : Dbm) (x : Slot) (xs : List Slot) : Dbm :=
  { d with slots := { x with state := .expanding } :: xs, recovered := d.recovered + x.outcome.getD 0 }

/-- The Record Expander at entry 0 of a slot, with an assembly. -/
def Rx.walked (r : Rx) (first : Nat) (a : Option Assembly) : Rx :=
  { r with history := [], sinceReset := 0, entry := 0, offset := 0, object := first, assembly := a }

section
variable {x : Slot} {xs : List Slot} {a : Assembly}

theorem takeReady_walked (slots : s.dbm.slots = x :: xs) :
    s.takeReady x = { s with dbm := s.dbm.taken x xs, rx := s.rx.walked (x.first.getD 0) s.rx.assembly } := takeReady_eq slots

/-- The record ends in the slot taken, whose first entry does not continue it: its three ends (R37, R39, R40). -/
theorem ends_in_slot (slots : s.dbm.slots = x :: xs) (same : x.first.getD 0 = a.object) (reads : Reads s q rest n limit) :
    let t := (s.takeReady x).recordEnds a.faulty limit
    (s.pu.object ≤ a.object → a.data.take limit ≠ [] → t = { s with
        dbm := s.dbm.taken x xs,
        rx := { (s.rx.walked (x.first.getD 0) (some a.faulty)) with sending := some (a.faulty.toSend a.object limit) } })
    ∧ (s.pu.object ≤ a.object → a.data.take limit = [] → EndsDataCheck s t q rest (if limit < a.data.length then a.data.length else 0))
    ∧ (a.object < s.pu.object → t = { s with
        dbm := if x.entries.getD 0 = 0 then { (s.dbm.taken x xs) with slots := xs, drain := (s.dbm.drain + 1) % 512 } else s.dbm.taken x xs,
        rx := { (s.rx.walked (x.first.getD 0) none) with object := a.object + 1 } }) := by
  rw [takeReady_walked slots]
  refine ⟨fun position bytes => ?_, fun position none_ => ?_, fun below => ?_⟩
  · rw [recordEnds_sends a.faulty (by simpa [Rx.walked, same] using position) bytes]
    simp [State.onRx, Rx.walked, Assembly.faulty, same]
  · rw [recordEnds_delivers a.faulty (by simpa [Rx.walked, same] using position) none_]
    refine EndsDataCheck.congr (delivered_fault (n := n) (limit := limit) ?_ _ rfl) rfl rfl rfl rfl rfl rfl rfl
    exact reads.congr rfl rfl
  · rw [recordEnds_skips a.faulty (by simpa [Rx.walked, same] using below), releaseDone_expanding (x := { x with state := .expanding }) (xs := xs) rfl rfl]
    simp only [onRx_rx, Rx.walked, Nat.le_zero, same]
    split <;> rfl

/-- The record ends before a slot of another first object number is taken: its three ends (R37, R39, R40). -/
theorem ends_before_slot (slots : s.dbm.slots = x :: xs) (ready : x.state = .ready) (idle : s.rx.sending = none) (reads : Reads s q rest n limit)
    (some_ : s.rx.assembly = some a) (continues : (s.dbm.dram.trailer (s.dbm.base 0)).continues = true) (other : x.first.getD 0 ≠ a.object) :
    (s.pu.object ≤ s.rx.object → a.data.take limit ≠ [] → s.takeSlot = { s with
        rx := { s.rx with assembly := some a.faulty, sending := some (a.faulty.toSend s.rx.object limit) } })
    ∧ (s.pu.object ≤ s.rx.object → a.data.take limit = [] → EndsDataCheck s s.takeSlot q rest (if limit < a.data.length then a.data.length else 0))
    ∧ (s.rx.object < s.pu.object → s.takeSlot = { s with dbm := s.dbm.taken x xs, rx := s.rx.walked (x.first.getD 0) none }) := by
  rw [takeSlot_other reads idle slots ready some_ continues other]
  refine ⟨fun position bytes => ?_, fun position none_ => ?_, fun below => ?_⟩
  · rw [recordEnds_sends a.faulty position bytes]
    exact if_pos (.inr rfl)
  · rw [recordEnds_delivers a.faulty position none_]
    have ended := delivered_fault reads (a.faulty.toSend s.rx.object limit) rfl
    dsimp only
    rw [if_pos (.inl (by rw [reading_of_progress (by simp [ended.progress])]; rfl))]
    exact ended
  · have skipped : s.recordEnds a.faulty limit = s.onRx (fun r => { r with assembly := none, object := r.object + 1 }) :=
      (recordEnds_skips a.faulty below).trans (releaseDone_other (x := x) (xs := xs) slots (by simp [ready]))
    rw [skipped]
    dsimp only
    rw [if_neg (by simp [(reads.congr (t := s.onRx (fun r => { r with assembly := none, object := r.object + 1 })) rfl rfl).reading, idle])]
    exact takeReady_walked (x := x) (xs := xs) slots

/-- A FAILED slot ends the read and is freed (R12, R34, R41, R102). -/
theorem takeSlot_failed (slots : s.dbm.slots = x :: xs) (failed : x.state = .failed) (idle : s.rx.sending = none) (reads : Reads s q rest n limit) :
    s.takeSlot = { s with
      spu := { s.spu with out := s.spu.out ++ [.resp q.tag (ascii 'R' 'R' 'E' 'C') (.done .mediumError
        { count := s.cu.count, object := (s.rx.assembly.map Assembly.object).getD s.rx.object, failedDataset := x.dataset,
          outcome := x.outcome.getD 0 } [])] },
      cu := { s.cu with queue := rest, progress := .none, count := 0, finals := 0 },
      dbm := { s.dbm with slots := xs, drain := (s.dbm.drain + 1) % 512 }, rx := { s.rx with assembly := none } } := by
  have ends : s.takeSlot = s.endsFailed x := by simp [State.takeSlot, reads.reading, idle, slots, failed]
  rw [ends, State.endsFailed, reads.complete_eq]
  simp only [State.onDbm, State.onRx, Dbm.freeOldest_eq slots]
  rfl

/-- A slot of another state is waited for. -/
theorem takeSlot_waits (slots : s.dbm.slots = x :: xs) (loading : x.state = .loading) : s.takeSlot = s := by
  unfold State.takeSlot
  split
  · rfl
  · simp [slots, loading]

end

end

/-- Settles O39, by the slot at the drain pointer and the record that stands before it. -/
theorem expanderTakesSlot : Obligations.ExpanderTakesSlot := by
  intro s q rest n limit queue begun command progress idle free
  have reads : Reads s q rest n limit := ⟨queue, begun, command, progress⟩
  have acts : exec .expanderTakesSlot s = .next s.takeSlot := by
    refine congrArg Host.Outcome.next ?_
    rw [State.when, find_eq_none_iff.mpr free]
    rfl
  have next {t : State} (h : s.takeSlot = t) : exec .expanderTakesSlot s = .next t := by rw [acts, h]
  have atOnce {t : State} {actual : Nat} (e : s.takeSlot = t) (h : EndsDataCheck s t q rest actual) :
      ∃ (t : State) (notes : List Packet), exec .expanderTakesSlot s = .next t ∧ t.cu.queue = rest
        ∧ t.pu = { s.pu with object := s.pu.object + 1, anchor := none } ∧ t.rx.assembly = none ∧ t.rx.sending = none
        ∧ t.spu.readCredits = s.spu.readCredits ∧ t.dbm.dram = s.dbm.dram ∧ t.rdr = s.rdr ∧ t.rtc = s.rtc ∧ t.eu.latches[2].set = true
        ∧ (s.eu.latches[2].set = true → notes = []) ∧ (notes = [] ∨ notes = [.note 2 1])
        ∧ t.spu.out = s.spu.out ++ notes ++ [.resp q.tag (ascii 'R' 'R' 'E' 'C') (.done .dataCheck
            { count := s.cu.count + 1, object := s.pu.object + 1, actualLength := actual } [])] := by
    obtain ⟨notes, latched, one, out⟩ := h.out
    exact ⟨t, notes, next e, h.queue, h.pu, h.assembly, h.sending, h.readCredits, h.dram, h.rdr, h.rtc, h.latched, latched, one, out⟩
  have fresh {x : Slot} {xs : List Slot} (slots : s.dbm.slots = x :: xs) (ready : x.state = .ready) (none_ : s.rx.assembly = none) :
      s.takeSlot = { s with dbm := s.dbm.taken x xs, rx := s.rx.walked (x.first.getD 0) none } := by
    rw [takeSlot_fresh reads idle slots ready none_, takeReady_walked slots, none_]
  refine ⟨fun x xs slots => ⟨fun ready => ⟨fun h => ?_, fun a some_ continues => ⟨fun same kind => ?_, fun same middle end_ => ?_, fun other => ?_⟩⟩,
    fun failed => ?_, fun loading => next (takeSlot_waits slots loading)⟩, fun slots => ⟨fun activity => ?_, fun activity => ?_, fun activity => ?_⟩⟩
  · rcases h with none_ | continues
    · exact next (fresh slots ready none_)
    · cases some_ : s.rx.assembly with
      | none => exact next (fresh slots ready some_)
      | some a => exact next ((takeSlot_new reads idle slots ready some_ continues).trans (takeReady_walked slots))
  · refine next ((takeSlot_continued reads idle slots ready some_ continues same).trans ?_)
    have k : (s.dbm.dram.entry (s.dbm.base 0) 0).kind.continues = true := (continues_iff _).mpr kind
    rw [State.takeContinued, if_pos k, takeReady_walked slots, some_]
    rfl
  · have taken : s.takeSlot = (s.takeReady x).recordEnds a.faulty limit := by
      rw [takeSlot_continued reads idle slots ready some_ continues same, State.takeContinued, if_neg]
      · rfl
      · exact fun c => ((continues_iff _).mp c).elim middle end_
    obtain ⟨sends, delivers, skips⟩ := ends_in_slot slots same reads
    exact ⟨fun position bytes => next (taken.trans (sends position bytes)), fun position none_ => atOnce taken (delivers position none_),
      fun below => next (taken.trans (skips below))⟩
  · obtain ⟨sends, delivers, skips⟩ := ends_before_slot slots ready idle reads some_ continues other
    exact ⟨fun position bytes => next (sends position bytes), fun position none_ => atOnce rfl (delivers position none_),
      fun below => next (skips below)⟩
  · exact ⟨_, ⟨next (takeSlot_failed slots failed idle reads), rfl, rfl, rfl, rfl, rfl, rfl⟩, rfl, rfl⟩
  · have ends : s.takeSlot = (s.onRx (fun r => { r with assembly := none })).readCompletes .eod s.pu.object := by
      simp [State.takeSlot, reads.reading, idle, slots, activity]
    rw [State.readCompletes, (reads.congr (t := s.onRx (fun r => { r with assembly := none })) rfl rfl).complete_eq] at ends
    exact ⟨_, ⟨next ends, rfl, rfl, rfl, rfl, rfl, rfl⟩, rfl, rfl⟩
  · have ends : s.takeSlot = s.readCompletes .notReady ((s.rx.assembly.map Assembly.object).getD s.pu.object) := by
      simp [State.takeSlot, reads.reading, idle, slots, activity]
    rw [State.readCompletes, reads.complete_eq] at ends
    exact ⟨_, ⟨next ends, rfl, rfl, rfl, rfl, rfl, rfl⟩, rfl, rfl⟩
  · refine next ?_
    simp only [State.takeSlot, reads.reading, idle, slots]
    cases e : s.rdr.activity with
    | ended reason => exact absurd e (activity reason)
    | _ => rfl

end Sys2Proof.Machine
end

section
/-!
SUPPORT. What follows a step with no command in the queue: the writing may go on, and nothing else of the part does (R6, R57, R66, R182).
-/
namespace Sys2Proof.Machine
open Sys2Proof.Laws

/-- What an ABORT keeps: the tables in force, the mask and the link errors. -/
def State.settings (s : State) : RecoveryPolicy × SpeedTable × List PartitionPolicy × CleaningPolicy × BitVec 32 × Nat :=
  (s.cu.policy, s.sm.table, s.pu.policy, s.hm.policy, s.eu.mask, s.spu.linkErrors)

/-- Nothing of an incomplete record, in the staging places, the Record Compressor and the seal timer (R8). -/
def State.Cleared (s : State) : Prop :=
  s.dbm.staging = [] ∧ s.dbm.sealTimer = none ∧ s.rc.record = none ∧ s.rc.segment = none ∧ s.rc.run = [] ∧ s.rc.lookahead = []

/-- The writing goes on: the Reader, the queue, the credits and the tables in force stay, packets are handed over, and no record begins. -/
structure Quiets (a t : State) : Prop where
  settings : t.settings = a.settings
  out : a.spu.out <+: t.spu.out
  rdr : t.rdr = a.rdr
  queue : t.cu.queue = a.cu.queue
  credits : t.spu.credits = a.spu.credits
  readCredits : t.spu.readCredits = a.spu.readCredits
  cleared : a.Cleared → t.Cleared

theorem Quiets.refl (s : State) : Quiets s s := ⟨rfl, List.prefix_refl _, rfl, rfl, rfl, rfl, id⟩

theorem Quiets.trans {s t u : State} (h : Quiets s t) (k : Quiets t u) : Quiets s u :=
  ⟨k.settings.trans h.settings, h.out.trans k.out, k.rdr.trans h.rdr, k.queue.trans h.queue, k.credits.trans h.credits,
    k.readCredits.trans h.readCredits, fun c => k.cleared (h.cleared c)⟩

section
variable {a s : State}

theorem Quiets.onWf (h : Quiets a s) (f : Wf → Wf) : Quiets a (s.onWf f) := h.trans ⟨rfl, List.prefix_refl _, rfl, rfl, rfl, rfl, id⟩
theorem Quiets.stage (h : Quiets a s) (st : WfStage) : Quiets a (s.stage st) := h.onWf _

theorem Quiets.onSm (h : Quiets a s) (f : Sm → Sm) (table : ∀ m, (f m).table = m.table) : Quiets a (s.onSm f) :=
  h.trans ⟨by simp [State.settings, table], List.prefix_refl _, rfl, rfl, rfl, rfl, id⟩

theorem Quiets.onPu (h : Quiets a s) (f : Pu → Pu) (policy : ∀ u, (f u).policy = u.policy) : Quiets a (s.onPu f) :=
  h.trans ⟨by simp [State.settings, policy], List.prefix_refl _, rfl, rfl, rfl, rfl, id⟩

theorem Quiets.onDbm (h : Quiets a s) (f : Dbm → Dbm) (staging : ∀ d, (f d).staging = d.staging)
    (timer : ∀ d, (f d).sealTimer = none ∨ (f d).sealTimer = d.sealTimer) : Quiets a (s.onDbm f) := by
  refine h.trans ⟨rfl, List.prefix_refl _, rfl, rfl, rfl, rfl, fun c => ⟨?_, ?_, c.2.2⟩⟩
  · exact (staging _).trans c.1
  · rcases timer s.dbm with e | e
    · exact e
    · exact e.trans c.2.1

theorem Quiets.when (h : Quiets a s) (b : Bool) (f : State → State) (k : Quiets a (f s)) : Quiets a (s.when b f) := by
  cases b with
  | true => exact k
  | false => exact h

theorem Quiets.ite {p : Prop} [Decidable p] {t u : State} (h : p → Quiets a t) (k : ¬ p → Quiets a u) : Quiets a (if p then t else u) := by
  split
  · next e => exact h e
  · next e => exact k e

theorem Quiets.moves (h : Quiets a s) {t : State} (k : Moves s t) : Quiets a t := by
  obtain ⟨_, _, _, _, _, _, e⟩ := k.rest
  have cu : t.cu = s.cu := by rw [e]
  have pu : t.pu = s.pu := by rw [e]
  have hm : t.hm = s.hm := by rw [e]
  have links : t.spu.linkErrors = s.spu.linkErrors := by rw [e]
  refine h.trans ⟨by simp only [State.settings, cu, pu, hm, links, k.table, k.mask], k.out, by rw [e], by rw [cu], by rw [e], by rw [e], fun c => ?_⟩
  rw [e]
  exact c

theorem Quiets.setGoal (h : Quiets a s) (g : Goal) : Quiets a (s.setGoal g) := h.moves (Moves.setGoal s g)
theorem Quiets.resumeGoal (h : Quiets a s) (g : Goal) : Quiets a (s.resumeGoal g) := h.moves (Moves.resumeGoal s g)
theorem Quiets.askWrapTurn (h : Quiets a s) (w : Nat) : Quiets a (s.askWrapTurn w) := h.moves (Moves.askWrapTurn s w)

theorem Quiets.raise (h : Quiets a s) (ev : Event) : Quiets a (s.raise ev) := by
  have scored := Scores.raise s ev
  refine h.trans ⟨by simp only [State.settings, raise_cu, raise_sm, raise_pu, raise_hm, raise_linkErrors, scored.mask], scored.out, by simp, by simp,
    by simp, by simp, fun c => ?_⟩
  obtain ⟨_, _, _, e⟩ := scored.rest
  rw [e]
  exact c

theorem setDirection_table (s : State) (d : BufferDirection) : (s.setDirection d).sm.table = s.sm.table := by
  unfold State.setDirection
  split
  · rfl
  · cases d <;> rfl

theorem Quiets.setNeutral (h : Quiets a s) : Quiets a (s.setDirection .neutral) := by
  unfold State.setDirection
  exact Quiets.ite (fun _ => h)
    (fun _ => (h.onDbm (fun b => { b with direction := .neutral }) (fun _ => by rfl) (fun _ => by exact .inr rfl)).onSm Sm.halt (fun _ => by rfl))

/-! ### The incomplete record given up -/

theorem sealSlot_rc (s : State) : s.sealSlot.rc = s.rc := by
  unfold State.sealSlot
  split
  · rfl
  · dsimp only
    split <;> rfl

theorem sealSlot_staging (s : State) : s.sealSlot.dbm.staging = s.dbm.staging := by
  unfold State.sealSlot
  split
  · rfl
  · dsimp only
    split <;> rfl

theorem sealSlot_timer (s : State) : s.sealSlot.dbm.sealTimer = none ∨ s.sealSlot.dbm.sealTimer = s.dbm.sealTimer := by
  unfold State.sealSlot
  split
  · exact .inr rfl
  · dsimp only
    split <;> exact .inl rfl

/-- The open segment taken back out of the FILLING slot (R8). -/
def State.segmentBack (s : State) : State :=
  match s.rc.segment.map Segment.start with
  | some p => s.onFilling (fun y => { y with payload := some p })
  | none => s

/-- The record in progress taken back: its segment, what is staged of it, and the staging places (R8). -/
def State.recordBack (s : State) : State :=
  (s.segmentBack.onRc (fun r => { r with record := none, segment := none, run := [], lookahead := [] })).onDbm (fun d => { d with staging := [] })

/-- A cut-back: the record taken back, then the slot freed that holds no entry (R8, R33). -/
theorem cutBack_eq (s : State) : s.cutBack =
    match s.recordBack.dbm.filling with
    | some (_, x) =>
      if x.entries.getD 0 = 0 then s.recordBack.sealSlot
      else if s.segmentBack.rc.record.isSome then s.recordBack.onRc Rc.emptyHistory else s.recordBack
    | none => s.recordBack := rfl

theorem recordBack_timer (s : State) : s.recordBack.dbm.sealTimer = s.dbm.sealTimer := by
  unfold State.recordBack State.segmentBack State.onFilling
  split
  · split <;> rfl
  · rfl

/-- What a cut-back leaves of the incomplete record: nothing (R8, R33). -/
theorem cutBack_emptied (s : State) : s.cutBack.rc.record = none ∧ s.cutBack.rc.segment = none ∧ s.cutBack.rc.run = []
    ∧ s.cutBack.rc.lookahead = [] ∧ s.cutBack.dbm.staging = []
    ∧ (s.cutBack.dbm.sealTimer = none ∨ s.cutBack.dbm.sealTimer = s.dbm.sealTimer) := by
  have timer := recordBack_timer s
  rw [cutBack_eq]
  split
  · split
    · rw [sealSlot_rc, sealSlot_staging]
      exact ⟨rfl, rfl, rfl, rfl, rfl, timer ▸ sealSlot_timer s.recordBack⟩
    · split <;> exact ⟨rfl, rfl, rfl, rfl, rfl, .inr timer⟩
  · exact ⟨rfl, rfl, rfl, rfl, rfl, .inr timer⟩

theorem Quiets.cutBack (h : Quiets a s) : Quiets a s.cutBack := by
  obtain ⟨_, _, e⟩ := (Stores.cutBack s).rest
  obtain ⟨record, segment, run, lookahead, staging, timer⟩ := cutBack_emptied s
  have same : s.cutBack.settings = s.settings := by rw [e]; rfl
  refine h.trans ⟨same, by rw [e], by rw [e], by rw [e], by rw [e], by rw [e], fun c => ⟨staging, ?_, record, segment, run, lookahead⟩⟩
  rcases timer with t | t
  · exact t
  · exact t.trans c.2.1

/-! ### The volume is full, or the next attempt begins -/

theorem executing_of_empty (empty : s.cu.queue = []) : s.executing = none := by simp [State.executing, empty]

theorem complete_of_empty (empty : s.cu.queue = []) (code : Code) (res : Results) : s.complete code res = s := by
  unfold State.complete
  rw [empty]

theorem Quiets.setDeferred (h : Quiets a s) (cause : DeferredCause) (first objects : Nat) : Quiets a (s.setDeferred cause first objects) :=
  h.trans ⟨rfl, List.prefix_refl _, rfl, rfl, rfl, rfl, id⟩

theorem Quiets.setEod (h : Quiets a s) (p : Nat) (e : EodKnown) : Quiets a (s.setEod p e) := by
  obtain ⟨_, eq⟩ := setEod_eq s p e
  rw [eq]
  exact h.trans ⟨rfl, List.prefix_refl _, rfl, rfl, rfl, rfl, id⟩

theorem Quiets.setPosition (h : Quiets a s) (object : Nat) (anchor : Option (Nat × Loc)) : Quiets a (s.setPosition object anchor) :=
  h.trans ⟨rfl, List.prefix_refl _, rfl, rfl, rfl, rfl, id⟩

theorem Quiets.discardWrite (h : Quiets a s) (empty : a.cu.queue = []) (cause : DeferredCause) : Quiets a (s.discardWrite cause).1 := by
  have given {t : State} (k : Quiets a t) (first n : Nat) :
      Quiets a (((t.when (t.dbm.direction == .write) (·.setDirection .neutral)).setDeferred cause first n).reportIfExecuting) := by
    have set := (k.when (t.dbm.direction == .write) (·.setDirection .neutral) k.setNeutral).setDeferred cause first n
    rw [State.reportIfExecuting, executing_of_empty (set.queue.trans empty)]
    exact set
  unfold State.discardWrite
  dsimp only
  split
  · exact given ((h.cutBack.onDbm _ (fun _ => by rfl) (fun _ => by exact .inr rfl)).onDbm _ (fun _ => by rfl) (fun _ => by exact .inl rfl)) _ _
  · exact given (h.cutBack.onDbm _ (fun _ => by rfl) (fun _ => by exact .inl rfl)) _ _

theorem Quiets.putEodBack (h : Quiets a s) (p : Nat) (fm : Option Nat) (f : EodKnown → EodKnown) : Quiets a (s.putEodBack p fm f) := by
  unfold State.putEodBack
  split
  · exact (h.when _ _ (h.onPu _ (fun _ => by rfl))).setEod _ _
  · exact h

theorem Quiets.wfStop (h : Quiets a s) : Quiets a s.wfStop := (h.stage _).setGoal _
theorem Quiets.backhitch (h : Quiets a s) (counted : Bool) : Quiets a (s.backhitch counted) := (h.stage _).setGoal _

theorem Quiets.resumeAt (h : Quiets a s) (t : Loc) (work : WfWork) (repositioning trip : Bool) : Quiets a (s.resumeAt t work repositioning trip) :=
  Quiets.ite (fun _ => (h.stage _).setGoal _) (fun _ => (h.stage _).resumeGoal _)

theorem Quiets.reportMark (h : Quiets a s) (l : Loc) (onTape : Bool) : Quiets a (s.reportMark l onTape) := by
  unfold State.reportMark
  dsimp only
  split
  · exact (h.onWf _).setEod _ _
  · exact h.onWf _

theorem Quiets.beginMark (h : Quiets a s) (kind : MarkKind) (trip : Bool) : Quiets a (s.beginMark kind trip) := by
  unfold State.beginMark
  dsimp only
  split
  · exact (h.reportMark _ _).wfStop
  · exact Quiets.ite (fun _ => ((h.onWf _).stage _).askWrapTurn _)
      (fun _ => Quiets.ite (fun _ => ((h.onWf _).stage _).setGoal _) (fun _ => (h.onWf _).resumeAt _ _ _ _))

theorem Quiets.volumeFull (h : Quiets a s) (empty : a.cu.queue = []) : Quiets a s.volumeFull := by
  have put (f : Wf → Wf) (p : Nat) (fm : Option Nat) (g : EodKnown → EodKnown) :=
    ((((h.raise .volumeFull).onWf f).discardWrite empty .volumeOverflow).putEodBack p fm g)
  unfold State.volumeFull
  dsimp only
  exact Quiets.ite (fun _ => (put _ _ _ _).beginMark _ _) (fun _ => ((put _ _ _ _).reportMark _ _).wfStop)

theorem Quiets.beginSlot (h : Quiets a s) : Quiets a s.beginSlot := by
  unfold State.beginSlot
  split
  · exact Quiets.ite (fun _ => (h.onDbm _ (fun _ => by rfl) (fun _ => by exact .inr rfl)).onWf _) (fun _ => h)
  · exact h

theorem Quiets.attemptFrom (h : Quiets a s) (empty : a.cu.queue = []) (l : Loc) (trip : Bool) : Quiets a (s.attemptFrom l trip) := by
  unfold State.attemptFrom
  split
  · exact h.volumeFull empty
  · exact (h.resumeAt _ _ _ _).onWf _

theorem Quiets.beginHeader (h : Quiets a s) (purpose : HeaderFor) (attempt : Nat) : Quiets a (s.beginHeader purpose attempt) :=
  ((h.onWf _).stage _).setGoal _

theorem Quiets.wfKick (h : Quiets a s) (empty : a.cu.queue = []) : Quiets a s.wfKick := by
  unfold State.wfKick
  exact Quiets.ite (fun _ => Quiets.ite (fun _ => h.beginHeader _ _) (fun _ => h.beginSlot.attemptFrom empty _ _)) (fun _ => h)

theorem Quiets.markNow (h : Quiets a s) : Quiets a s.markNow := Quiets.ite (fun _ => h.beginHeader _ _) (fun _ => h.beginMark _ _)

/-! ### What follows with no command in the queue -/

/-- With no command in the queue a flush that goes on leads nowhere but to the end of the writing. -/
theorem Quiets.advanceOnce (h : Quiets a s) (empty : a.cu.queue = []) : Quiets a s.advanceOnce := by
  have kicked := h.wfKick empty
  have queue : s.wfKick.cu.queue = [] := kicked.queue.trans empty
  unfold State.advanceOnce
  generalize s.wfKick = t at kicked queue
  dsimp only
  split
  · refine Quiets.ite (fun _ => kicked) (fun _ => Quiets.ite (fun _ => kicked.markNow) (fun _ => ?_))
    have done := kicked.wfStop.setNeutral
    rw [State.flushDone, State.ownWork, executing_of_empty (done.queue.trans empty)]
    exact done
  · refine Quiets.ite (fun _ => kicked) (fun _ => Quiets.ite (fun _ => kicked.markNow) (fun _ => ?_))
    rw [State.flushedHere, complete_of_empty queue]
    exact Quiets.ite (fun _ => kicked) (fun _ => kicked.backhitch _)
  · refine Quiets.ite (fun _ => kicked) (fun _ => Quiets.ite (fun _ => kicked.markNow) (fun _ => ?_))
    have placed := (kicked.wfStop.setNeutral).setPosition (t.wfStop.setDirection .neutral).pu.object
      ((t.wfStop.setDirection .neutral).eodHere.map EodKnown.anchor)
    rw [State.erased, complete_of_empty (placed.queue.trans empty)]
    exact placed
  · rw [executing_of_empty queue]
    exact kicked
  · exact kicked

theorem Quiets.advance (h : Quiets a s) (empty : a.cu.queue = []) : Quiets a s.advance := (h.advanceOnce empty).advanceOnce empty

end

end Sys2Proof.Machine
end

section
/-!
PROPERTY. ABORT: the queue answered in order, the incomplete record and the read path given up, every table in force kept (R4, R8, R19, R97, R98,
R182).
-/
namespace Sys2Proof.Machine
open Sys2Proof.Laws

/-! ### The position that an ABORT leaves (R117) -/

/-- Only the position may differ, with what it brings of the volume-full mark. -/
def Places (s t : State) : Prop :=
  ∃ (pu : Pu) (vf : Option Nat), t = { s with pu := pu, wf := { s.wf with volumeFull := vf } } ∧ pu.policy = s.pu.policy

theorem Places.refl (s : State) : Places s s := ⟨s.pu, s.wf.volumeFull, rfl, rfl⟩

theorem Places.trans {s t u : State} (h : Places s t) (k : Places t u) : Places s u := by
  obtain ⟨_, _, rfl, p⟩ := h
  obtain ⟨_, _, rfl, p'⟩ := k
  exact ⟨_, _, rfl, p'.trans p⟩

theorem Places.onPu (s : State) (f : Pu → Pu) (policy : (f s.pu).policy = s.pu.policy) : Places s (s.onPu f) := ⟨_, s.wf.volumeFull, rfl, policy⟩

theorem Places.clearFullMark (s : State) (unknown : Bool) : Places s (s.clearFullMark unknown) := by
  unfold State.clearFullMark
  cases s.belowEod unknown with
  | true => exact ⟨_, none, rfl, rfl⟩
  | false => exact Places.refl s

theorem Places.positionKept (s : State) : Places s s.positionKept := by
  unfold State.positionKept
  split
  · exact (Places.onPu s _ rfl).trans (Places.clearFullMark _ _)
  · exact (Places.onPu s _ rfl).trans (Places.clearFullMark _ _)
  · exact Places.onPu s _ rfl

theorem Places.positionProven (s : State) (d : Descriptor) : Places s (s.positionProven d) := by
  have placed : Places s (s.setPosition d.starting (some (d.dataset, d.start))) := Places.onPu s _ rfl
  unfold State.positionProven
  dsimp only
  split
  · exact placed.trans (Places.clearFullMark _ _)
  · exact placed.trans (Places.clearFullMark _ _)
  · exact placed

theorem Places.provenBoundary (s : State) (c : Scan) : Places s (s.provenBoundary c) := by
  unfold State.provenBoundary
  split
  · exact Places.refl s
  · split
    · split
      · exact Places.positionProven s _
      · exact Places.positionKept s
    · exact Places.positionKept s

theorem Places.positionFaults (s : State) : Places s s.positionFaults := by
  unfold State.positionFaults
  split
  · exact Places.provenBoundary s _
  · split
    · exact Places.positionKept s
    · exact Places.positionKept s
    · exact Places.refl s

/-! ### The queue (R182) -/

/-- The command at the head answered, whatever it is: the credits may lapse. -/
theorem complete_rest {s : State} {q : Queued} {rest : List Queued} (queue : s.cu.queue = q :: rest) (code : Code) (res : Results) :
    ∃ (r : Results) (credits : Nat), s.complete code res = { s with
      spu := { s.spu with credits := credits, out := s.spu.out ++ [.resp q.tag q.command.name (.done code r [])] },
      cu := { s.cu with queue := rest, progress := .none, count := 0, finals := 0 } } := by
  unfold State.complete
  rw [queue]
  dsimp only
  split
  · exact ⟨_, 0, rfl⟩
  · exact ⟨_, s.spu.credits, rfl⟩

/-- Each command of the queue is answered ABORTED, in order, and nothing else is done. -/
theorem abortQueue_answers (queue : List Queued) (s : State) (h : s.cu.queue = queue) : ∃ (answers : List Packet) (credits : Nat) (cu : Cu),
    State.abortQueue queue.length s = { s with spu := { s.spu with credits := credits, out := s.spu.out ++ answers }, cu := cu }
    ∧ cu.queue = [] ∧ cu.policy = s.cu.policy ∧ answers.length = queue.length
    ∧ ∀ (i : Nat) (q : Queued), queue[i]? = some q → ∃ r : Results, answers[i]? = some (.resp q.tag q.command.name (.done .aborted r [])) := by
  induction queue generalizing s with
  | nil => exact ⟨[], s.spu.credits, s.cu, by simp [State.abortQueue], h, rfl, rfl, by simp⟩
  | cons q rest ih =>
    obtain ⟨r, credits, done⟩ := complete_rest h .aborted { count := s.cu.count, object := if s.executing.isSome then s.pu.object else 0 }
    generalize next : s.complete .aborted { count := s.cu.count, object := if s.executing.isSome then s.pu.object else 0 } = u at done
    obtain ⟨answers, credits', cu, all, empty, policy, length, each⟩ := ih u (by rw [done])
    refine ⟨.resp q.tag q.command.name (.done .aborted r []) :: answers, credits', cu, ?_, empty, by rw [policy, done], by simp [length], ?_⟩
    · rw [List.length_cons, State.abortQueue, h]
      dsimp only
      rw [next, all, done]
      simp
    · intro i p hp
      cases i with
      | zero =>
        simp only [List.getElem?_cons_zero, Option.some.injEq] at hp ⊢
        exact ⟨r, by rw [hp]⟩
      | succ i => simpa using each i p (by simpa using hp)

/-! ### The motion, and the Reader -/

theorem abortMotion_rest (s : State) : ∃ (pu : Pu) (rtc : Rtc) (sv : Sv), s.abortMotion = { s with pu := pu, rtc := rtc, sv := sv }
    ∧ pu.policy = s.pu.policy := by
  have stop (t : State) : ∃ (rtc : Rtc) (sv : Sv), t.setGoal .stop = { t with rtc := rtc, sv := sv } := (Drives.setGoal t .stop rfl).rest
  unfold State.abortMotion
  split
  · obtain ⟨rtc, sv, e⟩ := stop (s.onPu (fun u => { u with scan := none }))
    exact ⟨{ s.pu with scan := none }, rtc, sv, by rw [State.scanStops, e]; rfl, rfl⟩
  · obtain ⟨rtc, sv, e⟩ := stop s
    exact ⟨_, rtc, sv, e, rfl⟩
  · obtain ⟨rtc, sv, e⟩ := stop s
    exact ⟨_, rtc, sv, e, rfl⟩
  · exact ⟨_, _, _, rfl, rfl⟩

/-- The Reader stopped: its LOADING slot is freed, and a tape it moves stops (R11, R97). -/
theorem stopReader_rest (s : State) : ∃ (slots : List Slot) (rtc : Rtc) (sv : Sv),
    s.stopReader = { s with dbm := { s.dbm with slots := slots }, rdr := Rdr.stopped s.rdr, rtc := rtc, sv := sv }
    ∧ ((∀ x, s.dbm.slots.getLast? = some x → x.state ≠ .loading) → slots = s.dbm.slots) := by
  have moved (b : Bool) (t : State) : ∃ (rtc : Rtc) (sv : Sv), t.when b (·.setGoal .stop) = { t with rtc := rtc, sv := sv } := by
    cases b with
    | true => exact (Drives.setGoal t .stop rfl).rest
    | false => exact ⟨_, _, rfl⟩
  unfold State.stopReader
  dsimp only
  obtain ⟨rtc, sv, e⟩ := moved s.rdr.moving ((s.when ((s.dbm.slots.getLast?.map (fun x => x.state == .loading)).getD false)
    (·.onDbm Dbm.dropNewest)).onRdr Rdr.stopped)
  rw [e]
  cases loading : (s.dbm.slots.getLast?.map (fun x => x.state == .loading)).getD false with
  | true =>
    refine ⟨s.dbm.slots.dropLast, rtc, sv, rfl, fun other => ?_⟩
    cases last : s.dbm.slots.getLast? with
    | none => simp [last] at loading
    | some x => simp [last, other x last] at loading
  | false => exact ⟨s.dbm.slots, rtc, sv, rfl, fun _ => rfl⟩

/-- The read path given up: the buffer empty and NEUTRAL, the Reader stopped (R13, R97). -/
theorem leaveRead_read {s : State} (read : s.dbm.direction = .read) : ∃ (dbm : Dbm) (rx : Rx) (sm : Sm) (rtc : Rtc) (sv : Sv),
    s.leaveRead = { s with dbm := dbm, rx := rx, rdr := Rdr.stopped s.rdr, sm := sm, rtc := rtc, sv := sv }
    ∧ dbm.slots = [] ∧ dbm.direction = .neutral ∧ dbm.staging = s.dbm.staging ∧ dbm.sealTimer = s.dbm.sealTimer ∧ sm.table = s.sm.table := by
  obtain ⟨slots, rtc, sv, e, same⟩ := stopReader_rest ((s.onDbm Dbm.discardAll).onRx Rx.giveUp)
  have empty : slots = [] := same (by simp [Dbm.discardAll])
  have discarded : s.discardRead = ((s.onDbm Dbm.discardAll).onRx Rx.giveUp).stopReader := if_pos (by simp [read])
  rw [State.leaveRead, if_pos (by simp [read]), discarded, e, empty]
  unfold State.setDirection
  rw [if_neg (by simp [Dbm.discardAll, read])]
  exact ⟨_, _, _, rtc, sv, rfl, rfl, rfl, rfl, rfl, rfl⟩

theorem leaveRead_other {s : State} (other : s.dbm.direction ≠ .read) : s.leaveRead = s := if_neg (by simpa using other)

/-! ### The FILLING slot cut back and sealed (R8) -/

theorem filling_of_concat {d : Dbm} {older : List Slot} {x : Slot} (slots : d.slots = older ++ [x]) (filling : x.state = .filling) :
    d.filling = some (older.length, x) := filling_eq_some.mpr ⟨filling, older, slots, rfl⟩

theorem filling_eq_none {d : Dbm} (h : ∀ x ∈ d.slots, x.state ≠ .filling) : d.filling = none := by
  cases e : d.filling with
  | none => rfl
  | some p =>
    obtain ⟨filling, older, slots, _⟩ := filling_eq_some.mp e
    exact absurd filling (h p.2 (by simp [slots]))

theorem sealSlot_empty {s : State} {older : List Slot} {x : Slot} (slots : s.dbm.slots = older ++ [x]) (filling : x.state = .filling)
    (empty : x.entries.getD 0 = 0) : s.sealSlot.dbm.slots = older := by
  unfold State.sealSlot
  rw [filling_of_concat slots filling]
  dsimp only
  rw [if_pos empty]
  simp [Dbm.dropNewest, slots]

theorem sealSlot_seals {s : State} {older : List Slot} {x : Slot} (slots : s.dbm.slots = older ++ [x]) (filling : x.state = .filling)
    (entries : x.entries.getD 0 ≠ 0) : s.sealSlot.dbm.slots = older ++ [{ x with state := .sealed }] := by
  unfold State.sealSlot
  rw [filling_of_concat slots filling]
  dsimp only
  rw [if_neg entries]
  simp [Dbm.setSlot, slots, modify_concat]

theorem sealSlot_none {s : State} (h : s.dbm.filling = none) : s.sealSlot = s := by
  unfold State.sealSlot
  rw [h]

/-- The slots behind the newest of a write path are not FILLING, nor of a read path. -/
theorem Dbm.RingSound.older {d : Dbm} (ring : d.RingSound) (direction : d.direction = .write) {older : List Slot} {x : Slot}
    (slots : d.slots = older ++ [x]) : ∀ y ∈ older, y.state = .writing ∨ y.state = .sealed := by
  intro y mem
  have run := ((ringSound_iff d).mp ring).2.2.2.1 direction
  rw [slots, List.map_append] at run
  obtain ⟨⟨front, n, e, front_⟩, _⟩ := run.concat
  have state : y.state ∈ front ++ List.replicate n SlotState.sealed := e ▸ List.mem_map_of_mem mem
  rcases List.mem_append.mp state with m | m
  · rcases front_ with rfl | rfl
    · simp at m
    · exact .inl (by simpa using m)
  · exact .inr (List.eq_of_mem_replicate m)

/-- The FILLING slot cut back to its last entry and SEALED; one with none is freed. -/
theorem cutBack_sealSlot_slots {s : State} {older : List Slot} {x : Slot} (ring : s.dbm.RingSound) (direction : s.dbm.direction = .write)
    (slots : s.dbm.slots = older ++ [x]) (filling : x.state = .filling) :
    s.cutBack.sealSlot.dbm.slots = older ++ (if x.entries.getD 0 = 0 then []
      else [{ x with state := .sealed, payload := (s.rc.segment.map Segment.start).or x.payload }]) := by
  have back : s.recordBack.dbm.slots = older ++ [{ x with payload := (s.rc.segment.map Segment.start).or x.payload }] := by
    unfold State.recordBack State.segmentBack
    cases s.rc.segment with
    | none => exact slots
    | some g =>
      simp only [Option.map_some, State.onFilling, filling_of_concat slots filling]
      simp [Dbm.setSlot, slots, modify_concat]
  rw [cutBack_eq, filling_of_concat back filling]
  dsimp only
  split
  · next empty =>
    have freed := sealSlot_empty back filling empty
    rw [sealSlot_none (filling_eq_none ?_), freed, List.append_nil]
    intro y mem
    rw [freed] at mem
    rcases ring.older direction slots y mem with e | e <;> simp [e]
  · next entries =>
    have kept {t : State} (e : t.dbm.slots = s.recordBack.dbm.slots) := sealSlot_seals (s := t) (e.trans back) filling entries
    split
    · exact kept rfl
    · exact kept rfl

/-! ### The buffer at an ABORT -/

/-- What an ABORT makes of the buffer, the Record Compressor and the Reader. -/
structure Aborts (s t : State) : Prop where
  rest : ∃ (dbm : Dbm) (rc : Rc) (rx : Rx) (rdr : Rdr) (sm : Sm) (rtc : Rtc) (sv : Sv),
    t = { s with dbm := dbm, rc := rc, rx := rx, rdr := rdr, sm := sm, rtc := rtc, sv := sv }
  table : t.sm.table = s.sm.table
  cleared : t.Cleared
  rdr : t.rdr = if s.rdr.activity = .header ∧ s.dbm.direction ≠ .read then s.rdr else Rdr.stopped s.rdr
  read : s.dbm.direction = .read → t.dbm.slots = [] ∧ t.dbm.direction = .neutral
  filling : ∀ (x : Slot) (older : List Slot), s.dbm.RingSound → s.dbm.direction = .write → s.dbm.slots = older ++ [x] → x.state = .filling →
    t.dbm.slots = older ++ (if x.entries.getD 0 = 0 then []
      else [{ x with state := .sealed, payload := (s.rc.segment.map Segment.start).or x.payload }])

theorem aborts_buffer (s : State) : Aborts s s.abortBuffer := by
  obtain ⟨record, segment, run, lookahead, staging, _⟩ := cutBack_emptied s
  obtain ⟨b, hb⟩ : ∃ b, b = s.cutBack.sealSlot.onDbm (fun d => { d with sealTimer := none }) := ⟨_, rfl⟩
  have stores : ∃ (dbm : Dbm) (rc : Rc), b = { s with dbm := dbm, rc := rc } := by
    obtain ⟨_, _, e⟩ := ((Stores.cutBack s).trans (Stores.sealSlot _)).rest
    exact ⟨_, _, by rw [hb, e]; rfl⟩
  have direction : b.dbm.direction = s.dbm.direction := by rw [hb]; exact ((Stores.cutBack s).trans (Stores.sealSlot _)).direction
  have slots : b.dbm.slots = s.cutBack.sealSlot.dbm.slots := by rw [hb, onDbm_dbm]
  have cleared : b.Cleared := by
    rw [hb]
    exact ⟨(sealSlot_staging _).trans staging, rfl, by rw [onDbm_rc, sealSlot_rc, record], by rw [onDbm_rc, sealSlot_rc, segment],
      by rw [onDbm_rc, sealSlot_rc, run], by rw [onDbm_rc, sealSlot_rc, lookahead]⟩
  have whole : s.abortBuffer = b.leaveRead.abortReader := by rw [hb]; rfl
  obtain ⟨dbm, rc, same⟩ := stores
  have rdr : b.rdr = s.rdr := by rw [same]
  by_cases read : s.dbm.direction = .read
  · obtain ⟨dbm', rx, sm, rtc, sv, left, empty, neutral, staging', timer, table⟩ := leaveRead_read (direction.trans read)
    obtain ⟨slots', rtc', sv', stopped, kept⟩ := stopReader_rest b.leaveRead
    have aborted : s.abortBuffer = b.leaveRead.stopReader := by
      rw [whole, State.abortReader, State.when, if_pos]
      rw [left]
      rfl
    have none_ : slots' = [] := (kept (by rw [left]; simp [empty])).trans (by rw [left]; exact empty)
    rw [aborted, stopped, left, none_]
    refine ⟨⟨_, _, _, _, _, _, _, by rw [same]⟩, ?_, ?_, ?_, fun _ => ⟨rfl, neutral⟩, fun _ _ _ write => absurd (write.symm.trans read) (by simp)⟩
    · rw [same] at table
      exact table
    · exact ⟨staging'.trans cleared.1, timer.trans cleared.2.1, cleared.2.2⟩
    · rw [if_neg (fun c => c.2 read)]
      show Rdr.stopped (Rdr.stopped b.rdr) = Rdr.stopped s.rdr
      rw [rdr]
      rfl
  · have left : b.leaveRead = b := leaveRead_other (by rw [direction]; exact read)
    have sealed_ {x : Slot} {older : List Slot} (ring : s.dbm.RingSound) (write : s.dbm.direction = .write) (e : s.dbm.slots = older ++ [x])
        (filling : x.state = .filling) := slots.trans (cutBack_sealSlot_slots ring write e filling)
    by_cases header : s.rdr.activity = .header
    · have aborted : s.abortBuffer = b := by
        rw [whole, left, State.abortReader, State.when, if_neg (by simp [rdr, header])]
      rw [aborted]
      exact ⟨⟨_, _, _, _, _, _, _, same⟩, by rw [same], cleared, by rw [if_pos ⟨header, read⟩, rdr], fun r => absurd r read,
        fun x older ring write e filling => sealed_ ring write e filling⟩
    · obtain ⟨slots', rtc', sv', stopped, kept⟩ := stopReader_rest b
      have aborted : s.abortBuffer = b.stopReader := by
        rw [whole, left, State.abortReader, State.when, if_pos (by simp [rdr, header])]
      rw [aborted, stopped]
      refine ⟨⟨_, _, _, _, _, _, _, by rw [same]⟩, by rw [same], ⟨cleared.1, cleared.2.1, cleared.2.2⟩, ?_, fun r => absurd r read,
        fun x older ring write e filling => ?_⟩
      · rw [if_neg (fun c => header c.1)]
        exact congrArg Rdr.stopped rdr
      · rw [kept fun y last => ?_]
        · exact sealed_ ring write e filling
        · rw [sealed_ ring write e filling] at last
          split at last
          · rw [List.append_nil] at last
            rcases ring.older write e y (List.mem_of_getLast? last) with st | st <;> simp [st]
          · simp only [List.getLast?_append, List.getLast?_singleton, Option.some_or, Option.some.injEq] at last
            simp [← last]

/-! ### What follows an ABORT -/

section
variable {s : State} (empty : s.cu.queue = [])
include empty

/-- Without a write path nothing that follows changes the buffer. -/
theorem advanceOnce_dbm (neutral : s.dbm.direction = .neutral) : s.advanceOnce.dbm = s.dbm := by
  have mark : s.markNow.dbm = s.dbm := by
    unfold State.markNow State.beginHeader State.beginMark State.wfStop State.resumeAt State.stage
    split
    · simp
    · dsimp only
      split
      · obtain ⟨_, _, _, e, _⟩ := reportMark_rest s s.appendLoc false
        simp [e]
      · split
        · simp
        · split
          · simp
          · split <;> simp
  have still (t : State) (dbm : t.dbm = s.dbm) : (t.setDirection .neutral).dbm = s.dbm := by
    rw [setDirection_dbm, dbm, ← neutral]
  unfold State.advanceOnce
  rw [wfKick_of_busy (writesNext_of_direction (by simp [neutral]))]
  dsimp only
  split
  · split
    · rfl
    · split
      · exact mark
      · have queue : (s.wfStop.setDirection .neutral).cu.queue = [] := by simp [State.wfStop, State.stage, empty]
        rw [State.flushDone, State.ownWork, executing_of_empty queue]
        exact still _ (by simp [State.wfStop, State.stage])
  · split
    · rfl
    · split
      · exact mark
      · rw [State.flushedHere, complete_of_empty empty]
        split <;> simp [State.backhitch, State.stage]
  · split
    · rfl
    · split
      · exact mark
      · have queue : ((s.wfStop.setDirection .neutral).setPosition (s.wfStop.setDirection .neutral).pu.object
            ((s.wfStop.setDirection .neutral).eodHere.map EodKnown.anchor)).cu.queue = [] := by
          simp [State.setPosition, State.wfStop, State.stage, empty]
        rw [State.erased, complete_of_empty queue]
        exact still _ (by simp [State.wfStop, State.stage])
  · rw [executing_of_empty empty]
  · rfl

theorem advance_dbm (neutral : s.dbm.direction = .neutral) : s.advance.dbm = s.dbm := by
  have once := advanceOnce_dbm empty neutral
  rw [State.advance, advanceOnce_dbm (((Quiets.refl s).advanceOnce empty).queue.trans empty) (by rw [once, neutral]), once]

/-- While a span is written nothing follows. -/
theorem advance_of_span (span : s.wf.stage = .span) : s.advance = s := by
  have once : s.advanceOnce = s := by
    have busy : s.writtenOut = false := by simp [State.writtenOut, Wf.quiet, span]
    unfold State.advanceOnce
    rw [wfKick_of_busy (writesNext_of_stage (by simp [span]) (by simp [span]))]
    simp only [busy, executing_of_empty empty, Bool.not_false, if_true]
    split <;> rfl
  rw [State.advance, once, once]

end

/-- Settles O10: the queue answered (`abortQueue_answers`), the buffer given up (`aborts_buffer`), and then no more than the writing goes on
(`Quiets.advance`). -/
theorem abortEmptiesTheQueue : Obligations.AbortEmptiesTheQueue := by
  intro tag s run
  obtain ⟨pu, vf, placed, policy⟩ := Places.positionFaults s
  obtain ⟨answers, credits, cu, answered, empty, cuPolicy, length, each⟩ := abortQueue_answers s.positionFaults.cu.queue s.positionFaults rfl
  obtain ⟨w, hw⟩ : ∃ w, w = ((State.abortQueue s.positionFaults.cu.queue.length s.positionFaults).onSpu
    (fun x => { x with credits := 0, readCredits := 0 })).abortMotion := ⟨_, rfl⟩
  obtain ⟨pu', rtc, sv, moved, policy'⟩ := abortMotion_rest ((State.abortQueue s.positionFaults.cu.queue.length s.positionFaults).onSpu
    (fun x => { x with credits := 0, readCredits := 0 }))
  rw [← hw, answered, placed] at moved
  rw [answered, placed] at policy'
  rw [placed] at cuPolicy length each
  have before : w.settings = s.settings := by
    have position : pu'.policy = s.pu.policy := policy'.trans policy
    have recovery : cu.policy = s.cu.policy := cuPolicy
    rw [moved]
    show (cu.policy, s.sm.table, pu'.policy, s.hm.policy, s.eu.mask, s.spu.linkErrors) = s.settings
    rw [position, recovery]
    rfl
  obtain ⟨b, hb⟩ : ∃ b, b = w.abortBuffer.onPu (fun u => { u with scan := none, cut := none }) := ⟨_, rfl⟩
  have aborts := aborts_buffer w
  obtain ⟨dbm, rc, rx, rdr, sm, rtc', sv', rest⟩ := aborts.rest
  have ended : s.abort = b.advance := by rw [hb, hw]; rfl
  have queue : b.cu.queue = [] := by rw [hb, onPu_cu, rest, moved]; exact empty
  have after := (Quiets.refl b).advance queue
  have settings : b.settings = s.settings := by
    rw [← before, hb]
    have table : sm.table = w.sm.table := by rw [← aborts.table, rest]
    rw [rest]
    show (w.cu.policy, sm.table, w.pu.policy, w.hm.policy, w.eu.mask, w.spu.linkErrors) = w.settings
    rw [table]
    rfl
  have bdbm : b.dbm = w.abortBuffer.dbm := by rw [hb, onPu_dbm]
  have wdbm : w.dbm = s.dbm := by rw [moved]; rfl
  have wrdr : w.rdr = s.rdr := by rw [moved]; rfl
  have out : b.spu.out = s.spu.out ++ answers := by rw [hb, onPu_spu, rest, moved]; rfl
  obtain ⟨notes, sent⟩ := after.out
  have cleared : b.advance.Cleared := after.cleared (by rw [hb]; exact aborts.cleared)
  obtain ⟨staging, timer, record, segment, taken, lookahead⟩ := cleared
  have kept := after.settings.trans settings
  simp only [State.settings, Prod.mk.injEq] at kept
  obtain ⟨cuKept, table, puKept, hmKept, mask, links⟩ := kept
  have reader : b.advance.rdr = if s.rdr.activity = .header ∧ s.dbm.direction ≠ .read then s.rdr else Rdr.stopped s.rdr := by
    rw [after.rdr, hb, onPu_rdr, aborts.rdr, wdbm, wrdr]
  refine ⟨b.advance.answer tag nameAbrt Answer.ok, answers, notes, ?_, ?_, length, each, after.queue.trans queue, ?_, ?_, staging, timer, record,
    segment, taken, lookahead, cuKept, table, puKept, hmKept, mask, links, fun read => ?_, fun h => ?_, fun header other => ?_, ?_⟩
  · rw [← ended]
    simp [exec, execAbort, State.quick, run]
  · rw [State.answer, send_spu, ← sent, out]
    rfl
  · exact after.credits.trans (by rw [hb, onPu_spu, rest, moved]; rfl)
  · exact after.readCredits.trans (by rw [hb, onPu_spu, rest, moved]; rfl)
  · obtain ⟨slots, direction⟩ := aborts.read (wdbm ▸ read)
    have same := advance_dbm queue (by rw [bdbm]; exact direction)
    rw [State.answer, send_dbm, same, bdbm]
    exact ⟨slots, direction⟩
  · have stopped : b.advance.rdr = Rdr.stopped s.rdr := reader.trans (if_neg (fun c => h.elim (fun x => x c.1) c.2))
    rw [State.answer, send_rdr, stopped]
    exact ⟨rfl, rfl, rfl, rfl, rfl, tally_zero⟩
  · exact reader.trans (if_pos ⟨header, other⟩)
  · intro x older ring write slots filling span
    have still : b.advance = b := advance_of_span queue (by rw [hb, onPu_wf, rest, moved]; exact span)
    have sealed_ := aborts.filling x older (wdbm ▸ ring) (wdbm ▸ write) (wdbm ▸ slots) filling
    rw [State.answer, send_dbm, still, bdbm, sealed_]
    have segment : w.rc = s.rc := by rw [moved]; rfl
    rw [segment]

end Sys2Proof.Machine
end

section
/-!
SUPPORT. The FILLING slot sealed (R6): what it leaves in the ring and in the DRAM; and what follows a step while a span is written.
-/
namespace Sys2Proof.Machine
open Sys2Proof.Laws

/-! ### The DRAM of a slot sealed -/

/-- The DRAM with the slot at an address sealed: its trailer written, then the payload padded with zero bytes (R6). -/
def Memory.sealed (m : Memory) (base : Nat) (x : Slot) : Memory :=
  (m.writeBytes (base + Config.indexTop) (x.trailer (m.entry base 0).kind.continues).bytes).clear (base + x.payload.getD 0)
    (base + entryOffset (x.entries.getD 0 - 1))

theorem leBytes_length (w n : Nat) : (leBytes w n).length = w := by
  induction w generalizing n with
  | zero => rfl
  | succ w ih => simp [leBytes, ih]

theorem trailer_length (t : Trailer) : t.bytes.length = 64 := by simp [Trailer.bytes, leBytes_length]

theorem entryOffset_last {n : Nat} (some_ : 1 ≤ n) : entryOffset (n - 1) = 1966016 - 16 * n := by
  rw [entryOffset, Nat.sub_add_cancel some_]
  rfl

/-- What a slot sealed reads as: zero bytes between payload and index, the trailer, every other byte as before. -/
structure Padded (m t : Memory) (base : Nat) (x : Slot) : Prop where
  padding : ∀ a : Nat, base + x.payload.getD 0 ≤ a → a < base + (1966016 - 16 * x.entries.getD 0) → t.read a = 0
  trailer : ∀ k : Nat, k < 64 → t.read (base + 1966016 + k) = (x.trailer (m.entry base 0).kind.continues).bytes.getD k 0
  others : ∀ a : Nat, (a < base + x.payload.getD 0 ∨ (base + (1966016 - 16 * x.entries.getD 0) ≤ a ∧ a < base + 1966016)
    ∨ base + 1966080 ≤ a) → t.read a = m.read a

theorem sealed_padded {m : Memory} (wf : m.wf = true) (base : Nat) {x : Slot} (some_ : 1 ≤ x.entries.getD 0)
    (fits : x.payload.getD 0 ≤ 1966016 - 16 * x.entries.getD 0) : Padded m (m.sealed base x) base x := by
  have read (a : Nat) : (m.sealed base x).read a
      = if base + x.payload.getD 0 ≤ a ∧ a < base + (1966016 - 16 * x.entries.getD 0) then unlistedByte
        else if base + 1966016 ≤ a ∧ a < base + 1966016 + 64
        then (x.trailer (m.entry base 0).kind.continues).bytes.getD (a - (base + 1966016)) 0 else m.read a := by
    rw [Memory.sealed, read_clear, read_writeBytes _ _ _ _ wf, trailer_length, entryOffset_last some_]
    rfl
  refine ⟨fun a low high => ?_, fun k lt => ?_, fun a out => ?_⟩
  · rw [read, if_pos ⟨low, high⟩]
    rfl
  · rw [read, if_neg (by omega), if_pos (by omega), Nat.add_sub_cancel_left]
  · rw [read, if_neg (by omega), if_neg (by omega)]

/-! ### The slot sealed -/

/-- The FILLING slot at the newest end sealed, or freed where it has no entry: nothing else of the part changes. -/
theorem sealSlot_eq {s : State} {older : List Slot} {x : Slot} (slots : s.dbm.slots = older ++ [x]) (filling : x.state = .filling) :
    s.sealSlot = { s with dbm := { s.dbm with
      slots := older ++ (if x.entries.getD 0 = 0 then [] else [{ x with state := .sealed }])
      sealTimer := none
      dram := if x.entries.getD 0 = 0 then s.dbm.dram else s.dbm.dram.sealed (s.dbm.base older.length) x } } := by
  unfold State.sealSlot
  rw [filling_of_concat slots filling]
  dsimp only
  split
  · simp [State.onDbm, Dbm.dropNewest, slots]
  · simp [State.onDbm, Dbm.setSlot, slots, modify_concat, Memory.sealed]

/-- With no segment in progress the seal is at once. -/
theorem sealForCause_eq {s : State} {older : List Slot} {x : Slot} (slots : s.dbm.slots = older ++ [x]) (filling : x.state = .filling)
    (segment : s.rc.segment = none) : s.sealForCause = s.sealSlot := by
  rw [State.sealForCause, filling_of_concat slots filling, segment]
  rfl

/-! ### An entry placed, the limit -/

theorem ensureSealTimer_eq (s : State) : s.ensureSealTimer = s.onDbm (fun d => { d with
    sealTimer := if d.sealTimer.isSome then d.sealTimer else some { elapsed := 0, period := s.sm.table.sealTimeout } }) := by
  unfold State.ensureSealTimer
  split
  · next on => simp [State.onDbm, on]
  · next off => simp [State.startSealTimer, State.onDbm, off]

/-- An entry that completes an object placed below those in the FILLING slot (R18, R30, R104). -/
theorem putEntry_eq {s : State} {older : List Slot} {x : Slot} {e : IndexEntry} (slots : s.dbm.slots = older ++ [x])
    (filling : x.state = .filling) (completes : e.kind.completes = true) : s.putEntry e = { s with
      dbm := { s.dbm with
        slots := older ++ [{ x with entries := some (x.entries.getD 0 + 1), objects := x.objects + 1,
                                    filemarks := x.filemarks + if e.kind == .filemark then 1 else 0 }]
        sealTimer := if s.dbm.sealTimer.isSome then s.dbm.sealTimer else some { elapsed := 0, period := s.sm.table.sealTimeout }
        dram := s.dbm.dram.writeBytes (s.dbm.base older.length + entryOffset (x.entries.getD 0)) e.bytes }
      rc := { s.rc with resetOwed := false }
      pu := { s.pu with object := s.pu.object + 1, anchor := none } } := by
  unfold State.putEntry
  rw [filling_of_concat slots filling]
  dsimp only
  rw [if_pos completes, if_pos completes]
  rw [ensureSealTimer_eq]
  simp [State.onDbm, State.onRc, State.onPu, Dbm.onDram, Dbm.setSlot, slots, modify_concat]

/-- Below 4,096 entries nothing is sealed (R30). -/
theorem sealAtLimit_below {s : State} {older : List Slot} {x : Slot} (slots : s.dbm.slots = older ++ [x]) (filling : x.state = .filling)
    (room : x.entries.getD 0 < 4096) : s.sealAtLimit = s := by
  rw [State.sealAtLimit, filling_of_concat slots filling]
  exact if_neg (by simpa [Config.maxEntries] using room)

theorem executing_of_queue {s t : State} (h : t.cu.queue = s.cu.queue) : t.executing = s.executing := by simp [State.executing, h]

/-! ### While a span is written -/

theorem wfKick_of_span {s : State} (span : s.wf.stage = .span) : s.wfKick = s :=
  wfKick_of_busy (writesNext_of_stage (by simp [span]) (by simp [span]))

/-- While a span is written nothing follows a step, whatever waits for the writing. -/
theorem advance_of_writing {s : State} (span : s.wf.stage = .span) (other : s.cu.progress ≠ .filemarks) : s.advance = s := by
  have once : s.advanceOnce = s := by
    have busy : s.writtenOut = false := by simp [State.writtenOut, Wf.quiet, span]
    unfold State.advanceOnce
    rw [wfKick_of_span span]
    simp only [busy, Bool.not_false, if_true]
    split
    · rfl
    · rfl
    · rfl
    · next e => exact absurd e other
    · rfl
  rw [State.advance, once, once]

end Sys2Proof.Machine
end

section
/-!
PROPERTY. A command begins (R6, R14, R15, R17, R32, R56, R104, R107, R175): what it reports or is refused at once, the flush it begins, the write
that goes on behind the slots there are.
-/
namespace Sys2Proof.Machine
open Sys2Proof.Laws

/-! ### The head of the queue begins -/

/-- The command at the head begun, with its progress. -/
def State.begunAs (s : State) (q : Queued) (rest : List Queued) (p : Progress) : State :=
  { s with cu := { s.cu with queue := { q with begun := true } :: rest, progress := p, count := 0, finals := 0 } }

theorem unstable_iff (r : Rtc) : r.unstable = true ↔ r.cartridge ∈ [.threading, .tensioning, .headerRead, .unloading] := by
  simp [Rtc.unstable, or_assoc]

theorem begins_waits {s : State} {q : Queued} {rest : List Queued} (queue : s.cu.queue = q :: rest)
    (unstable : s.rtc.cartridge ∈ [.threading, .tensioning, .headerRead, .unloading]) : s.beginsExecution = s := by
  simp [State.beginsExecution, State.mayBegin, queue, (unstable_iff s.rtc).mpr unstable]

section
variable {s : State} {q : Queued} {rest : List Queued} (queue : s.cu.queue = q :: rest) (fresh : q.begun = false)
  (stable : s.rtc.cartridge ∉ [.threading, .tensioning, .headerRead, .unloading])
include queue fresh stable

theorem begins_eq : s.beginsExecution = (match s.cu.deferred with
    | some _ => (s.begunAs q rest .none).reportDeferred
    | none => if s.rtc.permits q.command then (s.begunAs q rest .none).begin.advance else (s.begunAs q rest .none).complete .notReady {}) := by
  have may : s.mayBegin = true := by
    have calm : s.rtc.unstable = false := by simpa only [← Bool.not_eq_true, unstable_iff] using stable
    simp [State.mayBegin, queue, fresh, calm]
  have head : s.onCu Cu.beginHead = s.begunAs q rest .none := by simp [State.onCu, Cu.beginHead, queue, State.begunAs]
  unfold State.beginsExecution
  rw [if_neg (by simp [may]), head]
  dsimp only
  have executing : (s.begunAs q rest .none).executing = some q.command := executing_of_begun (q := { q with begun := true }) rfl rfl
  rw [executing]
  show (match s.cu.deferred, some q.command with
    | some _, _ => _
    | none, some c => if s.rtc.permits c then _ else _
    | none, none => _) = _
  cases s.cu.deferred <;> rfl

theorem begins_runs (deferred : s.cu.deferred = none) (permitted : s.rtc.permits q.command = true) :
    s.beginsExecution = (s.begunAs q rest .none).begin.advance := by
  rw [begins_eq queue fresh stable, deferred]
  exact if_pos permitted

end

/-! ### The flush begins -/

theorem beginFlush_eq {s : State} {older : List Slot} {x : Slot} (slots : s.dbm.slots = older ++ [x]) (filling : x.state = .filling)
    (segment : s.rc.segment = none) (p : Progress) : s.beginFlush p = { s with
      cu := { s.cu with progress := p }
      dbm := { s.dbm with
        slots := older ++ (if x.entries.getD 0 = 0 then [] else [{ x with state := .sealed }])
        sealTimer := none
        dram := if x.entries.getD 0 = 0 then s.dbm.dram else s.dbm.dram.sealed (s.dbm.base older.length) x } } := by
  rw [State.beginFlush, sealForCause_eq slots filling segment, sealSlot_eq slots filling]
  rfl

theorem flushFirst_write {s : State} (direction : s.dbm.direction = .write) : s.flushFirst = s.beginFlush .flushing :=
  if_pos (by simp [direction])

theorem flushHere_write {s : State} (direction : s.dbm.direction = .write) : s.flushHere = s.beginFlush .flushInPlace :=
  if_pos (by simp [direction])

/-- Checks 1 to 3 of R107 pass. -/
theorem earlyCheck_none {s : State} (protect : s.rtc.writeProtect ≠ some true) (policy : s.writePolicy s.pu.partition ≠ .readOnly)
    (volume : s.pu.volume ≠ .headerFault) : s.earlyCheck = none := by
  simp [State.earlyCheck, protect, policy, volume]

/-- Checks 4 and 5 of R107 pass where the EOD is known. -/
theorem lateCheck_none {s : State} {e : EodKnown} (eod : s.eodHere = some e)
    (append : s.writePolicy s.pu.partition = .appendOnly → e.object ≤ s.pu.object)
    (full : s.wf.volumeFull = some s.pu.partition → s.pu.object < e.object) : s.lateCheck = none := by
  unfold State.lateCheck
  rw [eod]
  dsimp only
  rw [if_neg, if_neg]
  · rintro ⟨f, le⟩
    exact absurd (full f) (by simpa using le)
  · rintro ⟨p, below⟩
    exact absurd (append p) (by simpa using below)

section
variable {s : State}

theorem begin_rwnd (c : s.executing = some .rwnd) : s.begin = s.flushFirst := by rw [State.begin, c]

theorem begin_spac {k : SpaceKind} {n : Int} (c : s.executing = some (.spac k n)) : s.begin = s.flushFirst := by rw [State.begin, c]

theorem begin_rrec {n limit : Nat} (c : s.executing = some (.rrec n limit)) : s.begin = s.flushFirst := by rw [State.begin, c]

theorem begin_loct {p o : Nat} (c : s.executing = some (.loct p o)) (there : p < s.pu.partitions.length) : s.begin = s.flushFirst := by
  rw [State.begin, c]
  exact if_neg (by omega)

theorem begin_unld (c : s.executing = some .unld) (ready : s.rtc.cartridge = .ready) : s.begin = s.flushFirst := by
  rw [State.begin, c]
  exact if_pos ready

theorem begin_eras (c : s.executing = some .eras) (early : s.earlyCheck = none) (late : ∀ e, s.eodHere = some e → s.lateCheck = none) :
    s.begin = s.flushFirst := by
  rw [State.begin, c]
  dsimp only
  rw [early]
  dsimp only
  cases eod : s.eodHere with
  | none => rfl
  | some e => rw [late e eod]

theorem begin_dpar {n : Nat} {sizes zs : List Nat} (c : s.executing = some (.dpar n sizes)) (check : s.dparCheck n sizes = .inr zs) :
    s.begin = s.flushFirst := by
  rw [State.begin, c]
  dsimp only
  rw [check]

theorem begin_sync (c : s.executing = some .sync) : s.begin = s.flushHere := by rw [State.begin, c]

theorem begin_noFilemarks (c : s.executing = some (.wfmk 0)) : s.begin = s.flushHere := by rw [State.begin, c]; rfl

theorem begin_wrec {n : Nat} (c : s.executing = some (.wrec n)) (early : s.earlyCheck = none) : s.begin = s.checkedWrite := by
  rw [State.begin, c]
  dsimp only
  rw [early, State.ownWork, c]

theorem begin_wfmk {n : Nat} (c : s.executing = some (.wfmk n)) (some_ : 1 ≤ n) (early : s.earlyCheck = none) : s.begin = s.checkedWrite := by
  rw [State.begin, c]
  dsimp only
  rw [if_neg (by omega), early, State.ownWork, c]

/-- A write command at EOD goes on with the write path as it stands (R17, R118). -/
theorem checkedWrite_append {e : EodKnown} (eod : s.eodHere = some e) (late : s.lateCheck = none) (atEnd : e.object ≤ s.pu.object)
    (direction : s.dbm.direction = .write) (other : s.executing ≠ some .eras) : s.checkedWrite = s.takeUpWriting := by
  unfold State.checkedWrite
  rw [eod]
  dsimp only
  rw [late]
  dsimp only
  rw [if_pos atEnd]
  unfold State.writeAtEnd State.appendHere
  split
  · next c => exact absurd c other
  · rw [if_pos (by simp [direction])]

theorem dparCheck_passes {n : Nat} {sizes zs : List Nat} (bop : s.pu.partition = 0) (first : s.pu.object = 0)
    (protect : s.rtc.writeProtect ≠ some true) (policy : s.writePolicy 0 ≠ .readOnly)
    (append : s.writePolicy 0 = .appendOnly → ∀ e, s.eodOf 0 = some e → e.object = 0)
    (fits : dparSizes s.generation.wraps n sizes = some zs) : s.dparCheck n sizes = .inr zs := by
  unfold State.dparCheck
  dsimp only
  rw [if_neg (by simp [bop, first]), if_neg (by simp [protect, policy]), if_neg, fits]
  rintro ⟨p, held⟩
  split at held
  · next e eod => simp [append p e eod] at held
  · cases held

end

/-! ### The filemarks placed -/

/-- A slot with filemarks placed below its entries. -/
def Slot.marked (x : Slot) (n : Nat) : Slot :=
  { x with entries := some (x.entries.getD 0 + n), objects := x.objects + n, filemarks := x.filemarks + n }

/-- Filemarks placed in the FILLING slot, each with its entry and its object (R30, R32, R104). -/
structure MarksPlaced (s t : State) (older : List Slot) (x : Slot) (n : Nat) : Prop where
  slots : t.dbm.slots = older ++ [x.marked n]
  cu : t.cu = { s.cu with count := s.cu.count + n }
  pu : t.pu = { s.pu with object := s.pu.object + n, anchor := none }
  timer : t.dbm.sealTimer.isSome = true
  direction : t.dbm.direction = s.dbm.direction
  history : t.rc.history = []
  owed : t.rc.resetOwed = true
  spu : t.spu = s.spu
  wf : t.wf = s.wf
  rtc : t.rtc = s.rtc
  eu : t.eu = s.eu

theorem MarksPlaced.trans {s t u : State} {older : List Slot} {x : Slot} {n m : Nat} (h : MarksPlaced s t older x n)
    (k : MarksPlaced t u older (x.marked n) m) : MarksPlaced s u older x (n + m) :=
  ⟨by rw [k.slots]; simp [Slot.marked, Nat.add_assoc], by rw [k.cu, h.cu]; simp [Nat.add_assoc], by rw [k.pu, h.pu]; simp [Nat.add_assoc],
    k.timer, k.direction.trans h.direction, k.history, k.owed, k.spu.trans h.spu, k.wf.trans h.wf, k.rtc.trans h.rtc, k.eu.trans h.eu⟩

theorem putFilemark_places {s : State} {older : List Slot} {x : Slot} (slots : s.dbm.slots = older ++ [x]) (filling : x.state = .filling)
    (room : x.entries.getD 0 + 1 < 4096) : MarksPlaced s s.putFilemark older x 1 := by
  unfold State.putFilemark
  dsimp only
  rw [putEntry_eq (s := s.onRc Rc.emptyHistory) slots filling rfl]
  rw [sealAtLimit_below (older := older) (x := x.marked 1) rfl filling room]
  refine ⟨rfl, rfl, rfl, ?_, rfl, rfl, rfl, rfl, rfl, rfl, rfl⟩
  show (if s.dbm.sealTimer.isSome then s.dbm.sealTimer else some _).isSome = true
  split
  · next on => exact on
  · rfl

theorem runFilemarks_completes {s : State} {n k : Nat} (c : s.executing = some (.wfmk n)) (count : n ≤ s.cu.count) :
    State.runFilemarks (k + 1) s = s.complete .good { count := s.cu.count } := by
  rw [State.runFilemarks, c]
  exact if_pos count

/-- Where the slot has room the next filemark is placed, and the command goes on (R32). -/
theorem runFilemarks_places {s : State} {n k : Nat} {older : List Slot} {x : Slot} (c : s.executing = some (.wfmk n)) (count : s.cu.count < n)
    (direction : s.dbm.direction = .write) (slots : s.dbm.slots = older ++ [x]) (filling : x.state = .filling)
    (room : x.payload.getD 0 + 16 * (x.entries.getD 0 + 1) ≤ 1966016) : State.runFilemarks (k + 1) s = State.runFilemarks k s.putFilemark := by
  have open_ := filling_of_concat slots filling
  have ensured : s.ensureFilling = some s := by
    rw [State.ensureFilling, if_neg (by simp [direction]), if_pos (by simp [open_])]
  rw [State.runFilemarks, c]
  dsimp only
  rw [if_neg (by omega), ensured]
  dsimp only
  rw [open_]
  exact if_pos room

/-- WRITE_FILEMARKS places what it still owes in the slot there is, and completes (R30, R32). -/
theorem runFilemarks_ends {n : Nat} {older : List Slot} (m : Nat) : ∀ (fuel : Nat) {s : State} {x : Slot}, s.executing = some (.wfmk n) →
    s.cu.count + (m + 1) = n → m + 2 ≤ fuel → s.dbm.direction = .write → s.dbm.slots = older ++ [x] → x.state = .filling →
    x.entries.getD 0 + (m + 1) < 4096 → x.payload.getD 0 + 16 * (x.entries.getD 0 + (m + 1)) ≤ 1966016 →
    ∃ t : State, MarksPlaced s t older x (m + 1) ∧ State.runFilemarks fuel s = t.complete .good { count := n } := by
  induction m with
  | zero =>
    intro fuel s x c count enough direction slots filling entries room
    obtain ⟨k, rfl⟩ : ∃ k, fuel = k + 2 := ⟨fuel - 2, by omega⟩
    have placed := putFilemark_places slots filling entries
    have all : s.putFilemark.cu.count = n := by rw [placed.cu]; exact count
    refine ⟨_, placed, ?_⟩
    rw [runFilemarks_places c (by omega) direction slots filling room,
      runFilemarks_completes ((executing_of_queue (by rw [placed.cu])).trans c) (by omega), all]
  | succ m ih =>
    intro fuel s x c count enough direction slots filling entries room
    obtain ⟨k, rfl⟩ : ∃ k, fuel = k + 1 := ⟨fuel - 1, by omega⟩
    have placed := putFilemark_places slots filling (by omega)
    have grown : (x.marked 1).entries.getD 0 = x.entries.getD 0 + 1 := rfl
    obtain ⟨t, rest, ends⟩ := ih k (s := s.putFilemark) (x := x.marked 1) ((executing_of_queue (by rw [placed.cu])).trans c)
      (by rw [placed.cu]; simp only; omega) (by omega) (placed.direction.trans direction) placed.slots filling (by omega)
      (show x.payload.getD 0 + _ ≤ _ by omega)
    refine ⟨t, ?_, ?_⟩
    · rw [Nat.add_comm (m + 1) 1]
      exact placed.trans rest
    · rw [runFilemarks_places c (by omega) direction slots filling (by omega), ends]

/-! ### The obligation -/

/-- The flush of a command begins, behind a span still written: the slot sealed, the command begun and waiting (R6, R14, R15). -/
theorem flush_begins {s : State} {q : Queued} {rest : List Queued} {older : List Slot} {x : Slot} (slots : s.dbm.slots = older ++ [x])
    (filling : x.state = .filling) (segment : s.rc.segment = none) (span : s.wf.stage = .span) {p : Progress} (waits : p ≠ .filemarks)
    (begins : s.beginsExecution = ((s.begunAs q rest .none).beginFlush p).advance) :
    ∃ t : State, exec .commandBeginsExecution s = .next t
      ∧ t = { s.begunAs q rest p with dbm := { s.dbm with
          slots := older ++ (if x.entries.getD 0 = 0 then [] else [{ x with state := .sealed }]), sealTimer := none, dram := t.dbm.dram } }
      ∧ (x.entries.getD 0 = 0 → t.dbm.dram = s.dbm.dram)
      ∧ (1 ≤ x.entries.getD 0 → x.payload.getD 0 ≤ 1966016 - 16 * x.entries.getD 0 → s.dbm.dram.wf = true →
          Padded s.dbm.dram t.dbm.dram (s.dbm.base older.length) x) := by
  rw [beginFlush_eq (s := s.begunAs q rest .none) slots filling segment, advance_of_writing (by exact span) (by exact waits)] at begins
  refine ⟨_, congrArg Host.Outcome.next begins, rfl, fun none_ => if_pos none_, fun some_ fits wf => ?_⟩
  show Padded s.dbm.dram (if x.entries.getD 0 = 0 then s.dbm.dram else s.dbm.dram.sealed (s.dbm.base older.length) x) _ x
  rw [if_neg (by omega)]
  exact sealed_padded wf _ some_ fits

/-- A WRITE_RECORDS that goes on behind the slots there are takes its credits (R17). -/
theorem takeUpWriting_grants {s : State} {q : Queued} {rest : List Queued} {n : Nat} (c : q.command = .wrec n)
    (direction : s.dbm.direction = .write) (deferred : s.cu.deferred = none) (staging : s.dbm.staging = []) (credits : s.spu.credits = 0)
    (free : s.dbm.slots.length < 510) : (s.begunAs q rest .none).takeUpWriting
      = { s.begunAs q rest .writing with spu := { s.spu with credits := 256, out := s.spu.out ++ [.wcrd 256] } } := by
  have executing (p : Progress) : (s.begunAs q rest p).executing = some (.wrec n) := by
    rw [executing_of_begun (q := { q with begun := true }) rfl rfl]
    exact congrArg some c
  have slots : 2 < s.dbm.free := by simp only [Dbm.free, Config.slotCount]; omega
  have room : Config.stagingPlaces - (s.dbm.staging.length + s.spu.credits) = 256 := by simp [staging, credits, Config.stagingPlaces]
  unfold State.takeUpWriting
  rw [executing]
  dsimp only
  show (s.begunAs q rest .writing).grantCredits = _
  unfold State.grantCredits
  dsimp only
  rw [show Config.stagingPlaces - ((s.begunAs q rest .writing).dbm.staging.length + (s.begunAs q rest .writing).spu.credits) = 256 from room,
    if_pos]
  · simp [State.begunAs, State.onSpu, State.send, credits]
  · have writing : (s.begunAs q rest .writing).writingRecords = true := by rw [State.writingRecords, executing]
    rw [writing]
    simp [State.begunAs, direction, deferred, slots]

/-- A WRITE_FILEMARKS whose marks the FILLING slot takes completes GOOD (R30, R32, R104). -/
theorem takeUpWriting_marks {s : State} {q : Queued} {rest : List Queued} {older : List Slot} {x : Slot} {n : Nat} (c : q.command = .wfmk n)
    (some_ : 1 ≤ n) (direction : s.dbm.direction = .write) (slots : s.dbm.slots = older ++ [x]) (filling : x.state = .filling)
    (span : s.wf.stage = .span) (entries : x.entries.getD 0 + n < 4096) (room : x.payload.getD 0 + 16 * (x.entries.getD 0 + n) ≤ 1966016) :
    ∃ t : State, MarksPlaced (s.begunAs q rest .filemarks) t older x n
      ∧ (s.begunAs q rest .none).takeUpWriting = t.complete .good { count := n } := by
  obtain ⟨m, rfl⟩ : ∃ m, n = m + 1 := ⟨n - 1, by omega⟩
  have executing (p : Progress) : (s.begunAs q rest p).executing = some (.wfmk (m + 1)) := by
    rw [executing_of_begun (q := { q with begun := true }) rfl rfl]
    exact congrArg some c
  obtain ⟨t, placed, ends⟩ := runFilemarks_ends m (2 * (m + 1) + 4) (s := s.begunAs q rest .filemarks) (x := x) (executing .filemarks)
    (Nat.zero_add _) (by omega) direction slots filling entries room
  refine ⟨t, placed, ?_⟩
  unfold State.takeUpWriting
  rw [executing]
  dsimp only
  show State.wfKick (State.runFilemarks (2 * (m + 1) + 4) (s.begunAs q rest .filemarks)) = _
  rw [ends]
  exact wfKick_of_span (by rw [complete_wf, placed.wf]; exact span)

/-- The command at the head answered with its results as they are but for their flags. -/
theorem complete_answers {s : State} {q : Queued} {rest : List Queued} (queue : s.cu.queue = q :: rest) (code : Code) (res : Results) :
    ∃ flags credits : Nat, s.complete code res = { s with
      spu := { s.spu with credits := credits,
                          out := s.spu.out ++ [.resp q.tag q.command.name (.done code { res with flags := flags } [])] },
      cu := { s.cu with queue := rest, progress := .none, count := 0, finals := 0 } } := by
  obtain ⟨flags, e⟩ := withEarlyFlag_eq s q res
  unfold State.complete
  rw [queue]
  dsimp only
  rw [e]
  split
  · exact ⟨flags, 0, rfl⟩
  · exact ⟨flags, s.spu.credits, rfl⟩

/-- A set deferred write error is reported by the command that begins: the record cleared, the position set (R56). -/
theorem deferred_reported {s : State} {q : Queued} {rest : List Queued} (queue : s.cu.queue = q :: rest) {d : Deferred}
    (deferred : s.cu.deferred = some d) : ∃ flags credits : Nat, s.reportDeferred = { s with
      spu := { s.spu with credits := credits, out := s.spu.out ++ [.resp q.tag q.command.name (.done .deferredError
        { count := d.objects, object := d.first, flags := flags, deferred := d.byte } [])] }
      cu := { s.cu with queue := rest, progress := .none, count := 0, finals := 0, deferred := none }
      pu := { s.pu with partition := d.partition, object := d.first, anchor := none } } := by
  obtain ⟨flags, credits, e⟩ := complete_answers queue .deferredError { count := d.objects, object := d.first, deferred := d.byte }
  refine ⟨flags, credits, ?_⟩
  unfold State.reportDeferred
  rw [deferred]
  dsimp only
  rw [e]
  rfl

/-- A SYNC that begins while the direction is not WRITE completes GOOD at once (R15). -/
theorem sync_completes {s : State} {q : Queued} {rest : List Queued} (c : q.command = .sync) (direction : s.dbm.direction ≠ .write) :
    (s.begunAs q rest .none).begin.advance = { s with
      cu := { s.cu with queue := rest, progress := .none, count := 0, finals := 0 },
      spu := { s.spu with out := s.spu.out ++ [.resp q.tag (ascii 'S' 'Y' 'N' 'C') doneOk] } } := by
  have executing : (s.begunAs q rest .none).executing = some .sync :=
    (executing_of_begun (q := { q with begun := true }) rfl rfl).trans (congrArg some c)
  have here : (s.begunAs q rest .none).flushHere = (s.begunAs q rest .none).complete .good :=
    if_neg (show ¬ (s.dbm.direction == .write) = true by simpa using direction)
  rw [begin_sync executing, here, complete_eq (q := { q with begun := true }) rfl (by simp [c]),
    advance_eq (writesNext_of_direction (by exact direction)) rfl (by simp),
    withEarlyFlag_other _ (q := { q with begun := true }) (by simp [c]) (by simp [c])]
  simp only [c]
  rfl

/-- A WRITE_FILEMARKS completes with the early-warning flag of its partition (R32, R59). -/
theorem withEarlyFlag_wfmk (s : State) {q : Queued} {n : Nat} (begun : q.begun = true) (c : q.command = .wfmk n) (res : Results) :
    s.withEarlyFlag q res = { res with flags := if s.wf.earlyWarned.contains s.pu.partition then 1 else 0 } := by
  unfold State.withEarlyFlag
  rw [begun, c]

/-- Settles O22: a report or a refusal at once (`deferred_reported`, `complete_answers`), the flush (`flush_begins`), the write that goes on
(`takeUpWriting_grants`, `takeUpWriting_marks`). -/
theorem commandBegins : Obligations.CommandBegins := by
  intro s q rest queue fresh
  refine ⟨fun unstable => congrArg Host.Outcome.next (begins_waits queue unstable), fun stable => ⟨?_, ?_, ?_, ?_⟩⟩
  · intro d deferred
    have begins := begins_eq queue fresh stable
    obtain ⟨flags, credits, reported⟩ := deferred_reported (s := s.begunAs q rest .none) rfl deferred
    rw [deferred] at begins
    exact ⟨_, flags, congrArg Host.Outcome.next (begins.trans reported), rfl, rfl, rfl, rfl, rfl, rfl, rfl, rfl⟩
  · intro deferred barred
    have begins := begins_eq queue fresh stable
    obtain ⟨flags, credits, refused⟩ := complete_answers (s := s.begunAs q rest .none) rfl .notReady {}
    rw [deferred, barred] at begins
    exact ⟨_, flags, congrArg Host.Outcome.next (begins.trans refused), rfl, rfl, rfl, rfl, rfl, rfl, rfl⟩
  · intro deferred permitted c direction
    exact congrArg Host.Outcome.next ((begins_runs queue fresh stable deferred permitted).trans (sync_completes c direction))
  · intro x older deferred permitted direction slots filling segment span here eod policy writable entries base payload index early begun flushes
    have executing : (s.begunAs q rest .none).executing = some q.command := executing_of_begun (q := { q with begun := true }) rfl rfl
    have runs := begins_runs queue fresh stable deferred permitted
    have flush (p : Progress) (waits : p ≠ .filemarks) (starts : (s.begunAs q rest .none).begin = (s.begunAs q rest .none).beginFlush p) :
        flushes p := by
      obtain ⟨t, begins, same, none_, padded⟩ := flush_begins (q := q) (rest := rest) slots filling segment span waits (by rw [runs, starts])
      refine ⟨t, begins, same, none_, fun some_ _ fits wf => ?_⟩
      obtain ⟨padding, trailer, others⟩ := padded some_ fits wf
      refine ⟨padding, trailer, others⟩
    have early_ := earlyCheck_none (s := s.begunAs q rest .none)
    refine ⟨fun commands => flush _ (by simp) ?_, ?_, ?_⟩
    · rw [← flushFirst_write (s := s.begunAs q rest .none) direction]
      rcases commands with c | ⟨k, n, c⟩ | ⟨n, limit, c⟩ | ⟨p, o, c, there⟩ | ⟨c, ready⟩ | ⟨c, ⟨protect, policy_⟩, volume, late⟩
        | ⟨n, sizes, zs, c, bop, first, ⟨protect, policy_⟩, append, fits⟩ <;> rw [c] at executing
      · exact begin_rwnd executing
      · exact begin_spac executing
      · exact begin_rrec executing
      · exact begin_loct executing there
      · exact begin_unld executing ready
      · exact begin_eras executing (early_ protect policy_ volume) (fun e known => lateCheck_none known (late e known).1 (late e known).2)
      · exact begin_dpar executing (dparCheck_passes bop first protect policy_ append fits)
    · rintro (c | c) <;> rw [c] at executing
      · exact flush _ (by simp) (by rw [← flushHere_write (s := s.begunAs q rest .none) direction, begin_sync executing])
      · exact flush _ (by simp) (by rw [← flushHere_write (s := s.begunAs q rest .none) direction, begin_noFilemarks executing])
    · intro e known atEnd ⟨protect, policy_⟩ volume full
      have checks := early_ protect policy_ volume
      have late : (s.begunAs q rest .none).lateCheck = none := lateCheck_none known (fun _ => atEnd) (fun f => absurd f full)
      have appends (other : q.command ≠ .eras) := checkedWrite_append (s := s.begunAs q rest .none) known late atEnd direction
        (by rw [executing]; simpa using other)
      refine ⟨fun n c staging credits free => ?_, fun n c some_ fits room => ?_⟩
      · rw [begin_wrec (executing.trans (congrArg some c)) checks, appends (by simp [c]),
          takeUpWriting_grants c direction deferred staging credits free, advance_of_writing (by exact span) (by simp [State.begunAs])] at runs
        exact congrArg Host.Outcome.next runs
      · obtain ⟨t, placed, ends⟩ := takeUpWriting_marks (rest := rest) c some_ direction slots filling span fits room
        have again : t.cu.queue = { q with begun := true } :: rest := by rw [placed.cu]; rfl
        have done := complete_eq again (by simp [c]) .good { count := n }
        rw [withEarlyFlag_wfmk t (q := { q with begun := true }) rfl c] at done
        rw [begin_wfmk (executing.trans (congrArg some c)) some_ checks, appends (by simp [c]), ends, done,
          advance_of_writing (by exact (congrArg Wf.stage placed.wf).trans span) (by simp)] at runs
        refine ⟨_, congrArg Host.Outcome.next runs, rfl, ?_, placed.slots, placed.timer, placed.direction.trans direction, placed.pu,
          placed.history, placed.owed, placed.wf, placed.rtc, placed.eu⟩
        simp only [placed.spu, placed.wf, placed.pu]
        rfl

end Sys2Proof.Machine
end

section
/-!
SUPPORT. What the Record Expander makes of the tokens of a segment (R26, R36): the output the tokens spell, cut at the host length, and a fault
where a copy reaches back too far, output is cut, or a token is cut short.
-/
namespace Sys2Proof.Machine
open Sys2Proof.Laws

/-! ### The history -/

theorem joinHistory_eq (h bs : List Byte) : joinHistory h bs = (h ++ bs).drop ((h ++ bs).length - 2048) := by
  simp only [joinHistory, Config.historyBytes]

theorem joinHistory_length (h bs : List Byte) : (joinHistory h bs).length ≤ 2048 := by
  simp only [joinHistory, Config.historyBytes, List.length_drop]
  omega

theorem joinHistory_nil {h : List Byte} (short : h.length ≤ 2048) : joinHistory h [] = h := by
  have none_ : (h ++ ([] : List Byte)).length - Config.historyBytes = 0 := by simp [Config.historyBytes]; omega
  rw [joinHistory, none_, List.drop_zero, List.append_nil]

/-- The bytes joined in two parts are joined as one. -/
theorem joinHistory_join (h as bs : List Byte) : joinHistory (joinHistory h as) bs = joinHistory h (as ++ bs) := by
  simp only [joinHistory, Config.historyBytes, ← List.append_assoc]
  generalize h ++ as = all
  have split : all.drop (all.length - 2048) ++ bs = (all ++ bs).drop (all.length - 2048) :=
    (List.drop_append_of_le_length (by omega)).symm
  rw [split, List.drop_drop]
  refine congrArg (fun n => List.drop n (all ++ bs)) ?_
  simp only [List.length_drop, List.length_append]
  omega

/-! ### Output joined -/

theorem join_join (e : Expanded) (host : Nat) (as bs : List Byte) : (e.join host as).join host bs = e.join host (as ++ bs) := by
  have room : host - (e.bytes ++ as.take (host - e.bytes.length)).length = host - e.bytes.length - as.length := by
    simp only [List.length_append, List.length_take]
    omega
  have kept : as.take (host - e.bytes.length) ++ bs.take (host - e.bytes.length - as.length) = (as ++ bs).take (host - e.bytes.length) :=
    List.take_append.symm
  simp only [Expanded.join, room, joinHistory_join, kept, List.append_assoc, Nat.add_assoc, ← List.length_append, Bool.or_assoc]
  congr 2
  rw [← Bool.decide_or, decide_eq_decide]
  simp only [List.length_take, List.length_append]
  omega

theorem join_nil {e : Expanded} (host : Nat) (short : e.history.length ≤ 2048) : e.join host [] = e := by
  simp [Expanded.join, joinHistory_nil short]

/-- Output joined, with a further fault. -/
def Expanded.joinBad (e : Expanded) (host : Nat) (bs : List Byte) (bad : Bool) : Expanded :=
  { e.join host bs with fault := (e.join host bs).fault || bad }

/-- The expansion has stopped: a fault, and the host length reached. -/
def Expanded.Stopped (e : Expanded) (host : Nat) : Prop := e.fault = true ∧ host ≤ e.bytes.length

theorem joinBad_of_stopped {e : Expanded} {host : Nat} (stopped : e.Stopped host) (short : e.history.length ≤ 2048) (bs : List Byte) (bad : Bool) :
    e.joinBad host bs bad = e := by
  obtain ⟨fault, full⟩ := stopped
  have room : host - e.bytes.length = 0 := by omega
  have none_ : e.join host bs = { e with fault := true } := by simp [Expanded.join, room, fault, joinHistory_nil short]
  rw [Expanded.joinBad, none_, ← fault]
  simp only [fault, Bool.true_or]
  rw [← fault]

theorem expandTokens_stopped {e : Expanded} {host : Nat} (stopped : e.Stopped host) (k : Nat) (bs : List Byte) : expandTokens k host bs e = e := by
  cases k with
  | zero => rfl
  | succ k =>
    cases bs with
    | nil => rfl
    | cons b rest => exact if_pos stopped

/-! ### Copies -/

/-- A copy repeats the bytes from its distance back (R36). -/
theorem copyBytes_eq (d n : Nat) : ∀ {out : List Byte}, 1 ≤ d → d ≤ out.length →
    copyBytes d n out = (List.range n).map (fun i => out.getD (out.length - d + i % d) 0) := by
  induction n with
  | zero => intros; rfl
  | succ n ih =>
    intro out positive reach
    rw [copyBytes, ih positive (by simp; omega), List.range_succ_eq_map, List.map_cons, List.map_map, Nat.zero_mod, Nat.add_zero]
    congr 1
    refine List.map_congr_left fun i _ => ?_
    have step : (i + 1) % d = if i % d + 1 = d then 0 else i % d + 1 := by
      have lt := Nat.mod_lt i positive
      split
      · next e => rw [← Nat.mod_add_mod, e, Nat.mod_self]
      · next ne => rw [← Nat.mod_add_mod, Nat.mod_eq_of_lt (by omega)]
    have lt := Nat.mod_lt i positive
    simp only [Function.comp, Nat.succ_eq_add_one, step, List.length_append, List.length_singleton]
    split
    · next e =>
      have last : out.length + 1 - d + i % d = out.length := by omega
      rw [last, List.getD_append_right _ _ _ _ (Nat.le_refl _), Nat.sub_self]
      rfl
    · next ne =>
      have earlier : out.length + 1 - d + i % d = out.length - d + (i % d + 1) := by omega
      rw [earlier, List.getD_append _ _ _ _ (by omega)]

/-- A copy within the history kept repeats the bytes of the whole output (R36). -/
theorem copyBytes_joinHistory {d l : Nat} {out : List Byte} (positive : 1 ≤ d) (far : d ≤ 2048) (reach : d ≤ out.length) :
    copyBytes d l (joinHistory [] out) = (List.range l).map (fun i => out.getD (out.length - d + i % d) 0) := by
  have length : (joinHistory [] out).length = min 2048 out.length := by simp [joinHistory, Config.historyBytes]; omega
  rw [copyBytes_eq d l positive (by omega)]
  refine List.map_congr_left fun i _ => ?_
  have lt := Nat.mod_lt i positive
  have index : out.length - 2048 + (min 2048 out.length - d + i % d) = out.length - d + i % d := by omega
  rw [length]
  simp only [joinHistory, Config.historyBytes, List.nil_append, List.getD_eq_getElem?_getD, List.getElem?_drop, index]

/-! ### One token -/

/-- The expansion stands behind an output: its history the last 2,048 bytes of it, with the bytes since the last reset. -/
structure Expanded.Behind (e : Expanded) (out : List Byte) (since : Nat) : Prop where
  history : e.history = joinHistory [] out
  sinceReset : e.sinceReset = since
  reach : min 2048 since ≤ out.length

/-- A copy that reaches back beyond the last reset. -/
def Token.far (since : Nat) : Token → Bool
  | .literal _ => false
  | .copy _ d => decide (since < d)

theorem copiesFar_cons (out : List Byte) (since : Nat) (t : Token) (ts : List Token) :
    copiesFar since (t :: ts) = (t.far since || copiesFar (since + (t.output out since).length) ts) := by
  cases t with
  | literal bs => simp [copiesFar, Token.far, Token.output]
  | copy l d =>
    have length : (Token.output out since (.copy l d)).length = l := by
      by_cases h : since < d <;> simp [Token.output, h]
    simp [copiesFar, Token.far, length]

theorem copyToken_bytes {l d : Nat} (ok : (Token.copy l d).ok = true) : ∃ b c : Byte, (Token.copy l d).bytes = [b, c] ∧ ¬ b.toNat < 128
    ∧ b.toNat % 128 / 8 + 3 = l ∧ b.toNat % 8 * 256 + c.toNat + 1 = d := by
  simp only [Token.ok, Bool.and_eq_true, decide_eq_true_eq] at ok
  have first : (BitVec.ofNat 8 (128 + 8 * (l - 3) + (d - 1) / 256)).toNat = 128 + 8 * (l - 3) + (d - 1) / 256 := by
    rw [BitVec.toNat_ofNat]
    omega
  have second : (BitVec.ofNat 8 ((d - 1) % 256)).toNat = (d - 1) % 256 := by
    rw [BitVec.toNat_ofNat]
    omega
  exact ⟨_, _, rfl, by omega, by omega, by omega⟩

theorem literalToken_bytes {bs : List Byte} (ok : (Token.literal bs).ok = true) :
    ∃ b : Byte, (Token.literal bs).bytes = b :: bs ∧ b.toNat < 128 ∧ b.toNat + 1 = bs.length := by
  simp only [Token.ok, Bool.and_eq_true, decide_eq_true_eq] at ok
  have first : (BitVec.ofNat 8 (bs.length - 1)).toNat = bs.length - 1 := by
    rw [BitVec.toNat_ofNat]
    omega
  exact ⟨_, rfl, by omega, by omega⟩

theorem expandTokens_run {e : Expanded} {host : Nat} {b : Byte} (runs : ¬ e.Stopped host) (small : b.toNat < 128) (k : Nat) (rest : List Byte) :
    expandTokens (k + 1) host (b :: rest) e = if rest.length < b.toNat + 1 then { e with fault := true }
      else expandTokens k host (rest.drop (b.toNat + 1)) (e.join host (rest.take (b.toNat + 1))) :=
  (if_neg runs).trans (if_pos small)

theorem expandTokens_pair {e : Expanded} {host : Nat} {b : Byte} (runs : ¬ e.Stopped host) (large : ¬ b.toNat < 128) (k : Nat) (c : Byte)
    (rest : List Byte) : expandTokens (k + 1) host (b :: c :: rest) e
      = if e.sinceReset < b.toNat % 8 * 256 + c.toNat + 1
        then expandTokens k host rest ({ e with fault := true }.join host (List.replicate (b.toNat % 128 / 8 + 3) 0))
        else expandTokens k host rest (e.join host (copyBytes (b.toNat % 8 * 256 + c.toNat + 1) (b.toNat % 128 / 8 + 3) e.history)) :=
  (if_neg runs).trans (if_neg large)

/-- A token expanded: its output joined, with a fault where it is a copy that reaches back too far (R36). -/
theorem expandTokens_token {e : Expanded} {host since : Nat} {out : List Byte} {t : Token} (ok : t.ok = true) (behind : e.Behind out since)
    (runs : ¬ e.Stopped host) (k : Nat) (more : List Byte) :
    expandTokens (k + 1) host (t.bytes ++ more) e = expandTokens k host more (e.joinBad host (t.output out since) (t.far since)) := by
  cases t with
  | literal bs =>
    obtain ⟨b, bytes, small, length⟩ := literalToken_bytes ok
    have same : e.joinBad host bs false = e.join host bs := by simp [Expanded.joinBad]
    rw [bytes, List.cons_append, expandTokens_run runs small, if_neg (by simp; omega), length, List.drop_left, List.take_left]
    exact congrArg _ same.symm
  | copy l d =>
    obtain ⟨b, c, bytes, large, copied, back⟩ := copyToken_bytes ok
    simp only [Token.ok, Bool.and_eq_true, decide_eq_true_eq] at ok
    rw [bytes, List.cons_append, List.cons_append, List.nil_append, expandTokens_pair runs large, copied, back, behind.sinceReset, Token.output,
      Token.far]
    have reach := behind.reach
    split
    · next far => simp [Expanded.joinBad, Expanded.join, far, behind.sinceReset]
    · next near =>
      rw [behind.history, copyBytes_joinHistory (by omega) (by omega) (by omega)]
      simp [Expanded.joinBad, near]

/-- A token cut short is a fault (R36). -/
theorem expandTokens_cut {e : Expanded} {host : Nat} {t : Token} (ok : t.ok = true) {cut : List Byte} (part : cut <+: t.bytes) (some_ : cut ≠ [])
    (short : cut ≠ t.bytes) (runs : ¬ e.Stopped host) (k : Nat) : expandTokens (k + 1) host cut e = { e with fault := true } := by
  obtain ⟨b, cs, rfl⟩ := List.exists_cons_of_ne_nil some_
  obtain ⟨more, whole⟩ := part
  cases t with
  | literal bs =>
    obtain ⟨b', bytes, small, length⟩ := literalToken_bytes ok
    rw [bytes] at whole short
    rw [List.cons_append] at whole
    obtain ⟨rfl, rest⟩ := List.cons.inj whole
    have missing : more ≠ [] := by
      rintro rfl
      exact short (by rw [← rest, List.append_nil])
    have lengths : cs.length + more.length = bs.length := by rw [← rest, List.length_append]
    have positive := List.length_pos_iff.mpr missing
    rw [expandTokens_run runs small, if_pos (by omega)]
  | copy l d =>
    obtain ⟨b', c, bytes, large, _⟩ := copyToken_bytes ok
    rw [bytes] at whole short
    rw [List.cons_append] at whole
    obtain ⟨rfl, rest⟩ := List.cons.inj whole
    cases cs with
    | nil => exact (if_neg runs).trans (if_neg large)
    | cons c' cs =>
      rw [List.cons_append] at rest
      obtain ⟨rfl, tail⟩ := List.cons.inj rest
      obtain ⟨rfl, _⟩ := List.append_eq_nil_iff.mp tail
      exact absurd rfl short

/-! ### The tokens of a segment -/

theorem joinBad_history (e : Expanded) (host : Nat) (bs : List Byte) (bad : Bool) : (e.joinBad host bs bad).history.length ≤ 2048 := by
  simp only [Expanded.joinBad, Expanded.join, joinHistory_length]

theorem joinBad_joinBad (e : Expanded) (host : Nat) (as bs : List Byte) (bad worse : Bool) :
    (e.joinBad host as bad).joinBad host bs worse = e.joinBad host (as ++ bs) (bad || worse) := by
  rw [Expanded.joinBad, Expanded.joinBad, Expanded.joinBad, ← join_join e host as bs]
  simp only [Expanded.join, Bool.or_assoc, Bool.or_comm, Bool.or_left_comm]

/-- Output that fits leaves the expansion behind the longer output; output that is cut stops it. -/
theorem joinBad_goes_on {e : Expanded} {host since : Nat} {out : List Byte} (behind : e.Behind out since) (bs : List Byte) (bad : Bool) :
    (e.joinBad host bs bad).Stopped host ∨ (e.joinBad host bs bad).Behind (out ++ bs) (since + bs.length) := by
  rcases Nat.lt_or_ge (host - e.bytes.length) bs.length with less | fits
  · refine .inl ⟨?_, ?_⟩
    · simp [Expanded.joinBad, Expanded.join, less]
    · simp only [Expanded.joinBad, Expanded.join, List.length_append, List.length_take]
      omega
  · refine .inr ⟨?_, ?_, ?_⟩
    · simp only [Expanded.joinBad, Expanded.join, List.take_of_length_le fits, behind.history, joinHistory_join]
    · simp only [Expanded.joinBad, Expanded.join, List.take_of_length_le fits, behind.sinceReset]
    · have reach := behind.reach
      rw [List.length_append]
      omega

/-- The expansion of tokens, the last perhaps cut short: the output they spell, with what is a fault of them (R36). -/
theorem expandTokens_eq {host : Nat} {cut : List Byte}
    (cuts : cut = [] ∨ ∃ t : Token, t.ok = true ∧ cut <+: t.bytes ∧ cut ≠ [] ∧ cut ≠ t.bytes) (ts : List Token) :
    ∀ {k : Nat} {e : Expanded} {out : List Byte} {since : Nat}, (∀ t ∈ ts, t.ok = true) → (ts.flatMap Token.bytes ++ cut).length ≤ k →
      e.history.length ≤ 2048 → e.Stopped host ∨ e.Behind out since →
      expandTokens k host (ts.flatMap Token.bytes ++ cut) e = e.joinBad host (outputOf out since ts) (copiesFar since ts || !cut.isEmpty) := by
  have stops {e : Expanded} (stopped : e.Stopped host) (short : e.history.length ≤ 2048) (k : Nat) (bs out : List Byte) (bad : Bool) :
      expandTokens k host bs e = e.joinBad host out bad := by
    rw [expandTokens_stopped stopped, joinBad_of_stopped stopped short]
  induction ts with
  | nil =>
    intro k e out since _ enough short at_
    by_cases stopped : e.Stopped host
    · exact stops stopped short _ _ _ _
    · rcases cuts with rfl | ⟨t, ok, part, some_, less⟩
      · have ended : expandTokens k host [] e = e := by cases k <;> rfl
        simp [ended, outputOf, copiesFar, Expanded.joinBad, join_nil host short]
      · have positive := List.length_pos_iff.mpr some_
        obtain ⟨k, rfl⟩ : ∃ j, k = j + 1 := ⟨k - 1, by simp at enough; omega⟩
        rw [List.flatMap_nil, List.nil_append, expandTokens_cut ok part some_ less stopped]
        simp [outputOf, copiesFar, Expanded.joinBad, join_nil host short, some_]
  | cons t ts ih =>
    intro k e out since ok enough short at_
    by_cases stopped : e.Stopped host
    · exact stops stopped short _ _ _ _
    · have behind := at_.resolve_left stopped
      have okay := ok t (by simp)
      have positive : 1 ≤ t.bytes.length := by cases t <;> simp [Token.bytes, literalToken, copyToken]
      simp only [List.flatMap_cons, List.append_assoc, List.length_append] at enough
      obtain ⟨k, rfl⟩ : ∃ j, k = j + 1 := ⟨k - 1, by omega⟩
      rw [List.flatMap_cons, List.append_assoc, expandTokens_token okay behind stopped,
        ih (fun u mem => ok u (by simp [mem])) (by rw [List.length_append]; omega) (joinBad_history _ _ _ _) (joinBad_goes_on behind _ _),
        joinBad_joinBad, ← Bool.or_assoc, ← copiesFar_cons out]
      rfl

/-! ### A segment -/

/-- The expansion of a segment begun, behind a history. -/
def Expanded.begin (history : List Byte) (since : Nat) : Expanded := { bytes := [], fault := false, history := history, sinceReset := since }

/-- Zero bytes make up the host length, and are no fault (R36). -/
theorem begin_padded (history : List Byte) (since host : Nat) (out : List Byte) (bad : Bool) :
    let e := (Expanded.begin history since).joinBad host out bad
    let data := out.take host ++ List.replicate (host - out.length) 0
    e.join host (List.replicate (host - e.bytes.length) 0)
      = { bytes := data, fault := bad || decide (host < out.length), history := joinHistory history data, sinceReset := since + host } := by
  intro e data
  have taken : e.bytes = out.take host := by simp [e, Expanded.joinBad, Expanded.join, Expanded.begin]
  have left : host - e.bytes.length = host - out.length := by
    rw [taken, List.length_take]
    omega
  have zeros : (List.replicate (host - out.length) (0 : Byte)).take (host - out.length) = List.replicate (host - out.length) 0 := by simp
  have fault : e.fault = (bad || decide (host < out.length)) := by
    simp [e, Expanded.joinBad, Expanded.join, Expanded.begin, Bool.or_comm]
  have kept : e.history = joinHistory history (out.take host) := by simp [e, Expanded.joinBad, Expanded.join, Expanded.begin]
  have reset : e.sinceReset = since + (out.take host).length := by simp [e, Expanded.joinBad, Expanded.join, Expanded.begin]
  have all : (out.take host).length + (host - out.length) = host := by
    rw [List.length_take]
    omega
  simp only [left]
  simp only [Expanded.join, left, zeros]
  simp only [taken, fault, kept, reset, joinHistory_join, List.length_replicate, Nat.lt_irrefl, decide_false, Bool.or_false, Nat.add_assoc, all, data]

/-- A raw segment: its stored bytes up to its host length (R36). -/
theorem expandSegment_raw {x : IndexEntry} (raw : x.compressed = false) {stored : List Byte} (length : stored.length = x.stored)
    (history : List Byte) (since : Nat) :
    let data := stored.take x.host ++ List.replicate (x.host - x.stored) 0
    expandSegment x stored history since
      = { bytes := data, fault := x.stored != x.host, history := joinHistory history data, sinceReset := since + x.host } := by
  intro data
  have padded := begin_padded history since x.host stored (x.stored != x.host)
  have cut : ((x.stored != x.host) || decide (x.host < stored.length)) = (x.stored != x.host) := by
    rcases Nat.lt_or_ge x.host x.stored with more | fits
    · simp [Nat.ne_of_gt more]
    · simp [length, Nat.not_lt.mpr fits]
  have first : { (Expanded.begin history since).join x.host stored with fault := x.stored != x.host }
      = (Expanded.begin history since).joinBad x.host stored (x.stored != x.host) := by
    have fault : ((Expanded.begin history since).join x.host stored).fault = decide (x.host < stored.length) := by
      simp [Expanded.join, Expanded.begin]
    rw [Expanded.joinBad, fault, Bool.or_comm, cut]
  rw [cut, length] at padded
  rw [← padded, ← first, expandSegment, raw]
  rfl

/-- A compressed segment: what its tokens yield (R36). -/
theorem expandSegment_packed {x : IndexEntry} (packed : x.compressed = true) {ts : List Token} {cut : List Byte} (ok : ∀ t ∈ ts, t.ok = true)
    (cuts : cut = [] ∨ ∃ t : Token, t.ok = true ∧ cut <+: t.bytes ∧ cut ≠ [] ∧ cut ≠ t.bytes) {history : List Byte} {since : Nat}
    (reach : history.length = min 2048 since) :
    let out := outputOf history since ts
    let data := out.take x.host ++ List.replicate (x.host - out.length) 0
    expandSegment x (ts.flatMap Token.bytes ++ cut) history since
      = { bytes := data, fault := copiesFar since ts || decide (x.host < out.length) || !cut.isEmpty, history := joinHistory history data,
          sinceReset := since + x.host } := by
  intro out data
  have whole : joinHistory [] history = history := by
    rw [joinHistory, List.nil_append, Config.historyBytes, Nat.sub_eq_zero_of_le (by omega), List.drop_zero]
  have behind : (Expanded.begin history since).Behind history since := ⟨whole.symm, rfl, by omega⟩
  have tokens := expandTokens_eq (host := x.host) cuts ts ok (Nat.le_refl _) (e := Expanded.begin history since)
    (show history.length ≤ 2048 by omega) (.inr behind)
  have padded := begin_padded history since x.host out (copiesFar since ts || !cut.isEmpty)
  have fault : (copiesFar since ts || decide (x.host < out.length) || !cut.isEmpty)
      = ((copiesFar since ts || !cut.isEmpty) || decide (x.host < out.length)) := by ac_rfl
  rw [fault, ← padded, ← tokens, expandSegment, packed]
  rfl

end Sys2Proof.Machine
end

section
/-!
PROPERTY. The next index entry of the EXPANDING slot (R12, R35, R36, R38 to R41, R102).
-/
namespace Sys2Proof.Machine
open Sys2Proof.Laws

/-! ### The assembly -/

theorem readBytes_length (m : Memory) (n : Nat) : ∀ a : Nat, (m.readBytes a n).length = n := by
  induction n with
  | zero => intro a; rfl
  | succ n ih => intro a; simp [Memory.readBytes, ih]

theorem crc32Take_append (r : BitVec 32) (as bs : List Byte) : crc32Take r (as ++ bs) = crc32Take (crc32Take r as) bs := List.foldl_append

/-- A segment's output joined to an assembly it fits. -/
theorem take_whole {a : Assembly} {ex : Expanded} (fits : a.data.length + ex.bytes.length ≤ 1048576) (x : IndexEntry) :
    a.take x ex = { a with data := a.data ++ ex.bytes, segments := a.segments + 1, stored := a.stored + x.stored, acc := crc32Take a.acc ex.bytes,
                           fault := a.fault || ex.fault } := by
  have kept : ex.bytes.take (Config.maxRecord - a.data.length) = ex.bytes :=
    List.take_of_length_le (by simp only [Config.maxRecord]; omega)
  simp [Assembly.take, kept]

/-- The record an entry ends, its check compared, as it waits to be sent (R38, R40). -/
theorem checked_toSend {a : Assembly} {ex : Expanded} (fits : a.data.length + ex.bytes.length ≤ 1048576) (acc : a.acc = crc32Take crc32Start a.data)
    (x : IndexEntry) (object limit : Nat) : ((a.take x ex).checked x.check).toSend object limit
      = { object := object, rest := (a.data ++ ex.bytes).take limit, actual := a.data.length + ex.bytes.length, limit := limit,
          stored := a.stored + x.stored, begun := false, fault := a.fault || ex.fault || crc32 (a.data ++ ex.bytes) != x.check } := by
  rw [take_whole fits, acc]
  simp [Assembly.toSend, Assembly.checked, crc32, crc32Take_append]

/-! ### The entry's own step -/

/-- The Record Expander past an entry, its segment expanded. -/
def Rx.past (r : Rx) (x : IndexEntry) (history : List Byte) (since : Nat) : Rx :=
  { r with entry := r.entry + 1, offset := r.offset + x.stored, history := history, sinceReset := since }

section
variable {s : State} {q : Queued} {rest : List Queued} {n limit : Nat} {x : Slot} {xs : List Slot} {e : IndexEntry}

/-- The Record Expander stands before an entry of its slot. -/
structure Expands (s : State) (q : Queued) (rest : List Queued) (n limit : Nat) (x : Slot) (xs : List Slot) (e : IndexEntry) : Prop where
  reads : Reads s q rest n limit
  idle : s.rx.sending = none
  slots : s.dbm.slots = x :: xs
  expanding : x.state = .expanding
  more : s.rx.entry < x.entries.getD 0
  entry : s.dbm.dram.entry (s.dbm.base 0) s.rx.entry = e

/-- The history an entry's segment is expanded into (R23, R36). -/
def State.historyFor (s : State) (e : IndexEntry) : List Byte := if e.reset then [] else s.rx.history

/-- The bytes since the last reset an entry's segment is expanded behind. -/
def State.sinceFor (s : State) (e : IndexEntry) : Nat := if e.reset then 0 else s.rx.sinceReset

theorem entry_reset (s : State) (e : IndexEntry) :
    (s.onRx (fun r => { r with entry := r.entry + 1 })).when e.reset (·.onRx (fun r => { r with history := [], sinceReset := 0 }))
      = s.onRx (fun r => { r with entry := r.entry + 1, history := s.historyFor e, sinceReset := s.sinceFor e }) := by
  unfold State.historyFor State.sinceFor
  cases e.reset <;> rfl

theorem expandEntry_filemark (h : Expands s q rest n limit x xs e) (kind : e.kind = .filemark) : s.expandEntry =
    let u := s.onRx (fun r => { r.past e (s.historyFor e) (s.sinceFor e) with assembly := none, object := r.object + 1 })
    if s.rx.object + 1 ≤ s.pu.object then u.releaseDone
    else
      let v := u.advancePosition.releaseDone
      v.readCompletes .filemark v.pu.object := by
  have runs : ¬ (x.state ≠ .expanding ∨ s.rx.sending.isSome ∨ x.entries.getD 0 ≤ s.rx.entry) := by
    simp [h.expanding, h.idle, h.more]
  unfold State.expandEntry
  rw [h.reads.reading, h.slots]
  dsimp only
  rw [if_neg runs, h.entry, entry_reset, if_pos kind]
  rfl

theorem expandEntry_segment (h : Expands s q rest n limit x xs e) (kind : e.kind ≠ .filemark) {ex : Expanded}
    (expanded : expandSegment e (s.dbm.dram.readBytes (s.dbm.base 0 + s.rx.offset) e.stored) (s.historyFor e) (s.sinceFor e) = ex) : s.expandEntry =
    let u := s.onRx (fun r => r.past e ex.history ex.sinceReset)
    match e.kind, s.rx.assembly with
    | .middle, none => u.releaseDone
    | .end_, none => (u.onRx (fun r => { r with object := r.object + 1 })).releaseDone
    | .middle, some a => (u.onRx (fun r => { r with assembly := some (a.take e ex) })).releaseDone
    | .end_, some a => u.recordEnds ((a.take e ex).checked e.check) limit
    | .start, _ => (u.onRx (fun r => { r with assembly := some ((Assembly.begin r.object).take e ex) })).releaseDone
    | _, _ => u.recordEnds (((Assembly.begin s.rx.object).take e ex).checked e.check) limit := by
  have runs : ¬ (x.state ≠ .expanding ∨ s.rx.sending.isSome ∨ x.entries.getD 0 ≤ s.rx.entry) := by
    simp [h.expanding, h.idle, h.more]
  unfold State.expandEntry
  rw [h.reads.reading, h.slots]
  dsimp only
  rw [if_neg runs, h.entry, entry_reset, if_neg kind]
  simp only [onRx_rx, onRx_dbm, expanded]
  cases e.kind <;> cases s.rx.assembly <;> rfl

/-! ### What follows the entry -/

/-- The slot behind the entry just done: released after its last one (R12). -/
theorem Expands.released (h : Expands s q rest n limit x xs e) {u : State} (dbm : u.dbm = s.dbm) (entry : u.rx.entry = s.rx.entry + 1) :
    ∃ d : Dbm, u.releaseDone = { u with dbm := d } ∧ d.slots = (if x.entries.getD 0 ≤ s.rx.entry + 1 then xs else x :: xs)
      ∧ d.dram = s.dbm.dram := by
  rw [releaseDone_expanding (dbm ▸ h.slots) h.expanding, entry]
  split
  · exact ⟨_, rfl, rfl, by rw [dbm]⟩
  · exact ⟨_, rfl, dbm ▸ h.slots, by rw [dbm]⟩

/-- What a segment's entry moves, and what it leaves (R35, R36). -/
structure EntryDone (s t : State) (e : IndexEntry) (history : List Byte) (since : Nat) : Prop where
  entry : t.rx.entry = s.rx.entry + 1
  offset : t.rx.offset = s.rx.offset + e.stored
  history : t.rx.history = history
  sinceReset : t.rx.sinceReset = since
  cu : t.cu = s.cu
  pu : t.pu = s.pu
  spu : t.spu = s.spu
  eu : t.eu = s.eu
  rdr : t.rdr = s.rdr
  dram : t.dbm.dram = s.dbm.dram

/-- The entry is passed: the assembly and the running object number as they now stand, nothing waiting to be sent. -/
structure PassesEntry (s t : State) (e : IndexEntry) (ex : Expanded) (left : List Slot) (object : Nat) (assembly : Option Assembly) : Prop where
  moves : EntryDone s t e ex.history ex.sinceReset
  slots : t.dbm.slots = left
  sending : t.rx.sending = none
  object : t.rx.object = object
  assembly : t.rx.assembly = assembly

/-- The record the entry ends waits to be sent. -/
structure AwaitsSending (s t : State) (e : IndexEntry) (ex : Expanded) (d : Sending) : Prop where
  moves : EntryDone s t e ex.history ex.sinceReset
  dbm : t.dbm = s.dbm
  object : t.rx.object = s.rx.object
  sending : t.rx.sending = some d

theorem Expands.passes (h : Expands s q rest n limit x xs e) {ex : Expanded} {u : State} {object : Nat} {assembly : Option Assembly}
    (past : u = { s with rx := { s.rx.past e ex.history ex.sinceReset with object := object, assembly := assembly } }) :
    PassesEntry s u.releaseDone e ex (if x.entries.getD 0 ≤ s.rx.entry + 1 then xs else x :: xs) object assembly := by
  obtain ⟨d, released, left, dram⟩ := h.released (u := u) (by rw [past]) (by rw [past]; rfl)
  rw [released, past]
  exact ⟨⟨rfl, rfl, rfl, rfl, rfl, rfl, rfl, rfl, rfl, dram⟩, left, h.idle, rfl, rfl⟩

/-- A record that ends below the position is passed. -/
theorem Expands.recordEnds_passes (h : Expands s q rest n limit x xs e) (ex : Expanded) (b : Assembly) (below : s.rx.object < s.pu.object) :
    PassesEntry s ((s.onRx (fun r => r.past e ex.history ex.sinceReset)).recordEnds b limit) e ex
      (if x.entries.getD 0 ≤ s.rx.entry + 1 then xs else x :: xs) (s.rx.object + 1) none := by
  rw [recordEnds_skips b (by exact below)]
  exact h.passes rfl

/-- A record that ends at the position or above it waits to be sent. -/
theorem Expands.recordEnds_awaits (ex : Expanded) (b : Assembly) (position : s.pu.object ≤ s.rx.object) (bytes : b.data.take limit ≠ []) :
    AwaitsSending s ((s.onRx (fun r => r.past e ex.history ex.sinceReset)).recordEnds b limit) e ex (b.toSend s.rx.object limit) := by
  rw [recordEnds_sends b (by exact position) bytes]
  exact ⟨⟨rfl, rfl, rfl, rfl, rfl, rfl, rfl, rfl, rfl, rfl⟩, rfl, rfl, rfl⟩

/-- The expansion of the entry's segment as the obligation has it: raw, or by its tokens. -/
theorem Expands.expanded {data : List Byte} {bad : Bool} (reach : (s.historyFor e).length = min 2048 (s.sinceFor e))
    (spelled : let stored := s.dbm.dram.readBytes (s.dbm.base 0 + s.rx.offset) e.stored
      (e.compressed = false ∧ data = stored.take e.host ++ List.replicate (e.host - e.stored) 0 ∧ bad = (e.stored != e.host))
      ∨ (e.compressed = true ∧ ∃ (ts : List Token) (cut : List Byte), stored = ts.flatMap Token.bytes ++ cut ∧ (∀ k ∈ ts, k.ok = true)
          ∧ (cut = [] ∨ ∃ k : Token, k.ok = true ∧ cut <+: k.bytes ∧ cut ≠ [] ∧ cut ≠ k.bytes)
          ∧ data = (outputOf (s.historyFor e) (s.sinceFor e) ts).take e.host
              ++ List.replicate (e.host - (outputOf (s.historyFor e) (s.sinceFor e) ts).length) 0
          ∧ bad = (copiesFar (s.sinceFor e) ts || decide (e.host < (outputOf (s.historyFor e) (s.sinceFor e) ts).length) || !cut.isEmpty))) :
    expandSegment e (s.dbm.dram.readBytes (s.dbm.base 0 + s.rx.offset) e.stored) (s.historyFor e) (s.sinceFor e)
        = { bytes := data, fault := bad, history := joinHistory (s.historyFor e) data, sinceReset := s.sinceFor e + e.host }
      ∧ data.length = e.host := by
  have length := readBytes_length s.dbm.dram e.stored (s.dbm.base 0 + s.rx.offset)
  rcases spelled with ⟨raw, rfl, rfl⟩ | ⟨packed, ts, cut, tokens, ok, cuts, rfl, rfl⟩
  · refine ⟨expandSegment_raw raw length _ _, ?_⟩
    simp only [List.length_append, List.length_take, List.length_replicate, length]
    omega
  · rw [tokens]
    refine ⟨expandSegment_packed packed ok cuts reach, ?_⟩
    simp only [List.length_append, List.length_take, List.length_replicate]
    omega

/-- A FILEMARK below the position is passed over (R39). -/
theorem Expands.filemark_passes (h : Expands s q rest n limit x xs e) (kind : e.kind = .filemark) (below : s.rx.object < s.pu.object) :
    ∃ d : Dbm, s.expandEntry = { s with
        dbm := d, rx := { s.rx.past e (s.historyFor e) (s.sinceFor e) with assembly := none, object := s.rx.object + 1 } }
      ∧ d.slots = (if x.entries.getD 0 ≤ s.rx.entry + 1 then xs else x :: xs) ∧ d.dram = s.dbm.dram := by
  obtain ⟨d, released, left, dram⟩ := h.released
    (u := s.onRx (fun r => { r.past e (s.historyFor e) (s.sinceFor e) with assembly := none, object := r.object + 1 })) rfl rfl
  refine ⟨d, ?_, left, dram⟩
  rw [expandEntry_filemark h kind]
  exact (if_pos below).trans released

/-- A FILEMARK at the position is consumed, and ends the read (R41, R102, R104). -/
theorem Expands.filemark_ends (h : Expands s q rest n limit x xs e) (kind : e.kind = .filemark) (position : s.rx.object = s.pu.object) :
    ∃ d : Dbm, s.expandEntry = { s with
        spu := { s.spu with out := s.spu.out ++ [.resp q.tag (ascii 'R' 'R' 'E' 'C')
          (.done .filemark { count := s.cu.count, object := s.pu.object + 1 } [])] }
        cu := { s.cu with queue := rest, progress := .none, count := 0, finals := 0 }
        pu := { s.pu with object := s.pu.object + 1, anchor := none }
        dbm := d, rx := { s.rx.past e (s.historyFor e) (s.sinceFor e) with assembly := none, object := s.rx.object + 1 } }
      ∧ d.slots = (if x.entries.getD 0 ≤ s.rx.entry + 1 then xs else x :: xs) ∧ d.dram = s.dbm.dram := by
  obtain ⟨u, hu⟩ : ∃ u, u = (s.onRx (fun r =>
    { r.past e (s.historyFor e) (s.sinceFor e) with assembly := none, object := r.object + 1 })).advancePosition := ⟨_, rfl⟩
  obtain ⟨d, released, left, dram⟩ := h.released (u := u) (by rw [hu]; rfl) (by rw [hu]; rfl)
  have reads : Reads u.releaseDone q rest n limit := h.reads.congr (by rw [releaseDone_cu, hu]; rfl) (by rw [releaseDone_cu, hu]; rfl)
  refine ⟨d, ?_, left, dram⟩
  rw [expandEntry_filemark h kind]
  dsimp only
  rw [if_neg (by omega), ← hu, State.readCompletes, reads.complete_eq, released, hu]
  rfl

end

/-- Settles O40: a FILEMARK (`Expands.filemark_ends`, `Expands.filemark_passes`), or a segment (`Expands.expanded`, `expandEntry_segment`) that is
passed or ends a record (`Expands.recordEnds_awaits`). -/
theorem entryExpanded : Obligations.EntryExpanded := by
  intro s q rest n limit x xs queue begun command progress idle slots expanding more drain base e left
  have base_ : s.dbm.base 0 = base := by
    show 2097152 * ((s.dbm.drain + 0) % 512) = _
    rw [Nat.add_zero, Nat.mod_eq_of_lt drain]
  have h : Expands s q rest n limit x xs e := ⟨⟨queue, begun, command, progress⟩, idle, slots, expanding, more, by rw [base_]⟩
  refine ⟨fun kind => ⟨fun position => ?_, fun below => ?_⟩, ?_⟩
  · obtain ⟨d, ends, left_, dram⟩ := h.filemark_ends kind position
    exact ⟨_, congrArg Host.Outcome.next ends, rfl, rfl, rfl, rfl, rfl, rfl, rfl, left_, dram, rfl, rfl⟩
  · obtain ⟨d, passes, left_, dram⟩ := h.filemark_passes kind below
    exact ⟨_, congrArg Host.Outcome.next passes, rfl, rfl, rfl, rfl, rfl, rfl, rfl, left_, dram, rfl, rfl⟩
  · intro kind some_ positive short stored history since reach data bad spelled moves passes waits
    obtain ⟨expanded, length⟩ := Expands.expanded (s := s) (e := e) reach (by rw [base_]; exact spelled)
    have entry := expandEntry_segment h kind expanded
    obtain ⟨ex, hex⟩ : ∃ ex : Expanded, ex =
      { bytes := data, fault := bad, history := joinHistory (s.historyFor e) data, sinceReset := s.sinceFor e + e.host } := ⟨_, rfl⟩
    have host : ex.bytes.length = e.host := by rw [hex]; exact length
    have moved {t : State} (run : s.expandEntry = t) (m : EntryDone s t e ex.history ex.sinceReset) : moves t := by
      rw [hex] at m
      have kept : t.rx.history = (history ++ data).drop ((history ++ data).length - 2048) := by
        rw [m.history, joinHistory_eq, show s.historyFor e = history from rfl]
      exact ⟨congrArg Host.Outcome.next run, m.entry, m.offset, kept, m.sinceReset, m.cu, m.pu, m.spu, m.eu, m.rdr, m.dram⟩
    have passed {t : State} {object : Nat} {assembly : Option Assembly} (run : s.expandEntry = t) (p : PassesEntry s t e ex left object assembly) :
        passes object assembly := ⟨t, moved run p.moves, p.slots, p.sending, p.object, p.assembly⟩
    have awaited {t : State} {d : Sending} (run : s.expandEntry = t)
        (p : AwaitsSending s t e ex { d with object := s.rx.object, limit := limit, begun := false }) : waits d :=
      ⟨t, moved run p.moves, p.dbm, p.object, p.sending⟩
    have bytes {bs : List Byte} (all : e.host ≤ bs.length) : bs.take limit ≠ [] := by
      intro none_
      have lengths := congrArg List.length none_
      rw [List.length_take, List.length_nil] at lengths
      omega
    have alone : (Assembly.begin s.rx.object).data.length + ex.bytes.length ≤ 1048576 := by
      simp only [Assembly.begin, List.length_nil]
      omega
    rw [← hex] at entry
    refine ⟨fun k => ?_, fun k => ?_, fun none_ => ?_, fun a some_ fits acc => ?_⟩
    · rw [k] at entry
      refine ⟨fun position => awaited entry ?_, fun below => passed entry (h.recordEnds_passes ex _ below)⟩
      have awaits := Expands.recordEnds_awaits (limit := limit) (e := e) ex (((Assembly.begin s.rx.object).take e ex).checked e.check) position
        (bytes (by rw [take_whole alone]; simp [Assembly.checked, host]))
      rw [checked_toSend alone rfl] at awaits
      simpa [Assembly.begin, hex, length] using awaits
    · rw [k] at entry
      have joined : (Assembly.begin s.rx.object).take e ex = { object := s.rx.object, data := data, segments := 1, stored := e.stored, fault := bad,
                                                               acc := crc32Take crc32Start data } := by
        rw [take_whole alone]
        simp [Assembly.begin, hex]
      exact passed entry (joined ▸ h.passes rfl)
    · rw [none_] at entry
      refine ⟨fun k => ?_, fun k => ?_⟩ <;> rw [k] at entry
      · exact passed entry (h.passes (by rw [← none_]; rfl))
      · exact passed entry (h.passes (by rw [← none_]; rfl))
    · have joins : a.data.length + ex.bytes.length ≤ 1048576 := by omega
      rw [some_] at entry
      refine ⟨fun k => ?_, fun k => ⟨fun position => ?_, fun below => ?_⟩⟩ <;> rw [k] at entry
      · have joined : a.take e ex = { a with data := a.data ++ data, segments := a.segments + 1, stored := a.stored + e.stored,
                                             fault := a.fault || bad, acc := crc32Take crc32Start (a.data ++ data) } := by
          rw [take_whole joins, acc, ← crc32Take_append, hex]
        exact passed entry (joined ▸ h.passes rfl)
      · have awaits := Expands.recordEnds_awaits (limit := limit) (e := e) ex ((a.take e ex).checked e.check) position
          (bytes (by rw [take_whole joins]; simp [Assembly.checked, host]))
        rw [checked_toSend joins acc] at awaits
        refine awaited entry ?_
        simpa [hex, length] using awaits
      · exact passed entry (h.recordEnds_passes ex _ below)

end Sys2Proof.Machine
end

section
/-!
SUPPORT. The FILLING slot's life (R5 to R7, R17, R22): sealed by its timer or at its limit, opened for the next staging place, and a packet taken
that leaves too little ahead to encode.
-/
namespace Sys2Proof.Machine
open Sys2Proof.Laws

/-! ### Credits granted (R17) -/

/-- How many write credits R17 lets the Stream Port Unit grant. -/
def State.grantable (s : State) : Nat :=
  if s.writingRecords = true ∧ s.cu.progress = .writing ∧ s.dbm.direction = .write ∧ s.cu.deferred = none ∧ 2 < s.dbm.free
  then 256 - (s.dbm.staging.length + s.spu.credits) else 0

theorem grantCredits_eq (s : State) : s.grantCredits = { s with
    spu := { s.spu with credits := s.spu.credits + s.grantable, out := s.spu.out ++ if s.grantable = 0 then [] else [.wcrd s.grantable] } } := by
  unfold State.grantCredits State.grantable
  dsimp only
  rw [show Config.stagingPlaces = 256 from rfl]
  split
  · next may =>
    simp only [Bool.and_eq_true, beq_iff_eq, decide_eq_true_eq, Option.isNone_iff_eq_none] at may
    obtain ⟨⟨⟨⟨⟨writing, progress⟩, direction⟩, deferred⟩, free⟩, some_⟩ := may
    rw [if_pos ⟨writing, progress, direction, deferred, free⟩, if_neg (by omega)]
    rfl
  · next may =>
    have none_ : (if s.writingRecords = true ∧ s.cu.progress = .writing ∧ s.dbm.direction = .write ∧ s.cu.deferred = none ∧ 2 < s.dbm.free
        then 256 - (s.dbm.staging.length + s.spu.credits) else 0) = 0 := by
      split
      · next all =>
        obtain ⟨writing, progress, direction, deferred, free⟩ := all
        have closed : ¬ 0 < 256 - (s.dbm.staging.length + s.spu.credits) := by simpa [writing, progress, direction, deferred, free] using may
        omega
      · rfl
    rw [none_, if_pos rfl]
    simp

/-! ### Sealed by the timer or at the limit (R6, R7) -/

/-- The FILLING slot sealed for a cause that tells the Stream Port Unit of a rise of the FREE count (R6, R17). -/
theorem sealNow_eq {s : State} {older : List Slot} {x : Slot} (slots : s.dbm.slots = older ++ [x]) (filling : x.state = .filling)
    (segment : s.rc.segment = none) : s.sealNow = s.sealSlot.grantOnRise s.dbm.free := by
  rw [State.sealNow, sealForCause_eq slots filling segment]

/-- A slot freed empty: where the FREE count comes to 3 the Stream Port Unit grants. -/
theorem sealNow_frees {s : State} {older : List Slot} {x : Slot} (slots : s.dbm.slots = older ++ [x]) (filling : x.state = .filling)
    (segment : s.rc.segment = none) (empty : x.entries.getD 0 = 0) :
    let granted := if older.length = 509 ∧ s.writingRecords = true ∧ s.cu.progress = .writing ∧ s.dbm.direction = .write ∧ s.cu.deferred = none
      then 256 - (s.dbm.staging.length + s.spu.credits) else 0
    s.sealNow = { s with
      dbm := { s.dbm with slots := older, sealTimer := none }
      spu := { s.spu with credits := s.spu.credits + granted, out := s.spu.out ++ if granted = 0 then [] else [.wcrd granted] } } := by
  intro granted
  obtain ⟨u, hu⟩ : ∃ u : State, u = { s with dbm := { s.dbm with slots := older, sealTimer := none } } := ⟨_, rfl⟩
  have freed : s.sealSlot = u := by rw [sealSlot_eq slots filling, if_pos empty, if_pos empty, List.append_nil, hu]
  have was : s.dbm.free = 511 - older.length := by simp [Dbm.free, slots, Config.slotCount]
  have now : u.dbm.free = 512 - older.length := by rw [hu]; rfl
  have writing : u.writingRecords = s.writingRecords := by rw [hu]; rfl
  rw [sealNow_eq slots filling segment, freed, State.grantOnRise]
  rcases Nat.lt_or_ge older.length 509 with few | many
  · have none_ : granted = 0 := if_neg (by omega)
    rw [if_neg (by omega), none_, hu]
    simp
  · have amount : u.grantable = granted := by
      have rise : 2 < u.dbm.free ↔ older.length = 509 := by omega
      simp only [State.grantable, writing, rise, granted]
      rw [hu]
      exact if_congr (by constructor <;> rintro ⟨_, _, _, _, _⟩ <;> simp_all) rfl rfl
    rw [if_pos (by omega), grantCredits_eq, amount, hu]

/-- A slot sealed stays occupied: no credit follows. -/
theorem sealNow_seals {s : State} {older : List Slot} {x : Slot} (slots : s.dbm.slots = older ++ [x]) (filling : x.state = .filling)
    (segment : s.rc.segment = none) (some_ : 1 ≤ x.entries.getD 0) : s.sealNow = { s with dbm := { s.dbm with
      slots := older ++ [{ x with state := .sealed }], sealTimer := none, dram := s.dbm.dram.sealed (s.dbm.base older.length) x } } := by
  obtain ⟨u, hu⟩ : ∃ u : State, u = { s with dbm := { s.dbm with
    slots := older ++ [{ x with state := .sealed }], sealTimer := none, dram := s.dbm.dram.sealed (s.dbm.base older.length) x } } := ⟨_, rfl⟩
  have sealed_ : s.sealSlot = u := by rw [sealSlot_eq slots filling, if_neg (by omega), if_neg (by omega), hu]
  have same : u.dbm.free = s.dbm.free := by rw [hu]; simp [Dbm.free, slots]
  rw [sealNow_eq slots filling segment, sealed_, ← hu, State.grantOnRise]
  split
  · have none_ : u.grantable = 0 := if_neg (by omega)
    rw [grantCredits_eq, none_, if_pos rfl]
    simp
  · rfl

/-- The step of the seal timer and that of the entry limit are the seal (R6, R7, R30). -/
theorem seal_steps {s : State} {i : Instr} {older : List Slot} {x : Slot} (slots : s.dbm.slots = older ++ [x]) (filling : x.state = .filling)
    (cause : (i = .sealTimerExpiry ∧ s.dbm.sealTimer.isSome = true) ∨ (i = .entryLimitSeal ∧ 4096 ≤ x.entries.getD 0)) :
    exec i s = .next s.sealNow.advance := by
  rcases cause with ⟨rfl, timer⟩ | ⟨rfl, limit⟩
  · show Host.Outcome.next (s.when s.dbm.sealTimer.isSome State.sealNow).advance = _
    rw [timer, when_true]
  · have full : s.entryLimit = true := by
      rw [State.entryLimit, filling_of_concat slots filling]
      exact decide_eq_true limit
    show Host.Outcome.next (s.when s.entryLimit State.sealNow).advance = _
    rw [full, when_true]

/-! ### The next staging place (R5, R22) -/

/-- A WRITE_RECORDS that writes, its records not all taken, with a staging place occupied. -/
structure Writes (s : State) (q : Queued) (rest : List Queued) (n : Nat) (p : Place) (ps : List Place) : Prop where
  queue : s.cu.queue = q :: rest
  begun : q.begun = true
  command : q.command = .wrec n
  progress : s.cu.progress = .writing
  direction : s.dbm.direction = .write
  more : s.cu.finals < n
  staging : s.dbm.staging = p :: ps

section
variable {s : State} {q : Queued} {rest : List Queued} {n : Nat} {p : Place} {ps : List Place}

theorem Writes.executing (h : Writes s q rest n p ps) : s.executing = some (.wrec n) := by
  rw [executing_of_begun h.queue h.begun, h.command]

/-- The Record Compressor takes the place where a slot can be had for it and the record and the staging hold it. -/
theorem Writes.canTake (h : Writes s q rest n p ps) (slot : s.dbm.filling.isSome = true ∨ 0 < s.dbm.free) (room : s.rc.hasRoom p = true) :
    s.canTake = true := by
  unfold State.canTake
  rw [h.executing, h.staging]
  simp [h.progress, h.direction, h.more, room, slot]

/-- A slot opened: only the buffer and the Record Compressor's history change where the filemarks before the end are known (R5, R23). -/
theorem openFilling_eq {fm : Nat} (known : s.dbm.slots ≠ [] ∨ s.pu.eodFilemarks.getD s.pu.partition none = some fm) : s.openFilling = { s with
    dbm := s.dbm.opened { state := .filling, dataset := s.nextDataset, partition := s.pu.partition, first := some s.pu.object,
                          filemarksBefore := some s.filemarksBefore, entries := some 0, payload := some 0, attempt := some 1, passes := none,
                          outcome := none, objects := 0, filemarks := 0 }
    rc := { s.rc with history := [], sinceReset := 0, resetOwed := true } } := by
  have known_ : ((s.pu.eodFilemarks.getD s.pu.partition none).isSome || !s.dbm.slots.isEmpty) = true := by
    rcases known with some_ | e
    · simp [some_]
    · simp only [e, Option.isSome_some, Bool.true_or]
  unfold State.openFilling
  dsimp only
  rw [known_]
  rfl

/-- The step that opens a slot, with no record in progress (R5). -/
theorem opens_slot (h : Writes s q rest n p ps) (filling : s.dbm.filling = none) (free : 0 < s.dbm.free) (fits : s.oversize p = false)
    (room : s.rc.hasRoom p = true) (record : s.rc.record = none) {fm : Nat}
    (known : s.dbm.slots ≠ [] ∨ s.pu.eodFilemarks.getD s.pu.partition none = some fm)
    (busy : s.openFilling.writesNext = false) : exec .openFillingSlot s = .next s.openFilling := by
  have needs : s.needsSlot = true := by
    simp [State.needsSlot, h.direction, filling, free, h.canTake (.inr free) room, h.staging, fits]
  have idle : ∀ k, State.rcRun k s.openFilling = s.openFilling := by
    intro k
    cases k with
    | zero => rfl
    | succ k =>
      have stays : s.openFilling.rcStep = none := by
        rw [State.rcStep, openFilling_eq known, record]
      rw [State.rcRun, stays]
  have progress : s.openFilling.cu.progress = .writing := by rw [openFilling_eq known]; exact h.progress
  show Host.Outcome.next (s.when s.needsSlot State.fillOpened) = _
  rw [needs, when_true, State.fillOpened, idle, advance_eq busy (by rw [progress]; rfl) (by simp [progress])]

/-- A place taken up: its bytes behind the lookahead, its record begun or gone on with, the seal timer restarted (R7, R22). -/
def State.taken (s : State) (p : Place) (ps : List Place) : State :=
  { s with
    rc := { s.rc with lookahead := s.rc.lookahead ++ p.data, h := s.rc.h + p.data.length,
                      record := some { s.recordNow with taken := s.recordNow.taken + p.data.length,
                                                        acc := crc32Take s.recordNow.acc p.data, final := p.final } }
    dbm := { s.dbm with staging := ps, sealTimer := some { elapsed := 0, period := s.sm.table.sealTimeout } }
    cu := { s.cu with finals := if p.final then s.cu.finals + 1 else s.cu.finals } }

theorem takes_place (h : Writes s q rest n p ps) {older : List Slot} {x : Slot} (slots : s.dbm.slots = older ++ [x]) (filling : x.state = .filling)
    (fits : s.recordNow.taken + p.data.length ≤ 1048576) (room : s.rc.hasRoom p = true) :
    s.takeNext = (State.rcRun (s.taken p ps).rcFuel (s.taken p ps)).grantCredits := by
  have there := filling_of_concat slots filling
  have small : s.oversize p = false := decide_eq_false (by simp only [Config.maxRecord]; omega)
  have behind : s.dbm.staging.drop 1 = ps := by rw [h.staging]; rfl
  have open_ {t : State} (dbm : t.dbm = { s.dbm with staging := ps }) : t.ensureFilling = some t := by
    have direction : t.dbm.direction = .write := by rw [dbm]; exact h.direction
    have filling_ : t.dbm.filling = some (older.length, x) := by rw [dbm]; exact there
    rw [State.ensureFilling, if_neg (by simp [direction]), if_pos (by simp [filling_])]
  unfold State.takeNext
  rw [h.canTake (.inl (by simp [there])) room, h.staging]
  dsimp only
  unfold State.takePlace
  rw [if_neg (by simp [small])]
  dsimp only
  simp only [State.onDbm, State.onRc, State.onCu, behind]
  rw [open_ rfl]
  rfl

/-- A place that leaves fewer than 18 bytes ahead, and more of its record to come: nothing is encoded (R22). -/
theorem takes_short (h : Writes s q rest n p ps) {older : List Slot} {x : Slot} (slots : s.dbm.slots = older ++ [x]) (filling : x.state = .filling)
    (fits : s.recordNow.taken + p.data.length ≤ 1048576) (room : s.rc.hasRoom p = true) (open_ : p.final = false)
    (short : s.rc.lookahead.length + p.data.length < 18) : s.takeNext = (s.taken p ps).grantCredits := by
  have stays : (s.taken p ps).rcStep = none := by
    have ahead : (s.taken p ps).rc.lookahead.length < 18 := by
      show (s.rc.lookahead ++ p.data).length < 18
      rw [List.length_append]
      exact short
    unfold State.rcStep
    simp only [State.taken, open_]
    split
    · rfl
    · rw [if_neg]
      simp only [Bool.or_false, decide_eq_true_eq, Nat.not_le]
      exact ahead
  have idle : ∀ k, State.rcRun k (s.taken p ps) = s.taken p ps := by
    intro k
    cases k with
    | zero => rfl
    | succ k => rw [State.rcRun, stays]
  rw [takes_place h slots filling fits room, idle]

end

end Sys2Proof.Machine
end

section
/-!
SUPPORT. The copy the Record Compressor finds at the front of the lookahead (R24): the longest, and the nearest of its length, among the candidates of
the host bytes behind their history.
-/
namespace Sys2Proof.Machine
open Sys2Proof.Laws

/-! ### How far two streams agree -/

theorem le_matchLength_iff (fuel : Nat) : ∀ (k : Nat) (as bs : List Byte),
    k ≤ matchLength fuel as bs ↔ k ≤ fuel ∧ k ≤ as.length ∧ k ≤ bs.length ∧ as.take k = bs.take k := by
  induction fuel with
  | zero =>
    intro k as bs
    simp only [matchLength]
    constructor
    · intro h
      obtain rfl : k = 0 := by omega
      simp
    · exact fun h => h.1
  | succ fuel ih =>
    intro k as bs
    cases k with
    | zero => simp
    | succ k =>
      cases as with
      | nil => simp [matchLength]
      | cons a as =>
        cases bs with
        | nil => simp [matchLength]
        | cons b bs =>
          rw [matchLength]
          split
          · next e =>
            rw [Nat.add_comm 1, Nat.add_le_add_iff_right, ih k as bs]
            simp [e]
          · next ne => simp [ne]

/-! ### The best copy among distances -/

/-- The best copy among the distances above `lo` up to `hi`, where `len` says how far each agrees: the longest of 3 bytes or more, the nearest of its
length. -/
def BestCopy (len : Nat → Nat) (lo hi : Nat) : Option (Nat × Nat) → Prop
  | none => ∀ d, lo < d → d ≤ hi → len d < 3
  | some (l, d) => lo < d ∧ d ≤ hi ∧ len d = l ∧ 3 ≤ l ∧ ∀ d', lo < d' → d' ≤ hi → len d' ≤ l ∧ (len d' = l → d ≤ d')

/-- The best copy so far with one of length `l` at the next nearer distance `d` taken into account. -/
def bettered (l d : Nat) : Option (Nat × Nat) → Option (Nat × Nat)
  | some (l', d') => if l' ≤ l then some (l, d) else some (l', d')
  | none => if 3 ≤ l then some (l, d) else none

theorem nearerCopy_succ (ahead stream : List Byte) (d : Nat) (best : Option (Nat × Nat)) :
    nearerCopy ahead (d + 1) stream best = nearerCopy ahead d stream.tail (bettered (matchLength 18 ahead stream) (d + 1) best) := by
  cases best <;> rfl

theorem BestCopy.nearer {len : Nat → Nat} {d hi : Nat} {best : Option (Nat × Nat)} (h : BestCopy len (d + 1) hi best) (le : d + 1 ≤ hi) :
    BestCopy len d hi (bettered (len (d + 1)) (d + 1) best) := by
  have cases_ {d' : Nat} (low : d < d') : d' = d + 1 ∨ d + 1 < d' := by omega
  match best, h with
  | none, h =>
    rw [bettered]
    by_cases long : 3 ≤ len (d + 1)
    · rw [if_pos long]
      refine ⟨by omega, le, rfl, long, fun d' low high => ?_⟩
      rcases cases_ low with rfl | far
      · exact ⟨Nat.le_refl _, fun _ => Nat.le_refl _⟩
      · have short := h d' far high
        exact ⟨by omega, fun e => by omega⟩
    · rw [if_neg long]
      intro d' low high
      rcases cases_ low with rfl | far
      · omega
      · exact h d' far high
  | some (l, e), ⟨low, high, same, long, all⟩ =>
    rw [bettered]
    by_cases better : l ≤ len (d + 1)
    · rw [if_pos better]
      refine ⟨by omega, le, rfl, by omega, fun d' low' high' => ?_⟩
      rcases cases_ low' with rfl | far
      · exact ⟨Nat.le_refl _, fun _ => Nat.le_refl _⟩
      · exact ⟨Nat.le_trans (all d' far high').1 better, fun _ => by omega⟩
    · rw [if_neg better]
      refine ⟨by omega, high, same, long, fun d' low' high' => ?_⟩
      rcases cases_ low' with rfl | far
      · exact ⟨by omega, fun e => by omega⟩
      · exact all d' far high'

theorem nearerCopy_best {ahead stream : List Byte} {far : Nat} (d : Nat) : ∀ {best : Option (Nat × Nat)}, d ≤ far →
    BestCopy (fun d => matchLength 18 ahead (stream.drop (far - d))) d far best →
    BestCopy (fun d => matchLength 18 ahead (stream.drop (far - d))) 0 far (nearerCopy ahead d (stream.drop (far - d)) best) := by
  induction d with
  | zero => intro best _ h; exact h
  | succ d ih =>
    intro best le h
    have tail : (stream.drop (far - (d + 1))).tail = stream.drop (far - d) := by
      rw [List.tail_drop, show far - (d + 1) + 1 = far - d by omega]
    rw [nearerCopy_succ, tail]
    exact ih (by omega) (h.nearer le)

/-! ### The candidates of the host bytes -/

/-- The stream a copy from a distance back reads at a host position: the history kept and the bytes ahead, from that distance. -/
theorem copy_stream {history data : List Byte} {i d : Nat} (near : d ≤ 2048) (within : i ≤ data.length) (reach : d ≤ history.length + i) :
    let kept := joinHistory history (data.take i)
    let far := min 2048 (history.length + i)
    (kept.drop (kept.length - far) ++ (data.drop i).take 18).drop (far - d) = ((history ++ data).drop (history.length + i - d)).take (d + 18) := by
  intro kept far
  have before : (history ++ data.take i).length = history.length + i := by simp; omega
  have length : kept.length = far := by
    simp only [kept, far, joinHistory_eq, List.length_drop, before]
    omega
  have whole : kept ++ (data.drop i).take 18 = ((history ++ data).take (history.length + i + 18)).drop (history.length + i - 2048) := by
    have front : (history ++ data).take (history.length + i + 18) = (history ++ data.take i) ++ (data.drop i).take 18 := by
      rw [List.take_append, List.take_of_length_le (by omega), show history.length + i + 18 - history.length = i + 18 by omega,
        List.take_add, List.append_assoc]
    rw [front, List.drop_append_of_le_length (by omega), ← before, ← joinHistory_eq]
  have from_ : history.length + i - 2048 + (far - d) = history.length + i - d := by simp only [far]; omega
  have upto : history.length + i + 18 - (history.length + i - d) = d + 18 := by omega
  rw [length, Nat.sub_self, List.drop_zero, whole, List.drop_drop, from_, List.drop_take, upto]

/-- Two stretches of a list are the same where they agree byte by byte. -/
theorem stretch_eq_iff {W : List Byte} {P Q l : Nat} (p : P + l ≤ W.length) (q : Q + l ≤ W.length) :
    (W.drop P).take l = (W.drop Q).take l ↔ ∀ k : Nat, k < l → W.getD (P + k) 0 = W.getD (Q + k) 0 := by
  constructor
  · intro same k lt
    have at_ (A : Nat) : ((W.drop A).take l)[k]? = W[A + k]? := by rw [List.getElem?_take_of_lt lt, List.getElem?_drop]
    rw [List.getD_eq_getElem?_getD, List.getD_eq_getElem?_getD, ← at_, ← at_, same]
  · intro agree
    refine List.ext_getElem (by simp only [List.length_take, List.length_drop]; omega) fun k low high => ?_
    have lt : k < l := by rw [List.length_take] at low; omega
    have each := agree k lt
    rw [List.getD_eq_getElem _ _ (by omega), List.getD_eq_getElem _ _ (by omega)] at each
    rw [List.getElem_take, List.getElem_take, List.getElem_drop, List.getElem_drop, each]

/-- The candidates of R24 are the lengths up to which the bytes ahead agree with that stream. -/
theorem copyAt_iff {history data : List Byte} {since i : Nat} (reach : history.length = min 2048 since) (within : i ≤ data.length) (l d : Nat) :
    CopyAt history since data i l d ↔ 3 ≤ l ∧ 1 ≤ d ∧ d ≤ min 2048 (history.length + i)
      ∧ l ≤ matchLength 18 ((data.drop i).take 18) (((history ++ data).drop (history.length + i - d)).take (d + 18)) := by
  obtain ⟨W, hW⟩ : ∃ W, W = history ++ data := ⟨_, rfl⟩
  have total : W.length = history.length + data.length := by rw [hW, List.length_append]
  have ahead (k : Nat) : data.getD (i + k) 0 = W.getD (history.length + i + k) 0 := by
    rw [hW, List.getD_append_right _ _ _ _ (by omega), show history.length + i + k - history.length = i + k by omega]
  have front : data.drop i = W.drop (history.length + i) := by rw [hW, List.drop_length_add_append]
  have stretch (short : l ≤ 18) (fits : i + l ≤ data.length) (near : d ≤ history.length + i) :
      ((data.drop i).take 18).take l = ((W.drop (history.length + i - d)).take (d + 18)).take l
        ↔ ∀ k : Nat, k < l → data.getD (i + k) 0 = W.getD (history.length + i + k - d) 0 := by
    rw [front, List.take_take, List.take_take, Nat.min_eq_left short, Nat.min_eq_left (by omega), stretch_eq_iff (by omega) (by omega)]
    refine forall_congr' fun k => imp_congr_right fun lt => ?_
    rw [ahead, show history.length + i - d + k = history.length + i + k - d by omega]
  rw [le_matchLength_iff]
  simp only [CopyAt, ← hW, List.length_take, List.length_drop]
  constructor
  · rintro ⟨long, short, positive, near, back, fits, agree⟩
    exact ⟨long, positive, by omega, short, by omega, by omega, (stretch short fits (by omega)).mpr agree⟩
  · rintro ⟨long, positive, near, short, fits, _, agree⟩
    exact ⟨long, short, positive, by omega, by omega, by omega, (stretch short (by omega) (by omega)).mp agree⟩

/-- The longest copy the Record Compressor finds at a position is the best candidate there (R24). -/
theorem longestCopy_best {history data : List Byte} {since i : Nat} (reach : history.length = min 2048 since) (within : i ≤ data.length) :
    match longestCopy (joinHistory history (data.take i)) (since + i) (data.drop i) with
    | none => ∀ l d, ¬ CopyAt history since data i l d
    | some (l, d) => CopyAt history since data i l d ∧ ∀ l' d', CopyAt history since data i l' d' → l' < l ∨ (l' = l ∧ d ≤ d') := by
  obtain ⟨kept, hk⟩ : ∃ kept, kept = joinHistory history (data.take i) := ⟨_, rfl⟩
  obtain ⟨far, hf⟩ : ∃ far, far = min 2048 (history.length + i) := ⟨_, rfl⟩
  have length : kept.length = far := by
    rw [hk, hf, joinHistory_eq, List.length_drop, List.length_append, List.length_take]
    omega
  have stream (d : Nat) (le : d ≤ far) : (kept.drop (kept.length - far) ++ (data.drop i).take 18).drop (far - d)
      = ((history ++ data).drop (history.length + i - d)).take (d + 18) := by
    rw [hk, hf]
    exact copy_stream (by omega) within (by omega)
  have reached : min (min Config.historyBytes (since + i)) kept.length = far := by
    rw [Config.historyBytes, length]
    omega
  have best := nearerCopy_best (ahead := (data.drop i).take 18) (stream := kept.drop (kept.length - far) ++ (data.drop i).take 18) (far := far) far
    (best := none) (Nat.le_refl _) (fun d low high => by omega)
  rw [Nat.sub_self, List.drop_zero] at best
  obtain ⟨len, hlen⟩ : ∃ len : Nat → Nat, len = fun d => matchLength 18 ((data.drop i).take 18)
    ((kept.drop (kept.length - far) ++ (data.drop i).take 18).drop (far - d)) := ⟨_, rfl⟩
  rw [← hlen] at best
  rw [← hk, longestCopy, reached]
  have candidate (l d : Nat) : CopyAt history since data i l d ↔ 3 ≤ l ∧ 1 ≤ d ∧ d ≤ far ∧ l ≤ len d := by
    rw [copyAt_iff reach within, ← hf]
    refine and_congr_right fun _ => and_congr_right fun _ => and_congr_right fun le => ?_
    simp only [hlen, stream d le]
  generalize nearerCopy _ far _ none = found at best
  cases found with
  | none =>
    intro l d copy
    obtain ⟨long, positive, near, agree⟩ := (candidate l d).mp copy
    have short := best d positive near
    omega
  | some pair =>
    obtain ⟨l, d⟩ := pair
    obtain ⟨positive, near, same, long, all⟩ := best
    refine ⟨(candidate l d).mpr ⟨long, positive, near, Nat.le_of_eq same.symm⟩, fun l' d' copy => ?_⟩
    obtain ⟨_, positive', near', agree⟩ := (candidate l' d').mp copy
    obtain ⟨most, nearest⟩ := all d' positive' near'
    rcases Nat.lt_or_ge l' l with less | ge
    · exact .inl less
    · exact .inr ⟨by omega, nearest (by omega)⟩

end Sys2Proof.Machine
end

section
/-!
SUPPORT. The tokens of R24 and R25 as they come to stand, one after another.
-/
namespace Sys2Proof.Machine
open Sys2Proof.Laws

/-! ### Tokens in their places -/

theorem placedFrom_concat (t : Token) (ts : List Token) : ∀ k : Nat,
    placedFrom k (ts ++ [t]) = placedFrom k ts ++ [(k + (ts.map Token.hostLength).sum, t)] := by
  induction ts with
  | nil => intro k; rfl
  | cons u ts ih =>
    intro k
    simp only [List.cons_append, placedFrom, ih, List.map_cons, List.sum_cons, Nat.add_assoc]

/-- The last token is no literal run that might have gone on (R25). -/
def RunClosed (ts : List Token) : Prop := ∀ bs : List Byte, ts.getLast? = some (.literal bs) → bs.length = 128

/-- Tokens that spell the host bytes up to a position as R24 and R25 have it. -/
structure Greedy (history : List Byte) (since : Nat) (data : List Byte) (i : Nat) (ts : List Token) : Prop where
  ok : ∀ t ∈ ts, t.ok = true
  length : (ts.map Token.hostLength).sum = i
  copies : ∀ j l d : Nat, (j, Token.copy l d) ∈ placedFrom 0 ts → CopyAt history since data j l d
    ∧ ∀ l' d' : Nat, CopyAt history since data j l' d' → l' < l ∨ (l' = l ∧ d ≤ d')
  literals : ∀ (j : Nat) (bs : List Byte), (j, Token.literal bs) ∈ placedFrom 0 ts → bs = (data.drop j).take bs.length
    ∧ ∀ k l d : Nat, k < bs.length → ¬ CopyAt history since data (j + k) l d
  runs : ∀ (k : Nat) (bs cs : List Byte), ts[k]? = some (.literal bs) → ts[k + 1]? = some (.literal cs) → bs.length = 128

section
variable {history data : List Byte} {since i : Nat} {ts : List Token}

theorem Greedy.tokens (h : Greedy history since data data.length ts) : GreedyTokens history since data ts :=
  ⟨h.ok, h.length, h.copies, h.literals, h.runs⟩

theorem Greedy.nil : Greedy history since data 0 [] :=
  ⟨fun _ mem => absurd mem (List.not_mem_nil), rfl, fun _ _ _ mem => absurd mem (List.not_mem_nil), fun _ _ mem => absurd mem (List.not_mem_nil),
    fun _ _ _ e => by simp at e⟩

/-- Runs that may stand beside one another with a token more: the last one closed, or the token no literal. -/
theorem runs_concat {t : Token} (h : Greedy history since data i ts) (closed : RunClosed ts ∨ ∀ bs, t ≠ .literal bs) (k : Nat) (bs cs : List Byte)
    (first : (ts ++ [t])[k]? = some (.literal bs)) (second : (ts ++ [t])[k + 1]? = some (.literal cs)) : bs.length = 128 := by
  rcases Nat.lt_or_ge (k + 1) ts.length with inside | past
  · rw [List.getElem?_append_left (by omega)] at first
    rw [List.getElem?_append_left inside] at second
    exact h.runs k bs cs first second
  · have at_ : k + 1 = ts.length := by
      have bound := (List.getElem?_eq_some_iff.mp second).1
      rw [List.length_append, List.length_singleton] at bound
      omega
    rw [at_, List.getElem?_concat_length] at second
    rw [List.getElem?_append_left (by omega)] at first
    rcases closed with closed | other
    · refine closed bs ?_
      rw [List.getLast?_eq_getElem?, ← at_, Nat.add_sub_cancel]
      exact first
    · exact absurd (Option.some.inj second) (other cs)

/-- A copy placed at the position, the best candidate there. -/
theorem Greedy.copy (h : Greedy history since data i ts) {l d : Nat} (copy : CopyAt history since data i l d)
    (best : ∀ l' d' : Nat, CopyAt history since data i l' d' → l' < l ∨ (l' = l ∧ d ≤ d')) :
    Greedy history since data (i + l) (ts ++ [.copy l d]) := by
  have placed {j : Nat} {u : Token} (mem : (j, u) ∈ placedFrom 0 (ts ++ [.copy l d])) :
      (j, u) ∈ placedFrom 0 ts ∨ (j = i ∧ u = .copy l d) := by
    rw [placedFrom_concat, Nat.zero_add, h.length, List.mem_append, List.mem_singleton, Prod.mk.injEq] at mem
    exact mem
  refine ⟨fun t mem => ?_, ?_, fun j l' d' mem => ?_, fun j bs mem => ?_, fun k bs cs => runs_concat h (.inr (by simp)) k bs cs⟩
  · rcases List.mem_append.mp mem with old | new
    · exact h.ok t old
    · obtain ⟨long, short, positive, near, _⟩ := copy
      rw [List.mem_singleton.mp new]
      simp [Token.ok, long, short, positive, near]
  · simp [h.length, Token.hostLength]
  · rcases placed mem with old | ⟨rfl, e⟩
    · exact h.copies j l' d' old
    · obtain ⟨rfl, rfl⟩ := Token.copy.inj e
      exact ⟨copy, best⟩
  · rcases placed mem with old | ⟨_, e⟩
    · exact h.literals j bs old
    · cases e

/-- A literal run placed at the position, where no candidate is. -/
theorem Greedy.literal (h : Greedy history since data i ts) (closed : RunClosed ts) {bs : List Byte} (some_ : 1 ≤ bs.length) (short : bs.length ≤ 128)
    (bytes : bs = (data.drop i).take bs.length) (none_ : ∀ k l d : Nat, k < bs.length → ¬ CopyAt history since data (i + k) l d) :
    Greedy history since data (i + bs.length) (ts ++ [.literal bs]) := by
  have placed {j : Nat} {u : Token} (mem : (j, u) ∈ placedFrom 0 (ts ++ [.literal bs])) :
      (j, u) ∈ placedFrom 0 ts ∨ (j = i ∧ u = .literal bs) := by
    rw [placedFrom_concat, Nat.zero_add, h.length, List.mem_append, List.mem_singleton, Prod.mk.injEq] at mem
    exact mem
  refine ⟨fun t mem => ?_, ?_, fun j l d mem => ?_, fun j cs mem => ?_, fun k bs cs => runs_concat h (.inl closed) k bs cs⟩
  · rcases List.mem_append.mp mem with old | new
    · exact h.ok t old
    · rw [List.mem_singleton.mp new]
      simp [Token.ok, some_, short]
  · simp [h.length, Token.hostLength]
  · rcases placed mem with old | ⟨_, e⟩
    · exact h.copies j l d old
    · cases e
  · rcases placed mem with old | ⟨rfl, e⟩
    · exact h.literals j cs old
    · obtain rfl := Token.literal.inj e
      exact ⟨bytes, none_⟩

end

end Sys2Proof.Machine
end

section
/-!
SUPPORT. What is written to a slot's payload and index (R27, R30): bytes placed one behind another, and an entry that reads back as it was placed.
-/
namespace Sys2Proof.Machine
open Sys2Proof.Laws

/-! ### Bytes read back -/

theorem readBytes_eq (m : Memory) (n : Nat) : ∀ a : Nat, m.readBytes a n = (List.range n).map (fun k => m.read (a + k)) := by
  induction n with
  | zero => intro a; rfl
  | succ n ih =>
    intro a
    rw [Memory.readBytes, ih, List.range_succ_eq_map, List.map_cons, List.map_map, Nat.add_zero]
    congr 1
    refine List.map_congr_left fun k _ => ?_
    rw [Function.comp, Nat.succ_eq_add_one, Nat.add_assoc, Nat.add_comm 1]

theorem readBytes_congr {m t : Memory} {a n : Nat} (same : ∀ k : Nat, k < n → t.read (a + k) = m.read (a + k)) : t.readBytes a n = m.readBytes a n := by
  rw [readBytes_eq, readBytes_eq]
  exact List.map_congr_left fun k mem => same k (List.mem_range.mp mem)

/-- Bytes written are read back. -/
theorem readBytes_writeBytes {m : Memory} (wf : m.wf = true) (a : Nat) (bs : List Byte) : (m.writeBytes a bs).readBytes a bs.length = bs := by
  refine List.ext_getElem (by rw [readBytes_length]) fun k low high => ?_
  have at_ : (m.writeBytes a bs).read (a + k) = bs.getD k 0 := by
    rw [read_writeBytes _ _ _ _ wf, if_pos ⟨by omega, by omega⟩, Nat.add_sub_cancel_left]
  simp only [readBytes_eq, List.getElem_map, List.getElem_range, at_]
  rw [List.getD_eq_getElem _ _ high]

theorem readBytes_append (m : Memory) (n k : Nat) : ∀ a : Nat, m.readBytes a (n + k) = m.readBytes a n ++ m.readBytes (a + n) k := by
  induction n with
  | zero => intro a; simp [Memory.readBytes]
  | succ n ih =>
    intro a
    rw [show n + 1 + k = n + k + 1 by omega, Memory.readBytes, Memory.readBytes, ih, List.cons_append, Nat.add_assoc, Nat.add_comm 1]

/-- Bytes placed from an address on, in a stretch of which nothing outside changes. -/
structure Written (m t : Memory) (at_ most : Nat) (body : List Byte) : Prop where
  wf : t.wf = true
  read : t.readBytes at_ body.length = body
  others : ∀ a : Nat, (a < at_ ∨ at_ + most ≤ a) → t.read a = m.read a

theorem Written.nil {m : Memory} (wf : m.wf = true) (at_ most : Nat) : Written m m at_ most [] := ⟨wf, rfl, fun _ _ => rfl⟩

/-- More bytes placed behind. -/
theorem Written.append {m t : Memory} {at_ most : Nat} {body : List Byte} (h : Written m t at_ most body) {bs : List Byte}
    (fits : body.length + bs.length ≤ most) : Written m (t.writeBytes (at_ + body.length) bs) at_ most (body ++ bs) := by
  refine ⟨wf_writeBytes _ _ _ h.wf, ?_, fun a out => ?_⟩
  · rw [List.length_append, readBytes_append, readBytes_writeBytes h.wf]
    congr 1
    refine (readBytes_congr fun k lt => ?_).trans h.read
    rw [read_writeBytes _ _ _ _ h.wf, if_neg (by omega)]
  · rw [read_writeBytes _ _ _ _ h.wf, if_neg (by omega)]
    exact h.others a out

/-- Other bytes placed over them from the beginning. -/
theorem Written.over {m t : Memory} {at_ most : Nat} {body : List Byte} (h : Written m t at_ most body) {bs : List Byte}
    (fits : bs.length ≤ most) : Written m (t.writeBytes at_ bs) at_ most bs := by
  refine ⟨wf_writeBytes _ _ _ h.wf, readBytes_writeBytes h.wf _ _, fun a out => ?_⟩
  rw [read_writeBytes _ _ _ _ h.wf, if_neg (by omega)]
  exact h.others a out

/-- Bytes placed elsewhere leave them. -/
theorem Written.elsewhere {m t : Memory} {at_ most : Nat} {body : List Byte} (h : Written m t at_ most body) {a : Nat} {bs : List Byte}
    (apart : at_ + body.length ≤ a) : (t.writeBytes a bs).readBytes at_ body.length = body := by
  refine (readBytes_congr fun k lt => ?_).trans h.read
  rw [read_writeBytes _ _ _ _ h.wf, if_neg (by omega)]

/-! ### An entry read back -/

theorem leNat_leBytes (w : Nat) : ∀ n : Nat, n < 256 ^ w → leNat (leBytes w n) = n := by
  induction w with
  | zero => intro n lt; simp at lt; simp [leBytes, leNat, lt]
  | succ w ih =>
    intro n lt
    rw [leBytes, leNat, ih (n / 256) (by rw [Nat.div_lt_iff_lt_mul (by omega), ← Nat.pow_succ]; exact lt), BitVec.toNat_ofNat]
    omega

theorem entry_bytes_length (e : IndexEntry) : e.bytes.length = 16 := by simp [IndexEntry.bytes, leBytes_length]

theorem ofCode_code (k : EntryKind) : EntryKind.ofCode (BitVec.ofNat 8 k.code).toNat = k := by cases k <;> rfl

/-- An entry placed at its address is the entry read there. -/
theorem entry_writeBytes {m : Memory} (wf : m.wf = true) (base k : Nat) {e : IndexEntry} (host : e.host < 4294967296) (stored : e.stored < 4294967296) :
    (m.writeBytes (base + entryOffset k) e.bytes).entry base k = e := by
  obtain ⟨a, ha⟩ : ∃ a, a = base + entryOffset k := ⟨_, rfl⟩
  obtain ⟨t, ht⟩ : ∃ t, t = m.writeBytes a e.bytes := ⟨_, rfl⟩
  have whole : t.readBytes a 16 = e.bytes := by
    rw [ht, ← entry_bytes_length e]
    exact readBytes_writeBytes wf a e.bytes
  rw [show 16 = 4 + (4 + (4 + 4)) from rfl, readBytes_append, readBytes_append, readBytes_append, IndexEntry.bytes, List.append_assoc,
    List.append_assoc] at whole
  obtain ⟨first, whole⟩ := List.append_inj whole (by simp [readBytes_length])
  obtain ⟨host_, whole⟩ := List.append_inj whole (by simp [readBytes_length, leBytes_length])
  obtain ⟨stored_, check_⟩ := List.append_inj whole (by simp [readBytes_length, leBytes_length])
  simp only [Memory.readBytes, List.cons.injEq] at first
  obtain ⟨kind, flags, _⟩ := first
  rw [← ha, ← ht]
  unfold Memory.entry
  dsimp only
  rw [← ha, kind, flags, host_, show a + 8 = a + 4 + 4 by omega, stored_, show a + 12 = a + 4 + 4 + 4 by omega, check_, ofCode_code,
    leNat_leBytes 4 _ host, leNat_leBytes 4 _ stored, leNat_leBytes 4 _ e.check.isLt, BitVec.ofNat_toNat, BitVec.setWidth_eq]
  have bits : (BitVec.ofNat 8 ((if e.reset = true then 1 else 0) + if e.compressed = true then 2 else 0)).getLsbD 0 = e.reset
      ∧ (BitVec.ofNat 8 ((if e.reset = true then 1 else 0) + if e.compressed = true then 2 else 0)).getLsbD 1 = e.compressed := by
    cases e.reset <;> cases e.compressed <;> decide
  rw [bits.1, bits.2]

end Sys2Proof.Machine
end

section
/-!
SUPPORT. A record packed into the FILLING slot (R22 to R29): what the Record Compressor's steps place of a record that is all in its lookahead.
-/
namespace Sys2Proof.Machine
open Sys2Proof.Laws

/-! ### A record in packing -/

/-- The state `a` with the record in its lookahead encoded up to host position `i`, but for a pending run: its segment, and what is placed. -/
def State.packing (a : State) (older : List Slot) (x : Slot) (data : List Byte) (packed : Bool) (i : Nat) (run : List Byte) (stored : Nat)
    (dram : Memory) (payload : Option Nat) : State :=
  { a with
    dbm := { a.dbm with slots := older ++ [{ x with payload := payload }], dram := dram }
    rc := { a.rc with
      history := joinHistory a.rc.history (data.take i), sinceReset := a.rc.sinceReset + i, lookahead := data.drop i, run := run
      segment := some { start := x.payload.getD 0, bytes := data.take (i - run.length), stored := stored, compressed := packed,
                        reset := a.rc.resetOwed } } }

/-- The bytes `body` are placed for the host bytes before the pending run. -/
structure Packs (a : State) (older : List Slot) (x : Slot) (data : List Byte) (most : Nat) (packed : Bool) (s : State) (i : Nat)
    (run body : List Byte) : Prop where
  state : ∃ (dram : Memory) (payload : Option Nat), s = a.packing older x data packed i run body.length dram payload
    ∧ payload.getD 0 = x.payload.getD 0 + body.length ∧ (body ≠ [] → payload.isSome = true)
    ∧ Written a.dbm.dram dram (a.dbm.base older.length + x.payload.getD 0) most body
  within : i ≤ data.length
  pending : run.length ≤ i
  run : run = (data.drop (i - run.length)).take run.length

/-- The slot takes the most that the record may need, and an entry for it. -/
structure Roomy (x : Slot) (most : Nat) : Prop where
  filling : x.state = .filling
  fits : x.payload.getD 0 + most + 16 * (x.entries.getD 0 + 1) ≤ 1966016

section
variable {a s : State} {older : List Slot} {x : Slot} {data : List Byte} {most i : Nat} {packed : Bool} {run body : List Byte} {ts : List Token}

theorem take_append_drop_take (data : List Byte) (i l : Nat) : data.take i ++ (data.drop i).take l = data.take (i + l) := List.take_add.symm

theorem Roomy.packing_filling (roomy : Roomy x most) (stored : Nat) (dram : Memory) (payload : Option Nat) :
    (a.packing older x data packed i run stored dram payload).dbm.filling = some (older.length, { x with payload := payload }) :=
  filling_of_concat rfl roomy.filling

/-- What is left of the room. -/
theorem Roomy.room (roomy : Roomy x most) {payload : Option Nat} {n : Nat} (placed : payload.getD 0 = x.payload.getD 0 + n) :
    most - n ≤ Slot.room { x with payload := payload } := by
  have fits := roomy.fits
  show most - n ≤ Config.indexTop - 16 * (x.entries.getD 0 + 1) - payload.getD 0
  rw [placed, Config.indexTop]
  omega

/-- Bytes placed in the slot, their host bytes in the segment (R27). -/
theorem Roomy.placeBytes_packing (roomy : Roomy x most) (stored : Nat) (dram : Memory) (payload : Option Nat) (bs host : List Byte) :
    (a.packing older x data packed i run stored dram payload).placeBytes bs host =
      (a.packing older x data packed i run (stored + bs.length) (dram.writeBytes (a.dbm.base older.length + payload.getD 0) bs)
        (some (payload.getD 0 + bs.length))).onRc (fun r => { r with segment := r.segment.map (fun g => { g with bytes := g.bytes ++ host }) }) := by
  unfold State.placeBytes
  rw [roomy.packing_filling]
  dsimp only
  simp only [State.packing, State.onDbm, State.onRc, Dbm.setSlot, Dbm.onDram, modify_concat, Option.map_some]
  rfl

/-- A token or raw bytes for the bytes ahead, no run pending. -/
theorem Packs.place (h : Packs a older x data most packed s i [] body) (roomy : Roomy x most) {bs : List Byte} (fits : body.length + bs.length ≤ most)
    {l : Nat} (ahead : i + l ≤ data.length) :
    Packs a older x data most packed ((s.placeBytes bs (s.rc.lookahead.take l)).onRc (·.encoded l)) (i + l) [] (body ++ bs) := by
  obtain ⟨dram, payload, rfl, placed, _, written⟩ := h.state
  refine ⟨⟨_, some (payload.getD 0 + bs.length), ?_, ?_, fun _ => rfl, written.append fits⟩, ahead, by simp, by simp⟩
  · rw [roomy.placeBytes_packing, placed, ← Nat.add_assoc]
    simp only [State.packing, State.onRc, Rc.encoded, Option.map_some, joinHistory_join, List.drop_drop, take_append_drop_take, Nat.add_assoc,
      List.length_append, List.length_nil, Nat.sub_zero]
  · rw [Option.getD_some, placed, List.length_append, Nat.add_assoc]

/-- The pending run placed (R25). -/
theorem Packs.flush (h : Packs a older x data most packed s i run body) (roomy : Roomy x most) (some_ : run ≠ [])
    (fits : body.length + run.length + 1 ≤ most) : ∃ t, s.flushRun = (t, true)
      ∧ Packs a older x data most packed t i [] (body ++ literalToken run) := by
  obtain ⟨dram, payload, rfl, placed, _, written⟩ := h.state
  have room := roomy.room placed
  have length : (literalToken run).length = run.length + 1 := rfl
  have covered : data.take (i - run.length) ++ run = data.take i := by
    rw (occs := .pos [2]) [h.run]
    rw [take_append_drop_take, Nat.sub_add_cancel h.pending]
  refine ⟨((a.packing older x data packed i run body.length dram payload).placeBytes (literalToken run) run).onRc (fun r => { r with run := [] }), ?_,
    ⟨_, some (payload.getD 0 + (literalToken run).length), ?_, ?_, fun _ => rfl, written.append (by omega)⟩, h.within, by simp, by simp⟩
  · unfold State.flushRun
    rw [roomy.packing_filling]
    dsimp only
    rw [if_neg (by simpa [State.packing] using some_), if_pos (by simp only [State.packing]; omega)]
    rfl
  · rw [roomy.placeBytes_packing, placed, ← Nat.add_assoc]
    simp only [State.packing, State.onRc, Option.map_some, covered, List.length_append, List.length_nil, Nat.sub_zero]
  · rw [Option.getD_some, placed, List.length_append, Nat.add_assoc]

/-- No run pending: nothing to flush. -/
theorem Packs.flush_nil (h : Packs a older x data most packed s i [] body) (roomy : Roomy x most) : s.flushRun = (s, true) := by
  obtain ⟨dram, payload, rfl, _⟩ := h.state
  unfold State.flushRun
  rw [roomy.packing_filling]
  rfl

/-- A byte joins the pending run (R25). -/
theorem Packs.literal (h : Packs a older x data most packed s i run body) (ahead : i < data.length) :
    Packs a older x data most packed (s.onRc (fun r => ({ r with run := r.run ++ r.lookahead.take 1 } : Rc).encoded 1)) (i + 1)
      (run ++ (data.drop i).take 1) body := by
  obtain ⟨dram, payload, rfl, placed, there, written⟩ := h.state
  have one : ((data.drop i).take 1).length = 1 := by rw [List.length_take, List.length_drop]; omega
  have longer : (run ++ (data.drop i).take 1).length = run.length + 1 := by rw [List.length_append, one]
  have pending := h.pending
  refine ⟨⟨dram, payload, ?_, placed, there, written⟩, ahead, by omega, ?_⟩
  · simp only [State.packing, State.onRc, Rc.encoded, joinHistory_join, List.drop_drop, take_append_drop_take, longer, Nat.add_assoc,
      Nat.add_sub_add_right]
  · rw [longer, Nat.add_sub_add_right, ← take_append_drop_take, ← h.run, List.drop_drop, Nat.sub_add_cancel pending]

/-! ### One encoding decision -/

/-- In a record in packing the segment is open and the slot there. -/
theorem Packs.fields (h : Packs a older x data most packed s i run body) (roomy : Roomy x most) :
    s.rc.segment = some { start := x.payload.getD 0, bytes := data.take (i - run.length), stored := body.length, compressed := packed,
                          reset := a.rc.resetOwed }
      ∧ s.rc.history = joinHistory a.rc.history (data.take i) ∧ s.rc.sinceReset = a.rc.sinceReset + i ∧ s.rc.lookahead = data.drop i
      ∧ s.rc.run = run ∧ s.rc.record = a.rc.record ∧ s.dbm.direction = a.dbm.direction
      ∧ ∃ y : Slot, s.dbm.filling = some (older.length, y) ∧ most - body.length ≤ y.room := by
  obtain ⟨dram, payload, rfl, placed, _⟩ := h.state
  have room := roomy.room placed
  refine ⟨rfl, ?_, rfl, rfl, rfl, ?_, rfl, { x with payload := payload }, roomy.packing_filling _ _ _, room⟩
  · simp only [State.packing]
  · simp only [State.packing]

theorem openSegment_of_open {g : Segment} (segment : s.rc.segment = some g) : s.openSegment = s := by
  rw [State.openSegment, segment]
  rfl

/-- Raw storage places the byte ahead as it is (R29). -/
theorem Packs.encodeOne_raw (h : Packs a older x data most false s i [] body) (roomy : Roomy x most) (ahead : i < data.length)
    (fits : body.length + 1 ≤ most) : Packs a older x data most false s.encodeOne (i + 1) [] (body ++ (data.drop i).take 1) := by
  obtain ⟨segment, _, _, lookahead, _, _, _, y, filling, room⟩ := h.fields roomy
  have one : ((data.drop i).take 1).length = 1 := by rw [List.length_take, List.length_drop]; omega
  have placed := h.place roomy (bs := (data.drop i).take 1) (by omega) (l := 1) ahead
  have step : s.encodeOne = (s.placeBytes (s.rc.lookahead.take 1) (s.rc.lookahead.take 1)).onRc (·.encoded 1) := by
    unfold State.encodeOne
    rw [openSegment_of_open segment]
    dsimp only
    rw [segment, filling]
    dsimp only
    rw [if_neg (by simp), if_neg (by omega)]
  rw [step]
  rw [lookahead] at placed ⊢
  exact placed

/-- Where no copy is found the byte ahead joins the run, which is placed at 128 bytes (R24, R25). -/
theorem encodeOne_literal (h : Packs a older x data most true s i run body) (roomy : Roomy x most)
    (none_ : longestCopy s.rc.history s.rc.sinceReset s.rc.lookahead = none) : s.encodeOne =
      let t := s.onRc (fun r => ({ r with run := r.run ++ r.lookahead.take 1 } : Rc).encoded 1)
      if t.rc.run.length < 128 then t else if t.flushRun.2 then t.flushRun.1 else t.flushRun.1.cutSegment := by
  obtain ⟨segment, _, _, _, _, _, _, y, filling, _⟩ := h.fields roomy
  unfold State.encodeOne
  rw [openSegment_of_open segment]
  dsimp only
  rw [segment, filling]
  dsimp only
  rw [if_pos rfl, none_]

/-- A copy found is placed behind the pending run (R24, R25). -/
theorem encodeOne_copy (h : Packs a older x data most true s i run body) (roomy : Roomy x most) {l d : Nat}
    (found : longestCopy s.rc.history s.rc.sinceReset s.rc.lookahead = some (l, d)) {t : State} (flushed : s.flushRun = (t, true)) {z : Slot} {n : Nat}
    (there : t.dbm.filling = some (n, z)) (room : 2 ≤ z.room) :
    s.encodeOne = (t.placeBytes (copyToken l d) (t.rc.lookahead.take l)).onRc (·.encoded l) := by
  obtain ⟨segment, _, _, _, _, _, _, y, filling, _⟩ := h.fields roomy
  unfold State.encodeOne
  rw [openSegment_of_open segment]
  dsimp only
  rw [segment, filling]
  dsimp only
  rw [if_pos rfl, found]
  dsimp only
  rw [flushed]
  dsimp only
  rw [if_neg (by simp), there]
  dsimp only
  rw [if_pos room]

/-! ### The tokens of a compressed record -/

/-- A compressed record in packing: its tokens, and a pending run of bytes at which no copy was found. -/
structure Compresses (a : State) (older : List Slot) (x : Slot) (data : List Byte) (most : Nat) (s : State) (i : Nat) (run : List Byte)
    (ts : List Token) : Prop where
  packs : Packs a older x data most true s i run (ts.flatMap Token.bytes)
  greedy : Greedy a.rc.history a.rc.sinceReset data (i - run.length) ts
  closed : RunClosed ts
  short : run.length ≤ 128
  unmatched : ∀ k l d : Nat, k < run.length → ¬ CopyAt a.rc.history a.rc.sinceReset data (i - run.length + k) l d
  bound : 128 * (ts.flatMap Token.bytes).length ≤ 129 * (i - run.length)

/-- The tokens with the pending run behind them. -/
def withRun (ts : List Token) (run : List Byte) : List Token := if run = [] then ts else ts ++ [.literal run]

theorem withRun_length (ts : List Token) (run : List Byte) :
    ((withRun ts run).flatMap Token.bytes).length = (ts.flatMap Token.bytes).length + (if run = [] then 0 else run.length + 1) := by
  unfold withRun
  split
  · rfl
  · simp [Token.bytes, literalToken]

/-- The pending run placed as a token. -/
theorem Compresses.flush (h : Compresses a older x data most s i run ts) (roomy : Roomy x most)
    (enough : data.length + data.length / 128 + 1 ≤ most) : ∃ t : State, s.flushRun = (t, true)
      ∧ Packs a older x data most true t i [] ((withRun ts run).flatMap Token.bytes)
      ∧ Greedy a.rc.history a.rc.sinceReset data i (withRun ts run) := by
  obtain ⟨packs, greedy, closed, short, unmatched, bound⟩ := h
  by_cases none_ : run = []
  · subst none_
    refine ⟨s, packs.flush_nil roomy, ?_, ?_⟩
    · exact packs
    · exact greedy
  · have within := packs.within
    have pending := packs.pending
    have positive := List.length_pos_iff.mpr none_
    obtain ⟨t, flushed, placed⟩ := packs.flush roomy none_ (by omega)
    have more := greedy.literal closed positive short packs.run unmatched
    rw [Nat.sub_add_cancel pending] at more
    refine ⟨t, flushed, ?_, ?_⟩
    · rw [withRun, if_neg none_, List.flatMap_append, List.flatMap_singleton]
      exact placed
    · rw [withRun, if_neg none_]
      exact more

/-- Each decision encodes a byte or more, with less than a whole run pending (R24, R25). -/
theorem Compresses.encodeOne (h : Compresses a older x data most s i run ts) (less : run.length < 128) (roomy : Roomy x most)
    (enough : data.length + data.length / 128 + 1 ≤ most) (reach : a.rc.history.length = min 2048 a.rc.sinceReset) (ahead : i < data.length) :
    ∃ (j : Nat) (run' : List Byte) (ts' : List Token), i < j ∧ run'.length < 128 ∧ Compresses a older x data most s.encodeOne j run' ts' := by
  obtain ⟨_, history, since, lookahead, run_, _, _, _⟩ := h.packs.fields roomy
  have within := h.packs.within
  have pending := h.packs.pending
  have bound := h.bound
  have best := longestCopy_best reach within
  rw [← history, ← since, ← lookahead] at best
  cases found : longestCopy s.rc.history s.rc.sinceReset s.rc.lookahead with
  | none =>
    rw [found] at best
    obtain ⟨run', hrun⟩ : ∃ run', run' = run ++ (data.drop i).take 1 := ⟨_, rfl⟩
    have one : ((data.drop i).take 1).length = 1 := by rw [List.length_take, List.length_drop]; omega
    have longer : run'.length = run.length + 1 := by rw [hrun, List.length_append, one]
    have covered : i + 1 - run'.length = i - run.length := by omega
    have next : Compresses a older x data most (s.onRc (fun r => ({ r with run := r.run ++ r.lookahead.take 1 } : Rc).encoded 1)) (i + 1) run' ts := by
      refine ⟨hrun ▸ h.packs.literal ahead, by rw [covered]; exact h.greedy, h.closed, by omega, fun k l d lt => ?_, by rw [covered]; exact bound⟩
      rw [covered]
      rcases Nat.lt_or_ge k run.length with earlier | last
      · exact h.unmatched k l d earlier
      · rw [show i - run.length + k = i by omega]
        exact best l d
    have step := encodeOne_literal h.packs roomy found
    dsimp only at step
    have length : (s.onRc (fun r => ({ r with run := r.run ++ r.lookahead.take 1 } : Rc).encoded 1)).rc.run = run' := by
      obtain ⟨_, _, _, _, now, _⟩ := next.packs.fields roomy
      exact now
    rw [length] at step
    rcases Nat.lt_or_ge run'.length 128 with below | full
    · rw [if_pos below] at step
      exact ⟨i + 1, run', ts, by omega, below, step ▸ next⟩
    · obtain ⟨t, flushed, placed, more⟩ := next.flush roomy enough
      rw [if_neg (by omega), flushed, if_pos rfl] at step
      have some_ : run' ≠ [] := List.length_pos_iff.mp (by omega)
      have count := withRun_length ts run'
      rw [if_neg some_] at count
      refine ⟨i + 1, [], withRun ts run', by omega, by simp, step ▸ placed, more, fun bs last => ?_, by simp, fun k _ _ lt => absurd lt (by simp),
        ?_⟩
      · rw [withRun, if_neg some_, List.getLast?_concat] at last
        obtain rfl := Token.literal.inj (Option.some.inj last)
        omega
      · rw [count, List.length_nil]
        omega
  | some pair =>
    obtain ⟨l, d⟩ := pair
    rw [found] at best
    obtain ⟨copy, longest⟩ := best
    obtain ⟨long, _, _, _, _, fits, _⟩ := id copy
    obtain ⟨t, flushed, placed, more⟩ := h.flush roomy enough
    obtain ⟨_, _, _, _, _, _, _, z, there, room⟩ := placed.fields roomy
    have count := withRun_length ts run
    have two : (copyToken l d).length = 2 := rfl
    have most_ : ((withRun ts run).flatMap Token.bytes).length + 2 ≤ most
        ∧ 128 * (((withRun ts run).flatMap Token.bytes).length + 2) ≤ 129 * (i + l) := by
      rw [count]
      split
      · next none_ =>
        rw [none_, List.length_nil] at bound
        omega
      · omega
    have step := encodeOne_copy h.packs roomy found flushed there (by omega)
    refine ⟨i + l, [], withRun ts run ++ [.copy l d], by omega, by simp, ?_, more.copy copy longest, fun bs last => ?_, by simp,
      fun k _ _ lt => absurd lt (by simp), ?_⟩
    · rw [step, List.flatMap_append, List.flatMap_singleton]
      exact placed.place roomy (by omega) fits
    · rw [List.getLast?_concat] at last
      cases last
    · rw [List.flatMap_append, List.flatMap_singleton, List.length_append]
      exact most_.2

end

end Sys2Proof.Machine
end

section
/-!
SUPPORT. A whole record taken from one packet (R22 to R32): the Record Compressor runs to its end, and closes it with a WHOLE entry.
-/
namespace Sys2Proof.Machine
open Sys2Proof.Laws

/-! ### The run over a record -/

theorem rcStep_next {s : State} {r : RecordIn} (record : s.rc.record = some r) (final : r.final = true) (some_ : s.rc.lookahead ≠ [])
    (ensured : s.ensureFilling = some s) : s.rcStep = some s.encodeOne := by
  unfold State.rcStep
  rw [record]
  dsimp only
  rw [if_neg (by simpa using some_), if_pos (by simp [final]), ensured]
  rfl

theorem rcStep_last {s : State} {r : RecordIn} (record : s.rc.record = some r) (final : r.final = true) (none_ : s.rc.lookahead = [])
    (segment : s.rc.segment.isSome = true) : s.rcStep = some s.closeRecord := by
  unfold State.rcStep
  rw [record]
  dsimp only
  rw [if_pos (by simp [none_]), if_pos (by simp [final, segment])]

theorem rcRun_of_stays {s : State} (stays : s.rcStep = none) (k : Nat) : State.rcRun k s = s := by
  cases k with
  | zero => rfl
  | succ k => rw [State.rcRun, stays]

/-- A record in packing, decision by decision, to its close. -/
theorem rcRun_closes {Q : State → Nat → Prop} {n : Nat} (next : ∀ s i, Q s i → i < n → s.rcStep = some s.encodeOne)
    (step : ∀ s i, Q s i → i < n → ∃ j, i < j ∧ Q s.encodeOne j) (le : ∀ s i, Q s i → i ≤ n)
    (last : ∀ s, Q s n → s.rcStep = some s.closeRecord) (closed : ∀ s, Q s n → s.closeRecord.rcStep = none) (k : Nat) :
    ∀ (s : State) (i : Nat), Q s i → n - i < k → ∃ t, Q t n ∧ State.rcRun k s = t.closeRecord := by
  induction k with
  | zero => intro s i _ lt; omega
  | succ k ih =>
    intro s i at_ enough
    rcases Nat.lt_or_ge i n with ahead | done
    · obtain ⟨j, further, there⟩ := step s i at_ ahead
      obtain ⟨t, ends, run⟩ := ih s.encodeOne j there (by omega)
      exact ⟨t, ends, by rw [State.rcRun, next s i at_ ahead]; exact run⟩
    · obtain rfl : i = n := Nat.le_antisymm (le s i at_) done
      refine ⟨s, at_, ?_⟩
      rw [State.rcRun, last s at_]
      exact rcRun_of_stays (closed s at_) k

/-- The state a record is packed in from: it is all in the lookahead, with its final packet taken. -/
structure Whole (a : State) (older : List Slot) (x : Slot) (data : List Byte) (r : RecordIn) (most : Nat) : Prop where
  slots : a.dbm.slots = older ++ [x]
  direction : a.dbm.direction = .write
  record : a.rc.record = some r
  final : r.final = true
  first : r.earlier = false
  segment : a.rc.segment = none
  run : a.rc.run = []
  lookahead : a.rc.lookahead = data
  some_ : 1 ≤ data.length
  reach : a.rc.history.length = min 2048 a.rc.sinceReset
  wf : a.dbm.dram.wf = true
  roomy : Roomy x most
  enough : data.length + data.length / 128 + 1 ≤ most

section
variable {a s : State} {older : List Slot} {x : Slot} {data : List Byte} {r : RecordIn} {most i : Nat} {packed : Bool} {run body : List Byte}

theorem Packs.ensureFilling (h : Packs a older x data most packed s i run body) (whole : Whole a older x data r most) :
    s.ensureFilling = some s := by
  obtain ⟨_, _, _, _, _, _, direction, y, filling, _⟩ := h.fields whole.roomy
  rw [State.ensureFilling, if_neg (by simp [direction, whole.direction]), if_pos (by simp [filling])]

theorem Packs.next (h : Packs a older x data most packed s i run body) (whole : Whole a older x data r most) (ahead : i < data.length) :
    s.rcStep = some s.encodeOne := by
  obtain ⟨_, _, _, lookahead, _, record, _, _⟩ := h.fields whole.roomy
  exact rcStep_next (record.trans whole.record) whole.final (by rw [lookahead]; simpa using ahead) (h.ensureFilling whole)

theorem Packs.last (h : Packs a older x data most packed s data.length run body) (whole : Whole a older x data r most) :
    s.rcStep = some s.closeRecord := by
  obtain ⟨segment, _, _, lookahead, _, record, _, _⟩ := h.fields whole.roomy
  exact rcStep_last (record.trans whole.record) whole.final (by rw [lookahead, List.drop_length]) (by rw [segment]; rfl)

/-- The segment opened at the record's first byte (R21, R29). -/
theorem Whole.opens (whole : Whole a older x data r most) : Packs a older x data most a.compressOn a.openSegment 0 [] [] := by
  have reach := whole.reach
  have opened : a.openSegment = a.packing older x data a.compressOn 0 [] 0 a.dbm.dram x.payload := by
    have kept : joinHistory a.rc.history (data.take 0) = a.rc.history := joinHistory_nil (by omega)
    have filling := filling_of_concat whole.slots whole.roomy.filling
    unfold State.openSegment State.packing
    rw [if_neg (by simp [whole.segment]), filling, kept]
    simp only [State.onRc, List.drop_zero, Nat.add_zero, Nat.zero_sub, List.take_zero, ← whole.slots, ← whole.run,
      ← whole.lookahead]
  exact ⟨⟨_, _, opened, rfl, fun e => absurd rfl e, Written.nil whole.wf _ _⟩, Nat.zero_le _, Nat.le_refl _, rfl⟩

theorem Whole.run_opens (whole : Whole a older x data r most) (k : Nat) : State.rcRun (k + 1) a = State.rcRun (k + 1) a.openSegment := by
  have again : a.openSegment.openSegment = a.openSegment := by
    obtain ⟨segment, _⟩ := whole.opens.fields whole.roomy
    exact openSegment_of_open segment
  have same : a.openSegment.encodeOne = a.encodeOne := by
    unfold State.encodeOne
    rw [again]
  have filling := filling_of_concat whole.slots whole.roomy.filling
  have ensured : a.ensureFilling = some a := by
    rw [State.ensureFilling, if_neg (by simp [whole.direction]), if_pos (by simp [filling])]
  have some_ : a.rc.lookahead ≠ [] := by
    rw [whole.lookahead]
    exact List.length_pos_iff.mp whole.some_
  rw [State.rcRun, State.rcRun, rcStep_next whole.record whole.final some_ ensured, whole.opens.next whole whole.some_, same]

/-! ### The record closed -/

/-- A compressed form that did not shrink is replaced by the host bytes (R29). -/
theorem Packs.rawFallback (h : Packs a older x data most packed s data.length [] body) (whole : Whole a older x data r most) :
    ∃ (body' : List Byte) (packed' : Bool), Packs a older x data most packed' s.rawFallback data.length [] body'
      ∧ (if packed = true ∧ data.length ≤ body.length then body' = data ∧ packed' = false else body' = body ∧ packed' = packed) := by
  obtain ⟨dram, payload, e, placed, there, written⟩ := h.state
  obtain ⟨segment, _, _, _, _, _, _, y, filling, _⟩ := h.fields whole.roomy
  have host : data.take (data.length - ([] : List Byte).length) = data := List.take_length
  rw [host] at segment
  have step : s.rawFallback = if packed = true ∧ data.length ≤ body.length
      then (s.onDbm (fun d => (d.setSlot older.length (fun y => { y with payload := some (x.payload.getD 0 + data.length) })).onDram
          (·.writeBytes (s.dbm.base older.length + x.payload.getD 0) data))).onRc
          (fun rc => { rc with segment := some ⟨x.payload.getD 0, data, data.length, false, a.rc.resetOwed⟩ })
      else s := by
    unfold State.rawFallback
    rw [segment, filling]
  have enough := whole.enough
  by_cases grown : packed = true ∧ data.length ≤ body.length
  · refine ⟨data, false, ⟨⟨_, some (x.payload.getD 0 + data.length), ?_, rfl, fun _ => rfl, written.over (by omega)⟩, Nat.le_refl _, Nat.zero_le _,
      rfl⟩, by rw [if_pos grown]; exact ⟨rfl, rfl⟩⟩
    rw [step, if_pos grown, e]
    simp only [State.packing, State.onDbm, State.onRc, Dbm.setSlot, Dbm.onDram, modify_concat, host]
    rfl
  · refine ⟨body, packed, ?_, by rw [if_neg grown]; exact ⟨rfl, rfl⟩⟩
    rw [step, if_neg grown]
    exact h

/-- The WHOLE entry a record is closed with (R30, R31). -/
def wholeEntry (a : State) (r : RecordIn) (data body : List Byte) (packed : Bool) : IndexEntry :=
  { kind := .whole, reset := a.rc.resetOwed, compressed := packed, host := data.length, stored := body.length, check := ~~~r.acc }

/-- The slot with a record in it more, of so many stored bytes. -/
def Slot.recorded (x : Slot) (stored : Nat) : Slot :=
  { x with entries := some (x.entries.getD 0 + 1), payload := some (x.payload.getD 0 + stored), objects := x.objects + 1 }

/-- The record closed: its bytes and its entry placed, and nothing else of the DRAM changed (R27, R29 to R31, R104). -/
structure Closed (a u : State) (older : List Slot) (x : Slot) (data : List Byte) (r : RecordIn) (most : Nat) (body : List Byte) (packed : Bool) :
    Prop where
  state : ∃ dram : Memory, u = { a with
      dbm := { a.dbm with
        slots := older ++ [x.recorded body.length]
        dram := dram }
      rc := { a.rc with
        history := joinHistory a.rc.history data, sinceReset := a.rc.sinceReset + data.length, lookahead := [], run := [], record := none,
        segment := none, resetOwed := false, s := a.rc.s + body.length }
      pu := { a.pu with object := a.pu.object + 1, anchor := none } }
    ∧ dram.readBytes (a.dbm.base older.length + x.payload.getD 0) body.length = body
    ∧ dram.entry (a.dbm.base older.length) (x.entries.getD 0) = wholeEntry a r data body packed
    ∧ (∀ k : Nat, (k < a.dbm.base older.length + x.payload.getD 0
        ∨ (a.dbm.base older.length + x.payload.getD 0 + most ≤ k ∧ k < a.dbm.base older.length + 1966016 - 16 * (x.entries.getD 0 + 1))
        ∨ a.dbm.base older.length + 1966016 - 16 * x.entries.getD 0 ≤ k) → dram.read k = a.dbm.dram.read k)

theorem closeRecord_eq {t : State} {g : Segment} (flushed : s.flushRun = (t, true)) (segment : t.rawFallback.rc.segment = some g)
    (record : t.rawFallback.rc.record = some r) (first : r.earlier = false) : s.closeRecord =
      ((t.rawFallback.putEntry { kind := .whole, reset := g.reset, compressed := g.compressed, host := g.bytes.length, stored := g.stored,
                                 check := ~~~r.acc }).onRc
        (fun rc => { rc with segment := none, record := none, s := rc.s + g.stored })).sealAtLimit.recordPlaced := by
  unfold State.closeRecord
  rw [flushed]
  dsimp only
  rw [if_neg (by simp), segment, record]
  dsimp only
  rw [if_neg (by simp [first])]

/-- The entry of a record put in its place. -/
theorem Packs.closes (h : Packs a older x data most packed s data.length [] body) (whole : Whole a older x data r most)
    (placed : body.length ≤ most) (some_ : body ≠ []) (short : data.length < 4294967296) (room : x.entries.getD 0 < 4095)
    (timer : a.dbm.sealTimer.isSome = true) :
    ∃ u : State, Closed a u older x data r most body packed ∧ ((s.putEntry (wholeEntry a r data body packed)).onRc
        (fun rc => { rc with segment := none, record := none, s := rc.s + body.length })).sealAtLimit = u := by
  obtain ⟨dram, payload, rfl, total, there, written⟩ := h.state
  obtain ⟨n, rfl⟩ := Option.isSome_iff_exists.mp (there some_)
  obtain rfl : n = x.payload.getD 0 + body.length := total
  have fits := whole.roomy.fits
  have below : entryOffset (x.entries.getD 0) = 1966016 - 16 * (x.entries.getD 0 + 1) := rfl
  have bytes := entry_bytes_length (wholeEntry a r data body packed)
  have placed_ := putEntry_eq (s := a.packing older x data packed data.length [] body.length dram (some (x.payload.getD 0 + body.length)))
    (e := wholeEntry a r data body packed) rfl whole.roomy.filling rfl
  have timer_ : (a.packing older x data packed data.length [] body.length dram (some (x.payload.getD 0 + body.length))).dbm.sealTimer.isSome = true :=
    timer
  rw [if_pos timer_] at placed_
  obtain ⟨u, hu⟩ : ∃ u, u = (State.putEntry (a.packing older x data packed data.length [] body.length dram (some (x.payload.getD 0 + body.length)))
    (wholeEntry a r data body packed)).onRc (fun rc => { rc with segment := none, record := none, s := rc.s + body.length }) := ⟨_, rfl⟩
  have state : u = { a with
      dbm := { a.dbm with
        slots := older ++ [x.recorded body.length]
        dram := dram.writeBytes (a.dbm.base older.length + entryOffset (x.entries.getD 0)) (wholeEntry a r data body packed).bytes }
      rc := { a.rc with
        history := joinHistory a.rc.history data, sinceReset := a.rc.sinceReset + data.length, lookahead := [], run := [], record := none,
        segment := none, resetOwed := false, s := a.rc.s + body.length }
      pu := { a.pu with object := a.pu.object + 1, anchor := none } } := by
    rw [hu, placed_]
    simp only [State.packing, State.onRc, List.take_length, List.drop_length]
    rfl
  refine ⟨u, ⟨_, state, written.elsewhere (by omega), entry_writeBytes written.wf _ _ short ?_, fun k out => ?_⟩, ?_⟩
  · show body.length < 4294967296
    omega
  · rw [read_writeBytes _ _ _ _ written.wf, if_neg (by omega)]
    exact written.others k (by omega)
  · rw [← hu]
    exact sealAtLimit_below (older := older) (x := x.recorded body.length) (by rw [state]) whole.roomy.filling
      (by simp only [Slot.recorded, Option.getD_some]; omega)

@[simp] theorem recordPlaced_rc (s : State) : s.recordPlaced.rc = s.rc := by
  unfold State.recordPlaced
  dsimp only
  split
  · split
    · rw [complete_rc]
      split
      · rfl
      · rw [raise_rc]
        rfl
    · rfl
  · rfl

/-- The record's close, its run placed: compressed where that shrank it, else raw. -/
theorem Packs.closeRecord {t : State} (h : Packs a older x data most packed t data.length [] body) (flushed : s.flushRun = (t, true))
    (whole : Whole a older x data r most) (placed : body.length ≤ most) (some_ : body ≠ []) (short : data.length < 4294967296)
    (room : x.entries.getD 0 < 4095) (timer : a.dbm.sealTimer.isSome = true) : ∃ (u : State) (body' : List Byte) (packed' : Bool),
      Closed a u older x data r most body' packed' ∧ s.closeRecord = u.recordPlaced
      ∧ (if packed = true ∧ data.length ≤ body.length then body' = data ∧ packed' = false else body' = body ∧ packed' = packed) := by
  obtain ⟨body', packed', back, which⟩ := h.rawFallback whole
  have enough := whole.enough
  have positive := whole.some_
  have fits : body'.length ≤ most ∧ body' ≠ [] := by
    split at which
    · rw [which.1]
      exact ⟨by omega, List.length_pos_iff.mp positive⟩
    · rw [which.1]
      exact ⟨placed, some_⟩
  obtain ⟨u, closed, step⟩ := back.closes whole fits.1 fits.2 short room timer
  obtain ⟨segment, _, _, _, _, record, _⟩ := back.fields whole.roomy
  have host : data.take (data.length - ([] : List Byte).length) = data := List.take_length
  rw [host] at segment
  refine ⟨u, body', packed', closed, ?_, which⟩
  rw [closeRecord_eq flushed segment (record.trans whole.record) whole.first, ← step]
  rfl

theorem Closed.stays {u : State} (h : Closed a u older x data r most body packed) : u.recordPlaced.rcStep = none := by
  obtain ⟨_, rfl, _⟩ := h.state
  rw [State.rcStep, recordPlaced_rc]

/-- A record stored raw (R29). -/
theorem Whole.packs_raw (whole : Whole a older x data r most) (off : a.compressOn = false) (short : data.length < 4294967296)
    (room : x.entries.getD 0 < 4095) (timer : a.dbm.sealTimer.isSome = true) {k : Nat} (fuel : data.length ≤ k) :
    ∃ u : State, Closed a u older x data r most data false ∧ State.rcRun (k + 1) a = u.recordPlaced := by
  have enough := whole.enough
  have opens := whole.opens
  rw [off] at opens
  have closes (s : State) (h : Packs a older x data most false s data.length [] (data.take data.length)) :
      ∃ u : State, Closed a u older x data r most data false ∧ s.closeRecord = u.recordPlaced := by
    rw [List.take_length] at h
    obtain ⟨u, body', packed', closed, step, which⟩ := h.closeRecord (h.flush_nil whole.roomy) whole (by omega)
      (List.length_pos_iff.mp whole.some_) short room timer
    rw [if_neg (by simp)] at which
    rw [which.1, which.2] at closed
    exact ⟨u, closed, step⟩
  obtain ⟨t, ends, run⟩ := rcRun_closes (Q := fun s i => Packs a older x data most false s i [] (data.take i)) (n := data.length)
    (fun s i h ahead => h.next whole ahead)
    (fun s i h ahead => ⟨i + 1, Nat.lt_succ_self i, by
      have placed := h.encodeOne_raw whole.roomy ahead (by rw [List.length_take]; omega)
      rwa [take_append_drop_take] at placed⟩)
    (fun s i h => h.within) (fun s h => h.last whole)
    (fun s h => by obtain ⟨u, closed, step⟩ := closes s h; rw [step]; exact closed.stays) (k + 1) a.openSegment 0 opens (by omega)
  obtain ⟨u, closed, step⟩ := closes t ends
  exact ⟨u, closed, by rw [whole.run_opens, run, step]⟩

theorem tokens_some {ts : List Token} {n : Nat} (length : (ts.map Token.hostLength).sum = n) (positive : 1 ≤ n) : ts.flatMap Token.bytes ≠ [] := by
  cases ts with
  | nil => simp at length; omega
  | cons t ts => cases t <;> simp [Token.bytes, literalToken, copyToken]

/-- A compressed record in packing up to a position, with less than a whole run pending. -/
def Compressing (a : State) (older : List Slot) (x : Slot) (data : List Byte) (most : Nat) (s : State) (i : Nat) : Prop :=
  ∃ (run : List Byte) (ts : List Token), run.length < 128 ∧ Compresses a older x data most s i run ts

/-- A record stored compressed, by the greedy tokens, where they are shorter than it (R24, R25, R29). -/
theorem Whole.packs_compressed (whole : Whole a older x data r most) (on : a.compressOn = true) (short : data.length < 4294967296)
    (room : x.entries.getD 0 < 4095) (timer : a.dbm.sealTimer.isSome = true) {k : Nat} (fuel : data.length ≤ k) :
    ∃ (u : State) (body : List Byte) (packed : Bool), Closed a u older x data r most body packed ∧ State.rcRun (k + 1) a = u.recordPlaced
      ∧ ∃ ts : List Token, GreedyTokens a.rc.history a.rc.sinceReset data ts
        ∧ if (ts.flatMap Token.bytes).length < data.length then body = ts.flatMap Token.bytes ∧ packed = true
          else body = data ∧ packed = false := by
  have enough := whole.enough
  have opens := whole.opens
  rw [on] at opens
  have closes (s : State) (h : Compressing a older x data most s data.length) : ∃ (u : State) (body : List Byte) (packed : Bool),
      Closed a u older x data r most body packed ∧ s.closeRecord = u.recordPlaced
      ∧ ∃ ts : List Token, GreedyTokens a.rc.history a.rc.sinceReset data ts
        ∧ if (ts.flatMap Token.bytes).length < data.length then body = ts.flatMap Token.bytes ∧ packed = true
          else body = data ∧ packed = false := by
    obtain ⟨run, ts, less, compresses⟩ := h
    obtain ⟨t, flushed, placed, greedy⟩ := compresses.flush whole.roomy enough
    have bound := compresses.bound
    have pending := compresses.packs.pending
    have count := withRun_length ts run
    have small : ((withRun ts run).flatMap Token.bytes).length ≤ most := by
      rw [count]
      split <;> omega
    obtain ⟨u, body, packed, closed, step, which⟩ := placed.closeRecord flushed whole small (tokens_some greedy.length whole.some_) short room timer
    refine ⟨u, body, packed, closed, step, withRun ts run, greedy.tokens, ?_⟩
    rcases Nat.lt_or_ge ((withRun ts run).flatMap Token.bytes).length data.length with shrank | grew
    · rw [if_neg (by omega)] at which
      rw [if_pos shrank]
      exact which
    · rw [if_pos ⟨rfl, grew⟩] at which
      rw [if_neg (by omega)]
      exact which
  have begins : Compressing a older x data most a.openSegment 0 :=
    ⟨[], [], by simp, opens, Greedy.nil, fun bs last => by simp at last, by simp, fun k _ _ lt => absurd lt (by simp), by simp⟩
  obtain ⟨t, ends, run⟩ := rcRun_closes (Q := Compressing a older x data most) (n := data.length)
    (fun s i ⟨_, _, _, h⟩ ahead => h.packs.next whole ahead)
    (fun s i ⟨_, _, less, h⟩ ahead => by
      obtain ⟨j, run', ts', further, less', next⟩ := h.encodeOne less whole.roomy enough whole.reach ahead
      exact ⟨j, further, run', ts', less', next⟩)
    (fun s i ⟨_, _, _, h⟩ => h.packs.within)
    (fun s ⟨_, _, _, h⟩ => h.packs.last whole)
    (fun s h => by
      obtain ⟨u, _, _, closed, step, _⟩ := closes s h
      rw [step]
      exact closed.stays) (k + 1) a.openSegment 0 begins (by omega)
  obtain ⟨u, body, packed, closed, step, tokens⟩ := closes t ends
  exact ⟨u, body, packed, closed, by rw [whole.run_opens, run, step], tokens⟩

end

end Sys2Proof.Machine
end

section
/-!
PROPERTY. The FILLING slot opened, filled and sealed (R5 to R7, R17, R21 to R32, R104).
-/
namespace Sys2Proof.Machine
open Sys2Proof.Laws

/-! ### The record counted (R32) -/

/-- An occurrence changes the event latches and what is sent. -/
theorem raise_frame (s : State) (ev : Event) : s.raise ev = { s with eu := (s.raise ev).eu, spu := (s.raise ev).spu } := by
  unfold State.raise State.when
  dsimp only
  split <;> rfl

section
variable {s : State} {q : Queued} {rest : List Queued} {n : Nat}

/-- A record that is not the last of its command. -/
theorem recordPlaced_goes_on (executing : s.executing = some (.wrec n)) (more : s.cu.count + 1 < n) :
    s.recordPlaced = { s with cu := { s.cu with count := s.cu.count + 1 } } := by
  have same : (s.onCu (fun c => { c with count := c.count + 1 })).executing = some (.wrec n) := executing
  unfold State.recordPlaced
  dsimp only
  rw [same]
  exact if_neg (show ¬ n ≤ s.cu.count + 1 by omega)

/-- The completion of a WRITE_RECORDS, its credits lapsed (R17, R32, R59). -/
theorem complete_wrec (queue : s.cu.queue = q :: rest) (begun : q.begun = true) (command : q.command = .wrec n) (code : Code) (res : Results) :
    s.complete code res = { s with
      spu := { s.spu with credits := 0, out := s.spu.out ++ [.resp q.tag (ascii 'W' 'R' 'E' 'C') (.done code
        { res with flags := if s.wf.earlyWarned.contains s.pu.partition then 1 else 0 } [])] }
      cu := { s.cu with queue := rest, progress := .none, count := 0, finals := 0 } } := by
  have flags : s.withEarlyFlag q res = { res with flags := if s.wf.earlyWarned.contains s.pu.partition then 1 else 0 } := by
    unfold State.withEarlyFlag
    rw [begun, command]
  unfold State.complete
  rw [queue]
  dsimp only
  rw [flags, command]
  rfl

/-- The staging places left over when the last record is placed, emptied with PROTOCOL_ERROR (R32). -/
def State.surplusEmptied (s : State) : State :=
  if s.dbm.staging.isEmpty then s else (s.onDbm (fun d => { d with staging := [] })).raise .protocolError

theorem surplusEmptied_eq (s : State) : ∃ (spu : Spu) (eu : Eu) (notes : List Packet),
    s.surplusEmptied = { s with spu := spu, eu := eu, dbm := { s.dbm with staging := [] } }
      ∧ spu.out = s.spu.out ++ notes ∧ (s.dbm.staging = [] → notes = [] ∧ eu = s.eu) ∧ (s.dbm.staging ≠ [] → eu.latches[25].set = true) := by
  unfold State.surplusEmptied
  by_cases empty : s.dbm.staging = []
  · refine ⟨s.spu, s.eu, [], ?_, (List.append_nil _).symm, fun _ => ⟨rfl, rfl⟩, fun some_ => absurd empty some_⟩
    rw [if_pos (by simp [empty]), ← empty]
  · obtain ⟨notes, out, _⟩ := raise_out (s.onDbm (fun d => { d with staging := [] })) .protocolError
    refine ⟨_, _, notes, (if_neg (by simpa using empty)).trans (raise_frame _ _), out, fun e => absurd e empty, fun _ => ?_⟩
    rw [raise_eu]
    exact occur_sets _ 25

/-- The last record of its command: GOOD, the credits lapsed, the places left over emptied with PROTOCOL_ERROR. -/
theorem recordPlaced_ends (queue : s.cu.queue = q :: rest) (begun : q.begun = true) (command : q.command = .wrec n) (last : n ≤ s.cu.count + 1) :
    ∃ (spu : Spu) (eu : Eu) (notes : List Packet), s.recordPlaced = { s with
        spu := spu, eu := eu, cu := { s.cu with queue := rest, progress := .none, count := 0, finals := 0 }, dbm := { s.dbm with staging := [] } }
      ∧ spu.credits = 0
      ∧ spu.out = s.spu.out ++ notes ++ [.resp q.tag (ascii 'W' 'R' 'E' 'C') (.done .good
          { count := s.cu.count + 1, flags := if s.wf.earlyWarned.contains s.pu.partition then 1 else 0 } [])]
      ∧ (s.dbm.staging = [] → notes = [] ∧ eu = s.eu) ∧ (s.dbm.staging ≠ [] → eu.latches[25].set = true) := by
  obtain ⟨c, hc⟩ : ∃ c, c = s.onCu (fun c => { c with count := c.count + 1 }) := ⟨_, rfl⟩
  have there : c.cu.queue = q :: rest := by rw [hc]; exact queue
  have executing : c.executing = some (.wrec n) := by rw [executing_of_begun there begun, command]
  have placed : s.recordPlaced = c.surplusEmptied.complete .good { count := c.surplusEmptied.cu.count } := by
    unfold State.recordPlaced State.surplusEmptied
    dsimp only
    rw [← hc, executing]
    dsimp only
    rw [if_pos (by rw [hc]; exact last)]
  obtain ⟨spu, eu, notes, emptied, out, none_, some_⟩ := surplusEmptied_eq c
  have ends := complete_wrec (s := c.surplusEmptied) (by rw [emptied]; exact there) begun command .good { count := c.surplusEmptied.cu.count }
  rw [emptied, hc] at ends
  rw [hc] at out none_ some_
  refine ⟨_, eu, notes, (placed.trans (by rw [emptied, hc]; exact ends)), rfl, ?_, none_, some_⟩
  show spu.out ++ _ = _
  rw [out]
  rfl

end

/-! ### The obligation -/

/-- Nothing follows where the write path is but the FILLING slot, or a span is written. -/
theorem advance_behind {s : State} {older : List Slot} {x : Slot} (slots : s.dbm.slots = older ++ [x]) (filling : x.state = .filling)
    (busy : older = [] ∨ s.wf.stage = .span) (waits : s.cu.progress.waitsForWriting = false) (other : s.cu.progress ≠ .filemarks) :
    s.advance = s := by
  refine advance_eq ?_ waits other
  rcases busy with none_ | span
  · simp [State.writesNext, slots, none_, filling]
  · exact writesNext_of_stage (by simp [span]) (by simp [span])

section
variable {s : State} {q : Queued} {rest : List Queued} {n : Nat} {p : Place} {ps : List Place}

theorem datasetNumber_of_le {d : Nat} (le : d ≤ 4294967295) : datasetNumber d = d := if_pos le

/-- On an empty write path the number is that after the last dataset of the EOD record (R5). -/
theorem nextDataset_empty {e : EodKnown} (empty : s.dbm.slots = []) (known : s.pu.eod.getD s.pu.partition none = some e)
    (less : ∀ d, e.last = some d → d < 4294967295) : s.nextDataset = (match e.last with | some d => d + 1 | none => 0) := by
  unfold State.nextDataset
  rw [empty, known]
  dsimp only [List.getLast?_nil]
  cases last : e.last with
  | none => rfl
  | some d => exact datasetNumber_of_le (less d last)

/-- The record a packet joins, when none is in progress. -/
theorem recordNow_none (record : s.rc.record = none) : s.recordNow = { object := s.pu.object, taken := 0, acc := crc32Start, earlier := false,
                                                                        final := false } := by
  rw [State.recordNow, record]
  rfl

/-- The one packet of a whole record, taken up: what the Record Compressor packs it from. -/
theorem taken_whole (h : Writes s q rest n p ps) {older : List Slot} {x : Slot} (slots : s.dbm.slots = older ++ [x]) (filling : x.state = .filling)
    (record : s.rc.record = none) (segment : s.rc.segment = none) (run : s.rc.run = []) (lookahead : s.rc.lookahead = [])
    (reach : s.rc.history.length = min 2048 s.rc.sinceReset) (final : p.final = true) (some_ : 1 ≤ p.data.length) (wf : s.dbm.dram.wf = true)
    (room : x.payload.getD 0 + (p.data.length + p.data.length / 128 + 1) + 16 * (x.entries.getD 0 + 1) ≤ 1966016) :
    Whole (s.taken p ps) older x p.data { object := s.pu.object, taken := p.data.length, acc := crc32Take crc32Start p.data, earlier := false,
                                          final := true } (p.data.length + p.data.length / 128 + 1) := by
  refine ⟨slots, h.direction, ?_, rfl, rfl, segment, run, ?_, some_, reach, wf, ⟨filling, room⟩, Nat.le_refl _⟩
  · simp only [State.taken, recordNow_none record, final, Nat.zero_add]
  · simp only [State.taken, lookahead, List.nil_append]

theorem grantCredits_idle {s : State} (other : s.cu.progress ≠ .writing) : s.grantCredits = s := by
  have none_ : s.grantable = 0 := if_neg (fun may => other may.2.1)
  rw [grantCredits_eq, none_, if_pos rfl]
  simp

/-- What a place taken leaves to follow is the grant of credits alone (R17). -/
theorem takes_no_more {s v : State} (takes : s.takeNext = v.grantCredits) {older : List Slot} {x : Slot} (slots : v.dbm.slots = older ++ [x])
    (filling : x.state = .filling) (busy : older = [] ∨ v.wf.stage = .span) (progress : v.cu.progress = .writing ∨ v.cu.progress = .none) :
    exec .stagingPlaceTaken s = .next v.grantCredits := by
  refine congrArg Host.Outcome.next ((congrArg State.advance takes).trans ?_)
  refine advance_behind (older := older) (x := x) (by rw [grantCredits_dbm]; exact slots) filling (by rw [grantCredits_wf]; exact busy) ?_ ?_
  · rcases progress with e | e <;> rw [grantCredits_cu, e] <;> rfl
  · rcases progress with e | e <;> rw [grantCredits_cu, e] <;> simp

/-- A whole record packed, raw or compressed as the partition stores it. -/
theorem Whole.packs {a : State} {older : List Slot} {x : Slot} {data : List Byte} {r : RecordIn} {most : Nat} (whole : Whole a older x data r most)
    (short : data.length < 4294967296) (room : x.entries.getD 0 < 4095) (timer : a.dbm.sealTimer.isSome = true) {k : Nat}
    (fuel : data.length ≤ k) : ∃ (u : State) (body : List Byte) (packed : Bool), Closed a u older x data r most body packed
      ∧ State.rcRun (k + 1) a = u.recordPlaced
      ∧ (a.compressOn = false → body = data ∧ packed = false)
      ∧ (a.compressOn = true → ∃ ts : List Token, GreedyTokens a.rc.history a.rc.sinceReset data ts
        ∧ if (ts.flatMap Token.bytes).length < data.length then body = ts.flatMap Token.bytes ∧ packed = true
          else body = data ∧ packed = false) := by
  cases setting : a.compressOn with
  | false =>
    obtain ⟨u, closed, ends⟩ := whole.packs_raw setting short room timer fuel
    exact ⟨u, data, false, closed, ends, fun _ => ⟨rfl, rfl⟩, fun on => (by cases on)⟩
  | true =>
    obtain ⟨u, body, packed, closed, ends, tokens⟩ := whole.packs_compressed setting short room timer fuel
    exact ⟨u, body, packed, closed, ends, fun off => (by cases off), fun _ => tokens⟩

end

/-- Settles O47: the seal (`sealNow_frees`, `sealNow_seals`), the slot opened (`opens_slot`), a packet taken (`takes_short`), a whole record packed and
closed (`Whole.packs_raw`, `Whole.packs_compressed`), and counted (`recordPlaced_goes_on`, `recordPlaced_ends`). -/
theorem fillingSlotOpenedFilledSealed : Obligations.FillingSlotOpenedFilledSealed := by
  refine ⟨?_, ?_⟩
  · intro s i x older slots filling span other segment wf cause base payload index granted
    have steps := seal_steps slots filling cause
    refine ⟨fun empty => ?_, fun some_ most fits => ?_⟩
    · have step := sealNow_frees slots filling segment empty
      rw [steps, advance_of_writing (by rw [step]; exact span) (by rw [step]; exact other)]
      exact congrArg Host.Outcome.next step
    · have step := sealNow_seals slots filling segment some_
      have padded := sealed_padded wf (s.dbm.base older.length) some_ fits
      generalize s.dbm.dram.sealed (s.dbm.base older.length) x = sealed_ at step padded
      rw [advance_of_writing (by rw [step]; exact span) (by rw [step]; exact other), step] at steps
      exact ⟨_, _, steps, rfl, padded.padding, padded.trailer, rfl, padded.others⟩
  · intro s q rest n p ps queue begun command progress direction more staging short
    have h : Writes s q rest n p ps := ⟨queue, begun, command, progress, direction, more, staging⟩
    refine ⟨?_, ?_⟩
    · intro fm record segment run lookahead free opens
      have small : s.oversize p = false := by
        rw [State.oversize, recordNow_none record]
        exact decide_eq_false (by simp only [Config.maxRecord]; omega)
      have room : s.rc.hasRoom p = true := by
        simp only [Rc.hasRoom, segment, run, lookahead, Option.map_none, Option.getD_none, List.length_nil, Config.maxRecord]
        exact decide_eq_true (by omega)
      have places : 0 < s.dbm.free := by simp only [Dbm.free, Config.slotCount]; omega
      refine ⟨fun e empty known counted less => ?_, fun x last open_ less counted idle resting => ?_⟩
      · have number : s.nextDataset = (match e.last with | some d => d + 1 | none => 0) := nextDataset_empty empty known less
        have before : s.filemarksBefore = fm := by
          rw [State.filemarksBefore, empty]
          simp only [List.getLast?_nil, State.filemarksAtEnd, counted, Option.getD_some]
        have filled := openFilling_eq (.inr counted)
        rw [number, before] at filled
        have step := opens_slot h (filling_eq_none (by simp [empty])) places small room record (.inr counted)
          (by rw [filled]; simp [State.writesNext, Dbm.opened, empty])
        rw [filled] at step
        exact ⟨_, step, rfl, rfl, rfl, rfl, rfl, rfl, rfl⟩
      · have number : s.nextDataset = x.dataset + 1 := by
          rw [State.nextDataset, last]
          exact datasetNumber_of_le (by omega)
        have before : s.filemarksBefore = fm := by rw [State.filemarksBefore, last, counted]
        have some_ : s.dbm.slots ≠ [] := by
          intro none_
          simp [none_] at last
        have filled := openFilling_eq (fm := fm) (.inl some_)
        rw [number, before] at filled
        have closed : s.dbm.filling = none := by
          unfold Dbm.filling
          rw [last]
          exact if_neg (by simpa using open_)
        have step := opens_slot h closed places small room record (fm := fm) (.inl some_)
          (writesNext_of_stage (by rw [filled]; exact idle) (by rw [filled]; exact resting))
        rw [filled] at step
        exact ⟨_, step, rfl, rfl, rfl, rfl, rfl, rfl, rfl⟩
    · intro x older slots filling busy
      refine ⟨?_, ?_⟩
      · intro r record open_ segment run ahead fits final
        have now : s.recordNow = r := by rw [State.recordNow, record]; rfl
        have room : s.rc.hasRoom p = true := by
          simp only [Rc.hasRoom, segment, run, Option.map_none, Option.getD_none, List.length_nil, Config.maxRecord]
          exact decide_eq_true (by omega)
        have step := takes_short h slots filling (by rw [now]; exact fits) room final ahead
        have taken := takes_no_more (older := older) (x := x) step slots filling busy (.inl progress)
        refine ⟨_, taken, ?_, grantCredits_dbm _, ?_, grantCredits_pu _, grantCredits_wf _, grantCredits_eu _⟩
        · rw [grantCredits_rc]
          simp only [State.taken, now, final, ← open_]
        · rw [grantCredits_cu]
          simp only [State.taken, final]
          rfl
      · intro record segment run lookahead reach final some_ limit wf base entries payload most room
        have fits : s.recordNow.taken + p.data.length ≤ 1048576 := by
          simp only [recordNow_none record]
          omega
        have holds : s.rc.hasRoom p = true := by
          simp only [Rc.hasRoom, segment, run, lookahead, Option.map_none, Option.getD_none, List.length_nil, Config.maxRecord]
          exact decide_eq_true (by omega)
        have whole := taken_whole h slots filling record segment run lookahead reach final some_ wf room
        obtain ⟨u, body, packed, closed, ends, off, on⟩ := whole.packs (k := 2 * p.data.length + 399) (by omega) limit rfl (by omega)
        have takes := takes_place h slots filling fits holds
        have fuel : (s.taken p ps).rcFuel = 2 * p.data.length + 399 + 1 := by
          simp only [State.rcFuel, State.taken, lookahead, List.nil_append]
        rw [fuel, ends] at takes
        obtain ⟨dram, state, read, entry, others⟩ := closed.state
        have rc : u.rc = { s.rc with
            history := (s.rc.history ++ p.data).drop ((s.rc.history ++ p.data).length - 2048), sinceReset := s.rc.sinceReset + p.data.length,
            resetOwed := false, h := s.rc.h + p.data.length, s := s.rc.s + body.length } := by
          rw [state]
          simp only [State.taken, joinHistory_eq, record, segment, run, lookahead]
        have executing : u.executing = some (.wrec n) := (executing_of_queue (by rw [state]; rfl)).trans h.executing
        have counted : u.cu.count = s.cu.count := by rw [state]; rfl
        rw [state] at rc
        rcases Nat.lt_or_ge (s.cu.count + 1) n with further | last
        · have placed := recordPlaced_goes_on executing (by rw [counted]; exact further)
          rw [placed, state] at takes
          have step := takes_no_more (older := older) (x := x.recorded body.length) takes rfl filling busy (.inl progress)
          rw [grantCredits_eq] at step
          refine ⟨_, body, packed, step, off, on, rfl, rfl, read, entry, others, rc, rfl, rfl, fun _ => ⟨?_, rfl, rfl⟩, fun ended => ?_⟩
          · simp only [State.taken, final]
            rfl
          · omega
        · obtain ⟨spu, eu, notes, placed, credits, out, none_, some_⟩ := recordPlaced_ends (s := u) (rest := rest) (by rw [state]; exact queue) begun
            command (by rw [counted]; exact last)
          rw [counted, state] at out
          rw [state] at none_ some_
          rw [placed, state] at takes
          have step := takes_no_more (older := older) (x := x.recorded body.length) takes rfl filling busy (.inr rfl)
          rw [grantCredits_idle (by simp)] at step
          refine ⟨_, body, packed, step, off, on, rfl, rfl, read, entry, others, rc, rfl, rfl, fun further => ?_, fun _ => ⟨rfl, rfl, credits,
            notes, out, none_, some_⟩⟩
          omega

end Sys2Proof.Machine
end

section
/-!
SUPPORT. The write path given up into the deferred write error record (R10, R55, R56), as a hard write error, a full volume and an emergency stop do.
-/
namespace Sys2Proof.Machine
open Sys2Proof.Laws

/-! ### The write path discarded -/

theorem sealSlot_dram_empty {s : State} (empty : ∀ i x, s.dbm.filling = some (i, x) → x.entries.getD 0 = 0) :
    s.sealSlot.dbm.dram = s.dbm.dram := by
  unfold State.sealSlot
  split
  · rfl
  · next i x e =>
    dsimp only
    rw [if_pos (empty i x e)]
    rfl

theorem recordBack_dram (s : State) : s.recordBack.dbm.dram = s.dbm.dram := by
  unfold State.recordBack State.segmentBack State.onFilling
  split
  · split <;> rfl
  · rfl

/-- A cut-back leaves the DRAM (R8). -/
theorem cutBack_dram (s : State) : s.cutBack.dbm.dram = s.dbm.dram := by
  have back := recordBack_dram s
  rw [cutBack_eq]
  split
  · next i x e =>
    split
    · next empty =>
      refine (sealSlot_dram_empty fun j y e' => ?_).trans back
      rw [e] at e'
      obtain ⟨_, rfl⟩ := Prod.mk.inj (Option.some.inj e')
      exact empty
    · split <;> exact back
  · exact back

/-- The slots of a write path are all of it, also after a cut-back. -/
theorem cutBack_path {s : State} (ring : s.dbm.RingSound) (direction : s.dbm.direction = .write) : ∀ x ∈ s.cutBack.dbm.slots, x.onWritePath = true :=
  ((Keeps.refl (q := false) (s := s)).cutBack.ring ring).onWritePath.1 ((Stores.cutBack s).direction.trans direction)

theorem find?_of_all {α : Type} {p : α → Bool} {xs : List α} (all : ∀ x ∈ xs, p x = true) : xs.find? p = xs.head? := by
  cases xs with
  | nil => rfl
  | cons x xs => exact List.find?_cons_of_pos (all x (by simp))

/-- The first object of the oldest slot of a write path, the position where there is none (R10). -/
def State.firstUnwritten (s : State) : Nat := ((s.dbm.slots.find? Slot.onWritePath).bind Slot.first).getD s.pu.object

/-- A write path discarded, but for its report (R10). -/
def State.pathDiscarded (s : State) (cause : DeferredCause) : State :=
  let d := if s.dbm.slots.any Slot.onWritePath then s.onDbm Dbm.discardAll else s
  ((d.onDbm (fun d => { d with sealTimer := none })).when (d.dbm.direction == .write) (·.setDirection .neutral)).setDeferred cause s.firstUnwritten
    s.dbm.writeObjects

theorem discardWrite_eq (s : State) (cause : DeferredCause) : s.discardWrite cause =
    ((s.cutBack.pathDiscarded cause).reportIfExecuting,
      ((s.cutBack.pathDiscarded cause).cu.deferred.map Deferred.first).getD s.cutBack.firstUnwritten) := by
  unfold State.discardWrite State.pathDiscarded State.firstUnwritten
  dsimp only
  cases s.cutBack.dbm.slots.find? Slot.onWritePath <;> rfl

/-- The path discarded into a record, but for its report: the record set or added to, the direction NEUTRAL (R10, R55). -/
structure GivenUp (s u : State) (d : Deferred) : Prop where
  rest : ∃ (dbm : Dbm) (rc : Rc), u = { s with dbm := dbm, rc := rc, sm := s.sm.halt, cu := { s.cu with deferred := some d } }
  direction : u.dbm.direction = .neutral
  timer : u.dbm.sealTimer = none
  dram : u.dbm.dram = s.dbm.dram

/-- The record a discard sets, of the slots that the cut-back leaves in the write path. -/
theorem pathDiscarded_gives_up {s : State} (direction : s.dbm.direction = .write) (cause : DeferredCause) :
    ∃ d : Deferred, GivenUp s (s.cutBack.pathDiscarded cause) d
      ∧ d = (match s.cu.deferred with
          | some e => { e with objects := min 4294967295 (e.objects + s.cutBack.dbm.writeObjects) }
          | none => { cause := cause, partition := s.pu.partition, first := s.cutBack.firstUnwritten, objects := s.cutBack.dbm.writeObjects })
      ∧ (s.cutBack.pathDiscarded cause).dbm.slots = if s.cutBack.dbm.slots.any Slot.onWritePath then [] else s.cutBack.dbm.slots := by
  obtain ⟨b, hb⟩ : ∃ b, b = s.cutBack := ⟨_, rfl⟩
  obtain ⟨dbm, rc, e⟩ := (Stores.cutBack s).rest
  have dram := cutBack_dram s
  have way := (Stores.cutBack s).direction.trans direction
  rw [← hb] at e dram way ⊢
  have emptied : ∃ d : Dbm, (if b.dbm.slots.any Slot.onWritePath then b.onDbm Dbm.discardAll else b) = { b with dbm := d }
      ∧ d.slots = (if b.dbm.slots.any Slot.onWritePath then [] else b.dbm.slots) ∧ d.direction = .write ∧ d.dram = s.dbm.dram := by
    split
    · exact ⟨b.dbm.discardAll, rfl, rfl, way, dram⟩
    · exact ⟨b.dbm, rfl, rfl, way, dram⟩
  obtain ⟨d, cleared, slots, way_, dram_⟩ := emptied
  obtain ⟨r, hr⟩ : ∃ r : Deferred, r = (match s.cu.deferred with
      | some e => { e with objects := min 4294967295 (e.objects + b.dbm.writeObjects) }
      | none => { cause := cause, partition := s.pu.partition, first := b.firstUnwritten, objects := b.dbm.writeObjects }) := ⟨_, rfl⟩
  have discarded : b.pathDiscarded cause = { s with dbm := { d with sealTimer := none, direction := .neutral }, rc := rc, sm := s.sm.halt,
                                                    cu := { s.cu with deferred := some r } } := by
    unfold State.pathDiscarded
    dsimp only
    rw [cleared]
    simp only [way_, State.onDbm, beq_self_eq_true, when_true, State.setDirection, State.setDeferred]
    rw [if_neg (by simp), hr]
    generalize b.firstUnwritten = first
    generalize b.dbm.writeObjects = objects
    rw [e]
    dsimp only [State.onSm, State.onCu]
    cases s.cu.deferred <;> rfl
  rw [discarded]
  exact ⟨r, ⟨⟨_, _, rfl⟩, rfl, rfl, dram_⟩, hr, slots⟩

theorem discardWrite_gives_up {s : State} (direction : s.dbm.direction = .write) (cause : DeferredCause) :
    ∃ (u : State) (d : Deferred), GivenUp s u d ∧ s.discardWrite cause = (u.reportIfExecuting, d.first)
      ∧ (s.dbm.RingSound → u.dbm.slots = [] ∧ d = s.deferredBy cause) := by
  obtain ⟨d, up, record, slots⟩ := pathDiscarded_gives_up direction cause
  refine ⟨_, d, up, ?_, fun ring => ?_⟩
  · obtain ⟨dbm, rc, e⟩ := up.rest
    rw [discardWrite_eq, e]
    rfl
  · have path := cutBack_path ring direction
    have objects : s.cutBack.dbm.writeObjects = (s.cutBack.dbm.slots.map Slot.objects).sum := by rw [Dbm.writeObjects, List.filter_eq_self.mpr path]
    have position : s.cutBack.pu = s.pu := by
      obtain ⟨dbm, rc, e⟩ := (Stores.cutBack s).rest
      rw [e]
    have first : s.cutBack.firstUnwritten = (s.cutBack.dbm.slots.head?.bind Slot.first).getD s.pu.object := by
      rw [State.firstUnwritten, find?_of_all path, position]
    refine ⟨slots.trans ?_, record.trans ?_⟩
    · cases h : s.cutBack.dbm.slots with
      | nil => rfl
      | cons x xs => exact if_pos (by simp [path x (by simp [h])])
    · rw [objects, first]
      unfold State.deferredBy
      cases s.cu.deferred <;> rfl

end Sys2Proof.Machine
end

section
/-!
SUPPORT. The stages of an emergency stop (R65, R138, R139): the tape cut off and the reels braked, the write side, the Reader, the position and the
volume.
-/
namespace Sys2Proof.Machine
open Sys2Proof.Laws

/-! ### The reels braked -/

theorem occur_other (e : Eu) {i j : Fin 32} (h : i ≠ j) : (e.occur i).latches[j] = e.latches[j] := by
  have ne : i.val ≠ j.val := fun e => h (Fin.ext e)
  unfold Eu.occur Eu.judge
  dsimp only
  split <;> simp [ne]

/-- The Reel and Threader Controller braked to rest with the cartridge FAULTED (R138). -/
def Rtc.braked (r : Rtc) : Rtc :=
  { r with motion := .settling, travel := none, settleTimer := some { elapsed := 0, period := 50 }, goal := .none, armed := false, faultTimer := none,
           threadTimer := none, tensionTimer := none, threader := .idle, cartridge := .faulted, phase := none }

/-- The tape cut off and braked: the reels, the servo, the window, the tape and TENSION_FAULT are all that changes (R138). -/
structure Braked (s b : State) : Prop where
  rest : ∃ (tape : List TapeWrite) (sm : Sm) (sv : Sv) (eu : Eu) (spu : Spu),
    b = { s with tape := tape, rtc := s.rtc.braked, sm := sm, sv := sv, eu := eu, spu := spu }
  halted : s.rtc.cartridge = .ready → b.sm.window = none ∧ b.sm.pending = none ∧ b.sm.scheduled = none
  timebase : b.sv.timebase = .off
  latched : b.eu.latches[22].set = true
  others : ∀ j : Fin 32, j ≠ 22 → b.eu.latches[j] = s.eu.latches[j]

theorem cutOff_rest (s : State) : ∃ tape : List TapeWrite, s.cutOff = { s with tape := tape } := by
  unfold State.cutOff
  split
  · exact ⟨_, rfl⟩
  · exact ⟨s.tape, rfl⟩

theorem setCartridge_rest (s : State) (c : Cartridge) (ph : Option Phase) : ∃ (sv : Sv) (sm : Sm),
    s.setCartridge c ph = { s with rtc := { s.rtc with cartridge := c, phase := ph }, sv := sv, sm := sm }
    ∧ (s.sv.timebase = .off → sv.timebase = .off) ∧ (s.rtc.cartridge = .ready → c ≠ .ready → sm = s.sm.halt)
    ∧ (s.rtc.cartridge ≠ .ready → sm = s.sm) := by
  have kind (v : Sv) (k : TapeKind) (off : v.timebase = .off) : (v.setKind k).timebase = .off := by
    unfold Sv.setKind
    split
    · rfl
    · exact off
  unfold State.setCartridge State.when
  dsimp only
  split
  · next leaves => exact ⟨_, _, rfl, kind _ _, fun _ _ => rfl, fun other => absurd leaves (by simp [other])⟩
  · next stays => exact ⟨_, _, rfl, kind _ _, fun was now => absurd stays (by simp [was, now]), fun _ => rfl⟩

theorem braked (s : State) : Braked s s.cutOff.brake := by
  obtain ⟨tape, cut⟩ := cutOff_rest s
  obtain ⟨r, hr⟩ : ∃ r : State, r = s.cutOff.onRtc (fun r => { r with
    motion := .settling, travel := none, settleTimer := Timer.start Config.settleMs, goal := .none, armed := false,
    faultTimer := none, threadTimer := none, tensionTimer := none, threader := .idle }) := ⟨_, rfl⟩
  obtain ⟨sv, sm, set, -, ready, -⟩ := setCartridge_rest r .faulted none
  have e : s.cutOff.brake = ((r.setCartridge .faulted none).onSv Sv.off).raise .tensionFault := by rw [hr]; rfl
  have cartridge : r.rtc.cartridge = s.rtc.cartridge := by rw [hr, cut]; rfl
  have eu : s.cutOff.brake.eu = s.eu.occur 22 := by
    rw [e, raise_eu, set, hr, cut]
    rfl
  refine ⟨⟨tape, sm, sv.off, s.cutOff.brake.eu, s.cutOff.brake.spu, ?_⟩, fun was => ?_, ?_, by rw [eu]; exact occur_sets _ 22,
    fun j other => by rw [eu]; exact occur_other _ (Ne.symm other)⟩
  · rw [e, raise_frame, set, hr, cut]
    rfl
  · have halted : s.cutOff.brake.sm = s.sm.halt := by
      rw [e, raise_sm, set]
      exact (ready (cartridge.trans was) (by simp)).trans (by rw [hr, cut]; rfl)
    rw [halted]
    exact ⟨rfl, rfl, rfl⟩
  · rw [e, raise_sv, set]
    rfl

/-! ### The write side -/

/-- The Write Formatter with its work given up (R65). -/
def Wf.stopped (w : Wf) : Wf :=
  { w with stage := .idle, header := none, inFlight := none, tallies := Tally.zeros, queue := [], eodPending := false, planned := false }

theorem wfTension_eq (s : State) : s.wfTension = { s with wf := s.wf.stopped } := rfl

theorem recordBack_congr {s t : State} (dbm : t.dbm = s.dbm) (rc : t.rc = s.rc) : t.recordBack.dbm = s.recordBack.dbm := by
  unfold State.recordBack State.segmentBack State.onFilling
  rw [dbm, rc]
  cases s.rc.segment.map Segment.start <;> cases s.dbm.filling <;> simp [State.onRc, State.onDbm, dbm]

/-- The slots that a cut-back leaves, by the buffer alone. -/
theorem cutBack_slots (s : State) : s.cutBack.dbm.slots =
    if s.recordBack.dbm.filling.any (fun x => x.2.entries.getD 0 == 0) then s.recordBack.dbm.slots.dropLast else s.recordBack.dbm.slots := by
  rw [cutBack_eq]
  cases filling : s.recordBack.dbm.filling with
  | none => rfl
  | some p =>
    obtain ⟨i, x⟩ := p
    by_cases empty : x.entries.getD 0 = 0
    · have sealed_ : s.recordBack.sealSlot.dbm.slots = s.recordBack.dbm.slots.dropLast := by
        unfold State.sealSlot
        rw [filling]
        dsimp only
        rw [if_pos empty]
        rfl
      simp [empty, sealed_]
    · simp only [empty, Option.any_some, beq_iff_eq, if_false]
      split <;> rfl

/-- The deferred write error record that a cause sets is the buffer's, the position's and the record's that stands alone. -/
theorem deferredBy_congr {s t : State} (dbm : t.dbm = s.dbm) (rc : t.rc = s.rc) (cu : t.cu = s.cu) (pu : t.pu = s.pu) (cause : DeferredCause) :
    t.deferredBy cause = s.deferredBy cause := by
  have slots : t.cutBack.dbm.slots = s.cutBack.dbm.slots := by rw [cutBack_slots, cutBack_slots, recordBack_congr dbm rc]
  unfold State.deferredBy
  rw [slots, cu, pu]

/-- The EOD record of a partition put back: the tables of the Position Unit alone change. -/
theorem putEodBack_rest (s : State) (p : Nat) (fm : Option Nat) (f : EodKnown → EodKnown) : ∃ (eod : List (Option EodKnown)) (marks : List (Option Nat))
    (directory : List PartitionDirectory),
    s.putEodBack p fm f = { s with pu := { s.pu with eod := eod, eodFilemarks := marks, directory := directory } } := by
  unfold State.putEodBack
  split
  · cases fm with
    | none => exact ⟨_, s.pu.eodFilemarks, _, rfl⟩
    | some m => exact ⟨_, _, _, rfl⟩
  · exact ⟨_, _, _, rfl⟩

/-- A deferred write error that is set now is the executing command's to report (R14, R56). -/
def State.reportsWrites (s : State) : Prop :=
  s.cu.progress.waitsForWriting = true ∨ (∃ n, s.executing = some (.wrec n)) ∨ ∃ n, s.executing = some (.wfmk n)

theorem reportIfExecuting_reports {s : State} {c : Command} (executing : s.executing = some c) (reports : s.reportsWrites) :
    s.reportIfExecuting = s.reportDeferred := by
  unfold State.reportIfExecuting
  split
  · rfl
  · rfl
  · next wrec wfmk e =>
    rcases reports with waits | ⟨n, e'⟩ | ⟨n, e'⟩
    · exact if_pos waits
    · exact absurd (Option.some.inj (e.symm.trans e')) (wrec n)
    · exact absurd (Option.some.inj (e.symm.trans e')) (wfmk n)
  · next e => exact absurd (e.symm.trans executing) (by simp)

theorem reportIfExecuting_silent {s : State} (silent : s.executing = none ∨ ¬ s.reportsWrites) : s.reportIfExecuting = s := by
  unfold State.reportIfExecuting
  rcases silent with none_ | other
  · rw [none_]
  · split
    · next n e => exact absurd (.inr (.inl ⟨n, e⟩)) other
    · next n e => exact absurd (.inr (.inr ⟨n, e⟩)) other
    · exact if_neg (fun waits => other (.inl waits))
    · rfl

/-- The path given up at the Command Unit: the record set or added to, reported at once by a command that writes or waits for writing, and so cleared
(R14, R55, R56). -/
structure Deferring (s t : State) (d : Deferred) : Prop where
  silent : (s.executing = none ∨ ¬ s.reportsWrites) → t.cu = { s.cu with deferred := some d } ∧ t.spu = s.spu
    ∧ t.pu.partition = s.pu.partition ∧ t.pu.object = s.pu.object
  reports : ∀ (q : Queued) (rest : List Queued), s.cu.queue = q :: rest → q.begun = true → s.reportsWrites →
    t.cu.deferred = none ∧ t.cu.queue = rest ∧ t.pu.partition = d.partition ∧ t.pu.object = d.first
    ∧ ∃ flags : Nat, t.spu.out = s.spu.out ++ [.resp q.tag q.command.name (.done .deferredError
        { count := d.objects, object := d.first, flags := flags, deferred := d.byte } [])]

/-- The write path given up, and reported where it is to be: the ways of `discardWrite` in one. -/
theorem deferring {s u t : State} {d : Deferred} (up : GivenUp s u d) (t_ : t = u.reportIfExecuting) :
    Deferring s t d
    ∧ ∃ (spu : Spu) (cu : Cu) (partition object : Nat) (anchor : Option (Nat × Loc)),
        t = { u with spu := spu, cu := cu, pu := { u.pu with partition := partition, object := object, anchor := anchor } } := by
  obtain ⟨dbm, rc, e⟩ := up.rest
  have executing : u.executing = s.executing := executing_of_queue (by rw [e])
  have writes : u.reportsWrites ↔ s.reportsWrites := by unfold State.reportsWrites; rw [executing, e]
  have quiet (silent : s.executing = none ∨ ¬ s.reportsWrites) : t = u := by
    rw [t_]
    exact reportIfExecuting_silent (silent.imp executing.trans (mt writes.mp))
  have told (q : Queued) (rest : List Queued) (queue : s.cu.queue = q :: rest) (begun : q.begun = true) (reports : s.reportsWrites) :=
    (deferred_reported (s := u) (queue := show u.cu.queue = q :: rest by rw [e]; exact queue) (d := d) (by rw [e])).imp
      (fun flags => Exists.imp (fun credits (h : u.reportDeferred = _) =>
        (t_.trans (reportIfExecuting_reports (executing.trans (executing_of_begun queue begun)) (writes.mpr reports))).trans h))
  refine ⟨⟨fun silent => ?_, fun q rest queue begun reports => ?_⟩, ?_⟩
  · rw [quiet silent, e]
    exact ⟨rfl, rfl, rfl, rfl⟩
  · obtain ⟨flags, credits, h⟩ := told q rest queue begun reports
    rw [h, e]
    exact ⟨rfl, rfl, rfl, rfl, flags, rfl⟩
  · by_cases silent : s.executing = none ∨ ¬ s.reportsWrites
    · exact ⟨u.spu, u.cu, u.pu.partition, u.pu.object, u.pu.anchor, quiet silent⟩
    · obtain ⟨busy, reports⟩ := not_or.mp silent
      cases queue : s.cu.queue with
      | nil => exact absurd (executing_of_empty queue) busy
      | cons q rest =>
        have begun : q.begun = true := by
          by_contra no
          exact busy (by simp [State.executing, queue, no])
        obtain ⟨flags, credits, h⟩ := told q rest queue begun (not_not.mp reports)
        exact ⟨_, _, _, _, _, h⟩

end Sys2Proof.Machine
end

section
/-!
SUPPORT. The rest of an emergency stop (R99, R117, R139): the write side given up, the Reader, the position, the volume, and the command in progress.
-/
namespace Sys2Proof.Machine
open Sys2Proof.Laws

/-! ### The write side -/

/-- The write side at an emergency stop: what it changes at all. -/
structure WritesFault (b w : State) : Prop where
  rest : ∃ (dbm : Dbm) (rc : Rc) (sm : Sm) (spu : Spu) (cu : Cu) (pu : Pu),
    w = { b with dbm := dbm, rc := rc, sm := sm, spu := spu, cu := cu, pu := pu, wf := b.wf.stopped }
  scan : w.pu.scan = b.pu.scan
  dram : w.dbm.dram = b.dbm.dram
  halts : b.sm.window = none ∧ b.sm.pending = none ∧ b.sm.scheduled = none → w.sm.window = none ∧ w.sm.pending = none ∧ w.sm.scheduled = none
  reads : b.dbm.direction ≠ .write → w = { b with wf := b.wf.stopped }
  writes : b.dbm.direction = .write → ∃ d : Deferred, Deferring b w d
    ∧ (b.dbm.RingSound → w.dbm.slots = [] ∧ w.dbm.direction = .neutral ∧ w.dbm.sealTimer = none ∧ d = b.deferredBy .tensionFault)

theorem writesFault (b : State) : WritesFault b b.writeFaults := by
  by_cases direction : b.dbm.direction = .write
  · obtain ⟨v, hv⟩ : ∃ v, v = b.wfTension := ⟨_, rfl⟩
    have e : b.writeFaults = (v.discardWrite .tensionFault).1.putEodBack b.pu.partition v.filemarksUnwritten
        (fun e => { e with object := (v.discardWrite .tensionFault).2 }) := by
      rw [hv]
      exact if_pos (by simpa [wfTension_eq] using direction)
    rw [wfTension_eq] at hv
    obtain ⟨u, d, up, given, ring⟩ := discardWrite_gives_up (s := v) (by rw [hv]; exact direction) .tensionFault
    obtain ⟨told, spu, cu, partition, object, anchor, t_⟩ := deferring up rfl
    obtain ⟨dbm, rc, u_⟩ := up.rest
    obtain ⟨eod, marks, directory, back⟩ := putEodBack_rest (v.discardWrite .tensionFault).1 b.pu.partition v.filemarksUnwritten
      (fun e => { e with object := (v.discardWrite .tensionFault).2 })
    rw [← e, given] at back
    dsimp only at back
    have w_ : b.writeFaults.dbm = u.dbm := by rw [back, t_]
    have sm : b.writeFaults.sm = b.sm.halt := by rw [back, t_, u_, hv]
    refine ⟨⟨dbm, rc, b.sm.halt, spu, cu, b.writeFaults.pu, ?_⟩, ?_, ?_, fun _ => by rw [sm]; exact ⟨rfl, rfl, rfl⟩, fun other => absurd direction other,
      fun _ => ⟨d, ⟨fun silent => ?_, fun q rest queue begun reports => ?_⟩, fun sound => ?_⟩⟩
    · rw [back, t_, u_, hv]
    · rw [back, t_, u_, hv]
    · rw [w_, up.dram, hv]
    · rw [back]
      have h := told.silent (by rw [hv]; exact silent)
      rw [hv] at h
      exact h
    · rw [back]
      have h := told.reports q rest (by rw [hv]; exact queue) begun (by rw [hv]; exact reports)
      rw [hv] at h
      exact h
    · obtain ⟨slots, record⟩ := ring (by rw [hv]; exact sound)
      rw [w_]
      exact ⟨slots, up.direction, up.timer, record.trans (deferredBy_congr (by rw [hv]) (by rw [hv]) (by rw [hv]) (by rw [hv]) _)⟩
  · have e : b.writeFaults = { b with wf := b.wf.stopped } := by
      unfold State.writeFaults
      rw [wfTension_eq]
      exact if_neg (by simpa using direction)
    rw [e]
    exact ⟨⟨_, _, _, _, _, _, rfl⟩, rfl, rfl, id, fun _ => rfl, fun write => absurd write direction⟩

/-! ### The Reader -/

/-- The Reader ended with FAULT, its LOADING slot freed (R99). -/
structure ReaderFaults (w v : State) : Prop where
  rest : ∃ (slots : List Slot) (rdr : Rdr), v = { w with dbm := { w.dbm with slots := slots }, rdr := rdr }
  idle : w.rdr.activity = .idle → v.rdr = w.rdr ∧ v.dbm.slots = w.dbm.slots
  ended : w.rdr.activity ≠ .idle → v.rdr.activity = .ended .fault ∧ v.rdr.readAhead = false ∧ v.rdr.wanted = false ∧ v.rdr.target = none
    ∧ v.dbm.slots = (if (w.dbm.slots.getLast?.map Slot.state) = some .loading then w.dbm.slots.dropLast else w.dbm.slots)

theorem dropLoading_eq (s : State) : s.dropLoading = { s with dbm := { s.dbm with
    slots := if (s.dbm.slots.getLast?.map Slot.state) = some .loading then s.dbm.slots.dropLast else s.dbm.slots } } := by
  unfold State.dropLoading State.when
  cases s.dbm.slots.getLast? with
  | none => rfl
  | some x =>
    by_cases loading : x.state = .loading
    · simp [loading, Dbm.dropNewest, State.onDbm]
    · simp [loading]

theorem readerFaults (w : State) : ReaderFaults w w.readerFaults := by
  unfold State.readerFaults
  split
  · next idle =>
    exact ⟨⟨w.dbm.slots, w.rdr, rfl⟩, fun _ => ⟨rfl, rfl⟩, fun busy => absurd idle (by simpa using busy)⟩
  · next busy =>
    rw [dropLoading_eq]
    exact ⟨⟨_, _, rfl⟩, fun idle => absurd (by simpa using idle) busy, fun _ => ⟨rfl, rfl, rfl, rfl, rfl⟩⟩

/-! ### The position (R117) -/

theorem positionKept_loct {s : State} {p o : Nat} (executing : s.executing = some (.loct p o)) :
    s.positionKept.pu.partition = s.pu.cameFrom ∧ s.positionKept.pu.object = s.pu.object := by
  unfold State.positionKept
  rw [executing]
  simp only [clearFullMark_pu, onPu_pu, and_self]

theorem positionKept_other {s : State} (other : ∀ p o : Nat, s.executing ≠ some (.loct p o)) :
    s.positionKept.pu.partition = s.pu.partition ∧ s.positionKept.pu.object = s.pu.object := by
  unfold State.positionKept
  split
  · next e => exact absurd e (other _ _)
  · simp only [clearFullMark_pu, onPu_pu, and_self]
  · exact ⟨rfl, rfl⟩

theorem positionProven_places (s : State) (d : Descriptor) :
    (s.positionProven d).pu.partition = s.pu.partition ∧ (s.positionProven d).pu.object = d.starting := by
  unfold State.positionProven
  dsimp only
  split
  · simp only [clearFullMark_pu]; exact ⟨rfl, rfl⟩
  · simp only [clearFullMark_pu]; exact ⟨rfl, rfl⟩
  · exact ⟨rfl, rfl⟩

theorem positionFaults_scan {s : State} {c : Scan} (scan : s.pu.scan = some c) : s.positionFaults = s.provenBoundary c := by
  unfold State.positionFaults
  rw [scan]

/-- A command under way that is no LOCT or SPAC keeps its position where no scan is open. -/
theorem positionFaults_none {s : State} (scan : s.pu.scan = none) (loct : ∀ p o : Nat, s.executing ≠ some (.loct p o))
    (spac : ∀ (k : SpaceKind) (n : Int), s.executing ≠ some (.spac k n)) : s.positionFaults = s := by
  unfold State.positionFaults
  rw [scan]
  dsimp only
  split
  · next e _ => exact absurd e (loct _ _)
  · next e _ => exact absurd e (spac _ _)
  · rfl

/-- The last dataset proven stands between a scan's start and its target. -/
theorem provenBoundary_proven {s : State} {c : Scan} {d : Descriptor} (purpose : c.purpose ≠ .read) (last : c.proven.getLast? = some d)
    (start : c.startObject ≤ d.starting) (target : d.starting ≤ s.scanTarget c) : s.provenBoundary c = s.positionProven d := by
  unfold State.provenBoundary
  rw [if_neg purpose, last]
  exact if_pos ⟨start, target⟩

theorem provenBoundary_kept {s : State} {c : Scan} (purpose : c.purpose ≠ .read)
    (none_ : ∀ d, c.proven.getLast? = some d → ¬ (c.startObject ≤ d.starting ∧ d.starting ≤ s.scanTarget c)) : s.provenBoundary c = s.positionKept := by
  unfold State.provenBoundary
  rw [if_neg purpose]
  split
  · next d last => exact if_neg (none_ d last)
  · rfl

/-- A command that is no LOCT stays in its partition. -/
theorem positionFaults_partition {s : State} (loct : ∀ p o : Nat, s.executing ≠ some (.loct p o)) :
    s.positionFaults.pu.partition = s.pu.partition := by
  have kept := (positionKept_other loct).1
  cases scan : s.pu.scan with
  | some c =>
    rw [positionFaults_scan scan]
    rcases provenBoundary_cases s c with ⟨-, e⟩ | ⟨-, e⟩ | ⟨-, d, -, -, -, e⟩
    · rw [e]
    · rw [e, kept]
    · rw [e, (positionProven_places s d).1]
  | none =>
    unfold State.positionFaults
    rw [scan]
    dsimp only
    split
    · exact kept
    · exact kept
    · rfl

/-- A LOCT or SPAC that has proven nothing keeps its object. -/
theorem positionFaults_object {s : State} (unproven : ∀ c, s.pu.scan = some c → c.proven = []) : s.positionFaults.pu.object = s.pu.object := by
  have kept : s.positionKept.pu.object = s.pu.object := by
    by_cases loct : ∃ p o : Nat, s.executing = some (.loct p o)
    · obtain ⟨p, o, e⟩ := loct
      exact (positionKept_loct e).2
    · exact (positionKept_other (fun p o e => loct ⟨p, o, e⟩)).2
  cases scan : s.pu.scan with
  | some c =>
    rw [positionFaults_scan scan]
    rcases provenBoundary_cases s c with ⟨-, e⟩ | ⟨-, e⟩ | ⟨-, d, last, -, -, -⟩
    · rw [e]
    · rw [e, kept]
    · simp [unproven c scan] at last
  | none =>
    unfold State.positionFaults
    rw [scan]
    dsimp only
    split
    · exact kept
    · exact kept
    · rfl

/-! ### The state in which the command is answered -/

/-- The Reader, the position and the volume at an emergency stop. -/
structure VolumeFaults (w z : State) : Prop where
  rest : ∃ (slots : List Slot) (rdr : Rdr) (pu : Pu) (vf : Option Nat),
    z = { w with dbm := { w.dbm with slots := slots }, rdr := rdr, pu := pu, wf := { w.wf with volumeFull := vf } }
  dropped : z.pu.volume = .none ∧ z.pu.anchor = none ∧ z.pu.scan = none
  place : ∃ v : State, v.pu = w.pu ∧ v.cu = w.cu ∧ z.pu.partition = v.positionFaults.pu.partition ∧ z.pu.object = v.positionFaults.pu.object
  idle : w.rdr.activity = .idle → z.rdr = w.rdr ∧ z.dbm.slots = w.dbm.slots
  ended : w.rdr.activity ≠ .idle → z.rdr.activity = .ended .fault ∧ z.rdr.readAhead = false ∧ z.rdr.wanted = false ∧ z.rdr.target = none
    ∧ z.dbm.slots = (if (w.dbm.slots.getLast?.map Slot.state) = some .loading then w.dbm.slots.dropLast else w.dbm.slots)

theorem volumeFaults (w : State) : VolumeFaults w w.readerFaults.positionFaults.dropVolume := by
  obtain ⟨⟨slots, rdr, v_⟩, idle, ended⟩ := readerFaults w
  generalize w.readerFaults = v at v_ idle ended ⊢
  obtain ⟨pu, vf, placed, -⟩ := Places.positionFaults v
  have rdr_ : v.positionFaults.dropVolume.rdr = v.rdr := by rw [placed]; rfl
  have slots_ : v.positionFaults.dropVolume.dbm.slots = v.dbm.slots := by rw [placed]; rfl
  refine ⟨⟨slots, rdr, v.positionFaults.dropVolume.pu, vf, ?_⟩, ⟨rfl, rfl, rfl⟩, ⟨v, by rw [v_], by rw [v_], rfl, rfl⟩, ?_, ?_⟩
  · rw [placed, v_]
    rfl
  · rw [rdr_, slots_]
    exact idle
  · rw [rdr_, slots_]
    exact ended

end Sys2Proof.Machine
end

section
/-!
SUPPORT. The command in progress at an emergency stop (R130, R139).
-/
namespace Sys2Proof.Machine
open Sys2Proof.Laws

/-! ### The command in progress (R139) -/

theorem executing_iff {s : State} {c : Command} :
    s.executing = some c ↔ ∃ (q : Queued) (rest : List Queued), s.cu.queue = q :: rest ∧ q.begun = true ∧ q.command = c := by
  constructor
  · intro e
    cases queue : s.cu.queue with
    | nil => exact absurd ((executing_of_empty queue).symm.trans e) (by simp)
    | cons q rest =>
      cases begun : q.begun with
      | true => exact ⟨q, rest, rfl, begun, Option.some.inj ((executing_of_begun queue begun).symm.trans e)⟩
      | false => simp [State.executing, queue, begun] at e
  · rintro ⟨q, rest, queue, begun, rfl⟩
    exact executing_of_begun queue begun

section
variable {z : State} {q : Queued} {rest : List Queued}

theorem commandFaults_none (none_ : z.executing = none) : z.commandFaults = z := by
  unfold State.commandFaults
  rw [none_]

theorem commandFaults_load (queue : z.cu.queue = q :: rest) (begun : q.begun = true) (command : q.command = .load) : z.commandFaults = { z with
    spu := { z.spu with out := z.spu.out ++ [.resp q.tag (ascii 'L' 'O' 'A' 'D') (.done .tensionFault {} [])] },
    cu := { z.cu with queue := rest, progress := .none, count := 0, finals := 0 } } := by
  have executing := executing_of_begun queue begun
  unfold State.commandFaults
  rw [executing, command]
  dsimp only
  rw [complete_eq queue (by simp [command]), withEarlyFlag_other _ (by simp [command]) (by simp [command]), command]
  rfl

/-- An UNLD whose leader is home: the cartridge pushed out, the UNLD GOOD (R130). -/
theorem commandFaults_ejects (queue : z.cu.queue = q :: rest) (begun : q.begun = true) (command : q.command = .unld) (home : z.sensors.leader = .home)
    (cartridge : z.rtc.cartridge = .faulted) : ∃ sv : Sv, (z.sv.timebase = .off → sv.timebase = .off) ∧ z.commandFaults = { z with
      spu := { z.spu with out := z.spu.out ++ [.resp q.tag (ascii 'U' 'N' 'L' 'D') doneOk] },
      cu := { z.cu with queue := rest, progress := .none, count := 0, finals := 0 }, pu := z.pu.unloaded, wf := { z.wf with volumeFull := none }, sv := sv,
      rtc := { z.rtc with cartridge := .ejected, phase := none, threadTimer := none, windTimer := none, threader := .idle, goal := .none } } := by
  have executing := (executing_of_begun queue begun).trans (congrArg some command)
  obtain ⟨v, hv⟩ : ∃ v : State, v = z.onCu (fun c => { c with progress := .sequence }) := ⟨_, rfl⟩
  obtain ⟨sv, sm, set, off, -, same⟩ := setCartridge_rest v .ejected none
  have sm_ : sm = z.sm := (same (by rw [hv]; simp [cartridge])).trans (by rw [hv]; rfl)
  obtain ⟨e, he⟩ : ∃ e : State, e = { z with
      cu := { z.cu with progress := .sequence }, pu := z.pu.unloaded, wf := { z.wf with volumeFull := none }, sv := sv,
      rtc := { z.rtc with cartridge := .ejected, phase := none, threadTimer := none, windTimer := none, threader := .idle, goal := .none } } :=
    ⟨_, rfl⟩
  have unld : e.unldExecuting = true := by
    have same : e.executing = some .unld := (executing_of_queue (by rw [he])).trans executing
    unfold State.unldExecuting
    rw [same, he]
    rfl
  refine ⟨sv, fun o => off (by rw [hv]; exact o), ?_⟩
  calc z.commandFaults = v.eject := by
        unfold State.commandFaults State.recoverUnthread
        rw [executing, hv]
        exact if_pos home
    _ = e.when e.unldExecuting (·.complete .good {}) := by
        unfold State.eject
        dsimp only
        rw [set, sm_, hv, he]
        rfl
    _ = e.complete .good {} := by rw [unld]; rfl
    _ = _ := by
        rw [complete_eq (q := q) (rest := rest) (by rw [he]; exact queue) (by simp [command]),
          withEarlyFlag_other _ (by simp [command]) (by simp [command]), command, he]
        rfl

/-- An UNLD whose leader is elsewhere: the recovery wind (R130). -/
theorem commandFaults_winds (queue : z.cu.queue = q :: rest) (begun : q.begun = true) (command : q.command = .unld) (out : z.sensors.leader ≠ .home) :
    z.commandFaults = { z with cu := { z.cu with progress := .sequence }, rtc := { z.rtc with
      windTimer := some { elapsed := 0, period := 180000 }, attempts := 0, travel := some .reverse, threadTimer := none, threader := .idle } } := by
  have executing := (executing_of_begun queue begun).trans (congrArg some command)
  unfold State.commandFaults State.recoverUnthread
  rw [executing]
  exact if_neg out

/-- A READ_RECORDS that delivers goes on. -/
theorem commandFaults_delivers {n limit : Nat} (executing : z.executing = some (.rrec n limit)) (reading : z.cu.progress = .reading) :
    z.commandFaults = z := by
  unfold State.commandFaults
  rw [executing]
  exact if_pos reading

theorem commandFaults_rrec {n limit : Nat} (executing : z.executing = some (.rrec n limit)) (waits : z.cu.progress ≠ .reading) :
    z.commandFaults = z.complete .notReady { object := z.pu.object } := by
  unfold State.commandFaults
  rw [executing]
  exact if_neg waits

/-- Every other command ends NOT_READY, or with the deferred write error that is set. -/
theorem commandFaults_other {c : Command} (executing : z.executing = some c) (load : c ≠ .load) (unld : c ≠ .unld) (rrec : ∀ n limit : Nat, c ≠ .rrec n limit) :
    z.commandFaults = if z.cu.deferred.isSome then z.reportDeferred else z.complete .notReady { count := z.cu.count, object := z.pu.object } := by
  unfold State.commandFaults
  rw [executing]
  split
  · next e => exact absurd (Option.some.inj e) load
  · next e => exact absurd (Option.some.inj e) unld
  · next e => exact absurd (Option.some.inj e) (rrec _ _)
  · rfl
  · next e => exact absurd e (by simp)

end

/-- Whatever command is answered, the stop stands: what it can change at all, and the cartridge pushed out by an UNLD alone. -/
structure CommandFaults (z t : State) : Prop where
  rest : ∃ (spu : Spu) (cu : Cu) (pu : Pu) (rtc : Rtc) (sv : Sv) (vf : Option Nat),
    t = { z with spu := spu, cu := cu, pu := pu, rtc := rtc, sv := sv, wf := { z.wf with volumeFull := vf } }
  dropped : z.pu.volume = .none ∧ z.pu.anchor = none ∧ z.pu.scan = none → t.pu.volume = .none ∧ t.pu.anchor = none ∧ t.pu.scan = none
  reels : t.rtc.motion = z.rtc.motion ∧ t.rtc.settleTimer = z.rtc.settleTimer ∧ t.rtc.armed = z.rtc.armed ∧ t.rtc.faultTimer = z.rtc.faultTimer
    ∧ (z.rtc.phase = none → t.rtc.phase = none)
  timebase : z.sv.timebase = .off → t.sv.timebase = .off
  ejects : z.executing = some .unld ∧ z.sensors.leader = .home → t.rtc.cartridge = .ejected
  stays : ¬ (z.executing = some .unld ∧ z.sensors.leader = .home) → t.rtc.cartridge = z.rtc.cartridge

/-- A command that is not an UNLD is answered, or not, with the reels left alone. -/
theorem CommandFaults.of_answer {z t : State} (other : ¬ (z.executing = some .unld ∧ z.sensors.leader = .home))
    (rest : ∃ (spu : Spu) (cu : Cu) (partition object : Nat)
    (anchor : Option (Nat × Loc)), (z.pu.anchor = none → anchor = none)
      ∧ t = { z with spu := spu, cu := cu, pu := { z.pu with partition := partition, object := object, anchor := anchor } }) : CommandFaults z t := by
  obtain ⟨spu, cu, partition, object, anchor, none_, rfl⟩ := rest
  exact ⟨⟨_, _, _, _, _, _, rfl⟩, fun ⟨volume, a, scan⟩ => ⟨volume, none_ a, scan⟩, ⟨rfl, rfl, rfl, rfl, id⟩, id, fun e => absurd e other, fun _ => rfl⟩

theorem CommandFaults.of_complete {z : State} (other : ¬ (z.executing = some .unld ∧ z.sensors.leader = .home)) (code : Code) (res : Results) :
    CommandFaults z (z.complete code res) := by
  refine .of_answer other ?_
  cases queue : z.cu.queue with
  | nil => exact ⟨_, _, _, _, _, id, complete_of_empty queue code res⟩
  | cons q rest =>
    obtain ⟨_, _, e⟩ := complete_rest queue code res
    exact ⟨_, _, _, _, _, id, e⟩

theorem commandFaults (z : State) (cartridge : z.rtc.cartridge = .faulted) : CommandFaults z z.commandFaults := by
  cases executing : z.executing with
  | none =>
    rw [commandFaults_none executing]
    exact .of_answer (by simp [executing]) ⟨_, _, _, _, _, id, rfl⟩
  | some c =>
    obtain ⟨q, rest, queue, begun, command⟩ := executing_iff.mp executing
    by_cases unld : c = .unld
    · by_cases home : z.sensors.leader = .home
      · obtain ⟨sv, off, e⟩ := commandFaults_ejects queue begun (command.trans unld) home cartridge
        rw [e]
        exact ⟨⟨_, _, _, _, _, _, rfl⟩, fun _ => ⟨rfl, rfl, rfl⟩, ⟨rfl, rfl, rfl, rfl, fun _ => rfl⟩, off, fun _ => rfl,
          fun other => absurd ⟨by rw [executing, unld], home⟩ other⟩
      · rw [commandFaults_winds queue begun (command.trans unld) home]
        exact ⟨⟨_, _, _, _, _, z.wf.volumeFull, rfl⟩, id, ⟨rfl, rfl, rfl, rfl, id⟩, id, fun e => absurd e.2 home, fun _ => rfl⟩
    · have other : ¬ (z.executing = some .unld ∧ z.sensors.leader = .home) := by simp [executing, unld]
      by_cases load : c = .load
      · have e : z.commandFaults = z.complete .tensionFault {} := by
          unfold State.commandFaults
          rw [executing, load]
        rw [e]
        exact .of_complete other _ _
      · by_cases rrec : ∃ n limit : Nat, c = .rrec n limit
        · obtain ⟨n, limit, rfl⟩ := rrec
          by_cases reading : z.cu.progress = .reading
          · rw [commandFaults_delivers executing reading]
            exact .of_answer other ⟨_, _, _, _, _, id, rfl⟩
          · rw [commandFaults_rrec executing reading]
            exact .of_complete other _ _
        · rw [commandFaults_other executing load unld (fun n limit e => rrec ⟨n, limit, e⟩)]
          cases deferred : z.cu.deferred with
          | none => exact .of_complete other _ _
          | some d =>
            obtain ⟨_, _, e⟩ := deferred_reported queue deferred
            exact .of_answer other ⟨_, _, _, _, _, fun _ => rfl, e⟩

end Sys2Proof.Machine
end

section
/-!
PROPERTY. The emergency stop: the reels braked, the write path a deferred write error, the Reader ended, the position kept or proven, the command
in progress answered (R10, R55, R56, R65, R68, R99, R117, R130, R133, R138, R139, R142).
-/
namespace Sys2Proof.Machine
open Sys2Proof.Laws

/-! ### Before the command is answered -/

/-- The command in progress reports the deferred write error that the stop sets (R56). -/
def State.stopReports (s : State) : Prop := s.dbm.direction = .write ∧ s.reportsWrites

/-- The write path of a stop: the record set, or reported at once. -/
structure StopWrites (s z : State) (d : Deferred) : Prop where
  slots : s.dbm.RingSound → z.dbm.slots = [] ∧ z.dbm.direction = .neutral ∧ z.dbm.sealTimer = none ∧ d = s.deferredBy .tensionFault
  silent : (s.executing = none ∨ ¬ s.reportsWrites) → z.cu = { s.cu with deferred := some d }
  reports : ∀ (q : Queued) (rest : List Queued), s.cu.queue = q :: rest → q.begun = true → s.reportsWrites →
    z.cu.deferred = none ∧ z.cu.queue = rest ∧ (s.pu.scan = none → z.pu.partition = d.partition ∧ z.pu.object = d.first)
    ∧ ∃ (before : List Packet) (flags : Nat), z.spu.out = before ++ [.resp q.tag q.command.name (.done .deferredError
        { count := d.objects, object := d.first, flags := flags, deferred := d.byte } [])]

/-- The drive stopped, with the command in progress yet to be answered. -/
structure Stops (s z : State) : Prop where
  rtc : z.rtc = s.rtc.braked
  timebase : z.sv.timebase = .off
  latched : z.eu.latches[22].set = true
  others : ∀ j : Fin 32, j ≠ 22 → z.eu.latches[j] = s.eu.latches[j]
  halted : s.rtc.cartridge = .ready → z.sm.window = none ∧ z.sm.pending = none ∧ z.sm.scheduled = none
  wf : z.wf.stage = .idle ∧ z.wf.eodPending = false ∧ z.wf.queue = [] ∧ z.wf.inFlight = none
  kept : z.hm = s.hm ∧ z.dbm.dram = s.dbm.dram ∧ z.sensors = s.sensors
  dropped : z.pu.volume = .none ∧ z.pu.anchor = none ∧ z.pu.scan = none
  reads : s.dbm.direction ≠ .write → z.cu = s.cu ∧ z.dbm.direction = s.dbm.direction
    ∧ (s.rdr.activity = .idle → z.rdr = s.rdr ∧ z.dbm.slots = s.dbm.slots)
    ∧ (s.rdr.activity ≠ .idle → z.rdr.activity = .ended .fault ∧ z.rdr.readAhead = false ∧ z.rdr.wanted = false ∧ z.rdr.target = none
      ∧ z.dbm.slots = (if (s.dbm.slots.getLast?.map Slot.state) = some .loading then s.dbm.slots.dropLast else s.dbm.slots))
    ∧ ∃ v : State, v.pu = s.pu ∧ v.cu = s.cu ∧ z.pu.partition = v.positionFaults.pu.partition ∧ z.pu.object = v.positionFaults.pu.object
  writes : s.dbm.direction = .write → ∃ d : Deferred, StopWrites s z d

/-- Only the head of a sound queue has begun, so that none has once it is answered. -/
theorem executing_of_answered {s z : State} (sound : s.cu.Sound) {q : Queued} {rest : List Queued} (queue : s.cu.queue = q :: rest)
    (answered : z.cu.queue = rest) : z.executing = none := by
  obtain ⟨-, -, -, waits⟩ := sound
  unfold State.executing
  rw [answered]
  cases rest with
  | nil => rfl
  | cons p ps =>
    have idle : p.begun = false := waits p (by simp [queue])
    simp [idle]

/-- The write path of a stop, as the later stages of the stop leave it. -/
theorem stopWrites {s b w z : State} {d : Deferred} (sound : s.cu.Sound) (braking : Braked s b)
    (told : Deferring b w d) (scan_ : w.pu.scan = b.pu.scan) (volume : VolumeFaults w z)
    (ring : b.dbm.RingSound → w.dbm.slots = [] ∧ w.dbm.direction = .neutral ∧ w.dbm.sealTimer = none ∧ d = b.deferredBy .tensionFault) :
    StopWrites s z d := by
  obtain ⟨tape, sm, sv, eu, spu, b_⟩ := braking.rest
  obtain ⟨slots, rdr, pu, vf, z_⟩ := volume.rest
  have cu : z.cu = w.cu := by rw [z_]
  have out : z.spu = w.spu := by rw [z_]
  have writes : b.reportsWrites ↔ s.reportsWrites := by unfold State.reportsWrites State.executing; rw [b_]
  have executing : b.executing = s.executing := executing_of_queue (by rw [b_])
  refine ⟨fun sound => ?_, fun silent => ?_, fun q rest queue begun reports => ?_⟩
  · obtain ⟨empty, direction, timer, record⟩ := ring (by rw [b_]; exact sound)
    refine ⟨?_, by rw [z_]; exact direction, by rw [z_]; exact timer, record.trans (deferredBy_congr (by rw [b_]) (by rw [b_]) (by rw [b_]) (by rw [b_]) _)⟩
    by_cases idle : w.rdr.activity = .idle
    · exact (volume.idle idle).2.trans empty
    · obtain ⟨-, -, -, -, slots_⟩ := volume.ended idle
      rw [slots_, empty]
      rfl
  · rw [cu, (told.silent (silent.imp executing.trans (mt writes.mp))).1, b_]
  · obtain ⟨deferred, queue_, partition, object, flags, sent⟩ := told.reports q rest (by rw [b_]; exact queue) begun (writes.mpr reports)
    refine ⟨by rw [cu, deferred], by rw [cu, queue_], fun scan => ?_, _, flags, by rw [out, sent]⟩
    obtain ⟨v, pu_, cu_, p, o⟩ := volume.place
    have idle : v.executing = none := executing_of_answered sound queue (by rw [cu_, queue_])
    have none_ : v.pu.scan = none := by rw [pu_, scan_, b_]; exact scan
    rw [p, o, positionFaults_none none_ (by simp [idle]) (by simp [idle]), pu_]
    exact ⟨partition, object⟩

theorem stops {s : State} (sound : s.cu.Sound) : ∃ z : State, Stops s z ∧ s.emergencyStop = z.commandFaults := by
  have braking := braked s
  refine ⟨s.cutOff.brake.writeFaults.readerFaults.positionFaults.dropVolume, ?_, rfl⟩
  generalize s.cutOff.brake = b at braking ⊢
  have writing := writesFault b
  generalize b.writeFaults = w at writing ⊢
  have volume := volumeFaults w
  generalize w.readerFaults.positionFaults.dropVolume = z at volume ⊢
  obtain ⟨tape, sm, sv, eu, spu, b_⟩ := braking.rest
  obtain ⟨dbm, rc, sm', spu', cu, pu, w_⟩ := writing.rest
  obtain ⟨slots, rdr, pu', vf, z_⟩ := volume.rest
  have sv_ : z.sv = b.sv := by rw [z_, w_]
  have eu_ : z.eu = b.eu := by rw [z_, w_]
  have sm_ : z.sm = w.sm := by rw [z_]
  have dram : z.dbm.dram = w.dbm.dram := by rw [z_]
  refine ⟨by rw [z_, w_, b_], by rw [sv_]; exact braking.timebase, by rw [eu_]; exact braking.latched,
    fun j other => by rw [eu_]; exact braking.others j other, fun ready => by rw [sm_]; exact writing.halts (braking.halted ready), ?_, ?_,
    volume.dropped, fun direction => ?_, fun direction => ?_⟩
  · rw [z_, w_]
    exact ⟨rfl, rfl, rfl, rfl⟩
  · exact ⟨by rw [z_, w_, b_], by rw [dram, writing.dram, b_], by rw [z_, w_, b_]⟩
  · have same := writing.reads (by rw [b_]; exact direction)
    obtain ⟨v, pu_, cu_, partition, object⟩ := volume.place
    have rdr_ : w.rdr = s.rdr := by rw [same, b_]
    have dbm_ : w.dbm = s.dbm := by rw [same, b_]
    refine ⟨by rw [z_, same, b_], by rw [z_, same, b_], ?_, ?_, v, by rw [pu_, same, b_], by rw [cu_, same, b_], partition, object⟩
    · rw [← rdr_, ← dbm_]
      exact volume.idle
    · rw [← rdr_, ← dbm_]
      exact volume.ended
  · obtain ⟨d, told, ring⟩ := writing.writes (by rw [b_]; exact direction)
    exact ⟨d, stopWrites sound braking told writing.scan volume ring⟩

/-- What is left to answer: the command in progress, unless it has reported. -/
theorem Stops.executing {s z : State} (stop : Stops s z) (sound : s.cu.Sound) :
    (s.stopReports → z.executing = none) ∧ (¬ s.stopReports → z.cu.queue = s.cu.queue ∧ z.cu.progress = s.cu.progress ∧ z.executing = s.executing) := by
  constructor
  · rintro ⟨direction, reports⟩
    obtain ⟨d, write⟩ := stop.writes direction
    cases busy : s.executing with
    | none =>
      have same := write.silent (.inl busy)
      exact (executing_of_queue (by rw [same])).trans busy
    | some c =>
      obtain ⟨q, rest, queue, begun, -⟩ := executing_iff.mp busy
      obtain ⟨-, queue_, -⟩ := write.reports q rest queue begun reports
      exact executing_of_answered sound queue queue_
  · intro other
    by_cases direction : s.dbm.direction = .write
    · obtain ⟨d, write⟩ := stop.writes direction
      have same := write.silent (.inr (fun reports => other ⟨direction, reports⟩))
      exact ⟨by rw [same], by rw [same], executing_of_queue (by rw [same])⟩
    · obtain ⟨same, -⟩ := stop.reads direction
      exact ⟨by rw [same], by rw [same], executing_of_queue (by rw [same])⟩

/-! ### The position left (R117) -/

section
variable {v : State} {c : Scan}

/-- A LOCT that scans: the last proven boundary between start and target, else the place before the command. -/
theorem positionFaults_loct {p o : Nat} (executing : v.executing = some (.loct p o)) (scan : v.pu.scan = some c) (purpose : c.purpose = .locate o) :
    (∀ d, c.proven.getLast? = some d → c.startObject ≤ d.starting → d.starting ≤ o →
      v.positionFaults.pu.partition = v.pu.partition ∧ v.positionFaults.pu.object = d.starting)
    ∧ ((∀ d, c.proven.getLast? = some d → ¬ (c.startObject ≤ d.starting ∧ d.starting ≤ o)) →
      v.positionFaults.pu.partition = v.pu.cameFrom ∧ v.positionFaults.pu.object = v.pu.object) := by
  have target : v.scanTarget c = o := by unfold State.scanTarget; rw [purpose]
  rw [positionFaults_scan scan]
  refine ⟨fun d last start le => ?_, fun none_ => ?_⟩
  · rw [provenBoundary_proven (by simp [purpose]) last start (by rw [target]; exact le)]
    exact positionProven_places v d
  · rw [provenBoundary_kept (by simp [purpose]) (by rw [target]; exact none_)]
    exact positionKept_loct executing

/-- A LOCT still on its way to its scan. -/
theorem positionFaults_shuttle {p o : Nat} {code : Code} (executing : v.executing = some (.loct p o)) (scan : v.pu.scan = none)
    (progress : v.cu.progress = .shuttle code) : v.positionFaults.pu.partition = v.pu.cameFrom ∧ v.positionFaults.pu.object = v.pu.object := by
  have kept : v.positionFaults = v.positionKept := by
    unfold State.positionFaults
    rw [scan, executing, progress]
  rw [kept]
  exact positionKept_loct executing

/-- The search for dataset D before a write or an ERAS, whose target is the position (R118). -/
theorem positionFaults_truncate (loct : ∀ p o : Nat, v.executing ≠ some (.loct p o)) (scan : v.pu.scan = some c) (purpose : c.purpose = .truncate) :
    v.positionFaults.pu.partition = v.pu.partition
    ∧ (∀ d, c.proven.getLast? = some d → c.startObject ≤ d.starting → d.starting ≤ v.pu.object → v.positionFaults.pu.object = d.starting)
    ∧ ((∀ d, c.proven.getLast? = some d → ¬ (c.startObject ≤ d.starting ∧ d.starting ≤ v.pu.object)) →
      v.positionFaults.pu.object = v.pu.object) := by
  have target : v.scanTarget c = v.pu.object := by unfold State.scanTarget; rw [purpose]
  refine ⟨positionFaults_partition loct, fun d last start le => ?_, fun none_ => ?_⟩
  · rw [positionFaults_scan scan, provenBoundary_proven (by simp [purpose]) last start (by rw [target]; exact le)]
    exact (positionProven_places v d).2
  · rw [positionFaults_scan scan, provenBoundary_kept (by simp [purpose]) (by rw [target]; exact none_)]
    exact (positionKept_other loct).2

/-- A space to end of data, whose target no object lies beyond. -/
theorem positionFaults_spaceEnd {d : Descriptor} (scan : v.pu.scan = some c) (purpose : c.purpose = .spaceEnd) (last : c.proven.getLast? = some d)
    (start : c.startObject ≤ d.starting) (le : d.starting ≤ 4294967295) : v.positionFaults.pu.object = d.starting := by
  have target : v.scanTarget c = 4294967295 := by
    unfold State.scanTarget
    rw [purpose]
    rfl
  rw [positionFaults_scan scan, provenBoundary_proven (by simp [purpose]) last start (by rw [target]; exact le)]
  exact (positionProven_places v d).2

/-- The locate before a read changes no position (R104). -/
theorem positionFaults_read (scan : v.pu.scan = some c) (purpose : c.purpose = .read) : v.positionFaults = v := by
  rw [positionFaults_scan scan, State.provenBoundary, if_pos purpose]

end

/-! ### The command in progress that does not report -/

/-- A command other than a LOAD or UNLD, of a drive that writes nothing and holds no deferred write error: NOT_READY, but for a read that delivers. -/
theorem Stops.not_ready {s z : State} (stop : Stops s z) {q : Queued} {rest : List Queued} (queue : s.cu.queue = q :: rest) (begun : q.begun = true)
    (direction : s.dbm.direction ≠ .write) (deferred : s.cu.deferred = none) (load : q.command ≠ .load) (unld : q.command ≠ .unld) :
    (((∃ n limit, q.command = .rrec n limit) ∧ s.cu.progress = .reading) → z.commandFaults.cu = s.cu)
    ∧ (¬ ((∃ n limit, q.command = .rrec n limit) ∧ s.cu.progress = .reading) → z.commandFaults.cu.queue = rest ∧ z.commandFaults.cu.deferred = none
      ∧ (∃ (before : List Packet) (count flags : Nat), z.commandFaults.spu.out = before ++ [.resp q.tag q.command.name (.done .notReady
          { count := count, object := z.pu.object, flags := flags } [])]
        ∧ ((∀ n limit, q.command ≠ .rrec n limit) → count = s.cu.count))
      ∧ z.commandFaults.pu = z.pu) := by
  obtain ⟨cu, -⟩ := stop.reads direction
  have queue_ : z.cu.queue = q :: rest := by rw [cu]; exact queue
  have executing := executing_of_begun queue_ begun
  have answered (count : Nat) (e : z.commandFaults = z.complete .notReady { count := count, object := z.pu.object })
      (same : (∀ n limit, q.command ≠ .rrec n limit) → count = s.cu.count) : z.commandFaults.cu.queue = rest ∧ z.commandFaults.cu.deferred = none
      ∧ (∃ (before : List Packet) (count flags : Nat), z.commandFaults.spu.out = before ++ [.resp q.tag q.command.name (.done .notReady
          { count := count, object := z.pu.object, flags := flags } [])]
        ∧ ((∀ n limit, q.command ≠ .rrec n limit) → count = s.cu.count))
      ∧ z.commandFaults.pu = z.pu := by
    obtain ⟨flags, credits, done⟩ := complete_answers queue_ .notReady { count := count, object := z.pu.object }
    rw [e, done, cu]
    exact ⟨rfl, deferred, ⟨_, count, flags, rfl, same⟩, rfl⟩
  by_cases rrec : ∃ n limit, q.command = .rrec n limit
  · obtain ⟨n, limit, command⟩ := rrec
    have executing_ := executing.trans (congrArg some command)
    refine ⟨fun ⟨_, reading⟩ => ?_, fun waits => answered 0 (commandFaults_rrec executing_ ?_) (fun other => absurd command (other n limit))⟩
    · rw [commandFaults_delivers executing_ (by rw [cu]; exact reading), cu]
    · rw [cu]
      exact fun reading => waits ⟨⟨n, limit, command⟩, reading⟩
  · refine ⟨fun ⟨e, _⟩ => absurd e rrec, fun _ => answered z.cu.count ?_ (fun _ => by rw [cu])⟩
    rw [commandFaults_other executing load unld (fun n limit e => rrec ⟨n, limit, e⟩), cu, deferred]
    rfl

end Sys2Proof.Machine
end

section
/-!
PROPERTY. The emergency stop, assembled from its stages.
-/
namespace Sys2Proof.Machine
open Sys2Proof.Laws

/-- Where a command other than a LOAD or UNLD leaves the position, as R117 has it, with nothing written and no deferred write error (R139). -/
theorem Stops.places {s z : State} (stop : Stops s z) {q : Queued} {rest : List Queued} (queue : s.cu.queue = q :: rest) (begun : q.begun = true)
    (direction : s.dbm.direction ≠ .write) :
    ((q.command = .rwnd ∨ (∃ n sizes, q.command = .dpar n sizes)) → s.pu.scan = none →
      z.pu.partition = s.pu.partition ∧ z.pu.object = s.pu.object)
    ∧ (∀ p o : Nat, q.command = .loct p o →
      (∀ code, s.pu.scan = none → s.cu.progress = .shuttle code → z.pu.partition = s.pu.cameFrom ∧ z.pu.object = s.pu.object)
      ∧ (∀ c : Scan, s.pu.scan = some c → c.purpose = .locate o →
        (∀ d, c.proven.getLast? = some d → c.startObject ≤ d.starting → d.starting ≤ o →
          z.pu.partition = s.pu.partition ∧ z.pu.object = d.starting)
        ∧ ((∀ d, c.proven.getLast? = some d → ¬ (c.startObject ≤ d.starting ∧ d.starting ≤ o)) →
          z.pu.partition = s.pu.cameFrom ∧ z.pu.object = s.pu.object)))
    ∧ ((∃ k n, q.command = .spac k n) → z.pu.partition = s.pu.partition
      ∧ ((∀ c, s.pu.scan = some c → c.proven = []) → z.pu.object = s.pu.object)
      ∧ (∀ (c : Scan) (d : Descriptor), s.pu.scan = some c → c.purpose = .spaceEnd → c.proven.getLast? = some d →
          c.startObject ≤ d.starting → d.starting ≤ 4294967295 → z.pu.object = d.starting))
    ∧ (∀ c : Scan, s.pu.scan = some c →
      (c.purpose = .truncate → (q.command = .eras ∨ (∃ n, q.command = .wrec n) ∨ ∃ n, q.command = .wfmk n) →
        z.pu.partition = s.pu.partition
        ∧ (∀ d, c.proven.getLast? = some d → c.startObject ≤ d.starting → d.starting ≤ s.pu.object → z.pu.object = d.starting)
        ∧ ((∀ d, c.proven.getLast? = some d → ¬ (c.startObject ≤ d.starting ∧ d.starting ≤ s.pu.object)) → z.pu.object = s.pu.object))
      ∧ (∀ n limit : Nat, c.purpose = .read → q.command = .rrec n limit →
        z.pu.partition = s.pu.partition ∧ z.pu.object = s.pu.object)) := by
  obtain ⟨-, -, -, -, v, pu, cu, partition, object⟩ := stop.reads direction
  have executing : v.executing = some q.command := executing_of_begun (by rw [cu]; exact queue) begun
  have runs {c : Command} (command : q.command = c) : v.executing = some c := executing.trans (congrArg some command)
  have other {c d : Command} (command : q.command = c) (ne : c ≠ d) : v.executing ≠ some d := by
    rw [runs command]
    exact fun e => ne (Option.some.inj e)
  rw [partition, object, ← pu, ← cu]
  refine ⟨fun which scan => ?_, fun p o command => ⟨fun code scan progress => positionFaults_shuttle (runs command) scan progress,
    fun c scan purpose => positionFaults_loct (runs command) scan purpose⟩, fun ⟨k, n, command⟩ =>
      ⟨positionFaults_partition (fun p o => other command (by simp)), positionFaults_object,
        fun c d scan purpose last start le => positionFaults_spaceEnd scan purpose last start le⟩,
    fun c scan => ⟨fun purpose which => positionFaults_truncate ?_ scan purpose, fun n limit purpose _ => by
      rw [positionFaults_read scan purpose]
      exact ⟨rfl, rfl⟩⟩⟩
  · have kept : v.positionFaults = v := by
      rcases which with command | ⟨n, sizes, command⟩
      · exact positionFaults_none scan (fun p o => other command (by simp)) (fun k n => other command (by simp))
      · exact positionFaults_none scan (fun p o => other command (by simp)) (fun k n => other command (by simp))
    rw [kept]
    exact ⟨rfl, rfl⟩
  · rcases which with command | ⟨n, command⟩ | ⟨n, command⟩
    · exact fun p o => other command (by simp)
    · exact fun p o => other command (by simp)
    · exact fun p o => other command (by simp)

/-- A LOAD or UNLD in progress, which never reports (R130, R139). -/
theorem Stops.load_unld {s z : State} (stop : Stops s z) {q : Queued} {rest : List Queued} (queue : z.cu.queue = q :: rest) (begun : q.begun = true) :
    (q.command = .load → z.commandFaults.cu.queue = rest
      ∧ ∃ before, z.commandFaults.spu.out = before ++ [.resp q.tag (ascii 'L' 'O' 'A' 'D') (.done .tensionFault {} [])])
    ∧ (q.command = .unld → s.sensors.leader = .home → z.commandFaults.cu.queue = rest
      ∧ ∃ before, z.commandFaults.spu.out = before ++ [.resp q.tag (ascii 'U' 'N' 'L' 'D') doneOk])
    ∧ (q.command = .unld → s.sensors.leader ≠ .home → z.commandFaults.cu.queue = q :: rest
      ∧ z.commandFaults.rtc.windTimer = some { elapsed := 0, period := 180000 }) := by
  obtain ⟨-, -, sensors⟩ := stop.kept
  refine ⟨fun command => ?_, fun command home => ?_, fun command out => ?_⟩
  · rw [commandFaults_load queue begun command]
    exact ⟨rfl, _, rfl⟩
  · obtain ⟨sv, -, e⟩ := commandFaults_ejects queue begun command (by rw [sensors]; exact home) (by rw [stop.rtc]; rfl)
    rw [e]
    exact ⟨rfl, _, rfl⟩
  · rw [commandFaults_winds queue begun command (by rw [sensors]; exact out)]
    exact ⟨queue, rfl⟩

/-- Settles O28, stage by stage: the reels braked, the write side, the Reader, the position and the volume, then the answer of the command in
progress, unless it has reported the deferred write error already. -/
theorem emergencyStop : Obligations.EmergencyStop := by
  unfold Obligations.EmergencyStop
  intro s expires sound reports ejects
  obtain ⟨z, stop, e⟩ := stops sound
  have next : exec .tensionFaultTimerExpiry s = .next z.commandFaults := by
    rw [← e]
    exact congrArg Host.Outcome.next (if_pos expires)
  obtain ⟨told, untold⟩ := stop.executing sound
  have cartridge : z.rtc.cartridge = .faulted := by rw [stop.rtc]; rfl
  have answer := commandFaults z cartridge
  obtain ⟨motion, settle, armed, timer, phase⟩ := answer.reels
  obtain ⟨stage, pending, emptied, inFlight⟩ := stop.wf
  obtain ⟨hm, dram, sensors⟩ := stop.kept
  obtain ⟨volume, anchor, scan⟩ := answer.dropped stop.dropped
  have unload : ejects ↔ z.executing = some .unld ∧ z.sensors.leader = .home := by
    rw [sensors]
    constructor
    · rintro ⟨unld, home, silent⟩
      exact ⟨(untold silent).2.2.trans unld, home⟩
    · rintro ⟨unld, home⟩
      have silent : ¬ reports := fun reporting => absurd ((told reporting).symm.trans unld) (by simp)
      exact ⟨(untold silent).2.2.symm.trans unld, home, silent⟩
  obtain ⟨spu, cu, pu, rtc, sv, vf, t_⟩ := answer.rest
  have wf_ : z.commandFaults.wf = { z.wf with volumeFull := vf } := by rw [t_]
  have hm_ : z.commandFaults.hm = z.hm := by rw [t_]
  have dbm_ : z.commandFaults.dbm = z.dbm := by rw [t_]
  have eu_ : z.commandFaults.eu = z.eu := by rw [t_]
  have sm_ : z.commandFaults.sm = z.sm := by rw [t_]
  have rdr_ : z.commandFaults.rdr = z.rdr := by rw [t_]
  refine ⟨z.commandFaults, next, fun up => answer.ejects (unload.mp up), fun stays => (answer.stays (mt unload.mpr stays)).trans cartridge,
    motion.trans (by rw [stop.rtc]; rfl), settle.trans (by rw [stop.rtc]; rfl), armed.trans (by rw [stop.rtc]; rfl), timer.trans (by rw [stop.rtc]; rfl),
    by rw [eu_]; exact stop.latched, answer.timebase stop.timebase, volume, by rw [wf_]; exact stage, by rw [wf_]; exact pending, by rw [wf_]; exact emptied,
    by rw [wf_]; exact inFlight, hm_.trans hm, by rw [dbm_]; exact dram, fun direction ring => ?_, fun q rest queue begun silent => ?_, anchor, scan,
    by rw [eu_]; exact stop.others 17 (by decide), by rw [eu_]; exact stop.others 18 (by decide), phase (by rw [stop.rtc]; rfl),
    fun ready => by rw [sm_]; exact stop.halted ready, fun direction => ?_⟩
  · obtain ⟨d, write⟩ := stop.writes direction
    obtain ⟨slots, neutral, seal_, record⟩ := write.slots ring
    rw [dbm_]
    refine ⟨slots, neutral, seal_, fun idle => ?_, fun q rest queue begun reporting => ?_⟩
    · have same := write.silent (.inl idle)
      rw [commandFaults_none ((executing_of_queue (by rw [same])).trans idle), same, record]
      exact ⟨rfl, rfl⟩
    · obtain ⟨deferred, queue_, place, sent⟩ := write.reports q rest queue begun reporting.2
      rw [commandFaults_none (told reporting), ← record]
      exact ⟨deferred, queue_, place, sent⟩
  · have queue_ : z.cu.queue = q :: rest := (untold silent).1.trans queue
    obtain ⟨load, home, out⟩ := stop.load_unld queue_ begun
    refine ⟨load, home, by rw [queue]; exact out, fun direction deferred load unld => ?_⟩
    obtain ⟨delivers, answered⟩ := stop.not_ready queue begun direction deferred load unld
    obtain ⟨rwnd, loct, spac, searches⟩ := stop.places queue begun direction
    refine ⟨delivers, fun waits => ?_⟩
    obtain ⟨queue', deferred', sent, pu'⟩ := answered waits
    rw [pu']
    exact ⟨queue', deferred', sent, rwnd, loct, spac, searches⟩
  · obtain ⟨-, way, idle, ended, -⟩ := stop.reads direction
    rw [dbm_, rdr_]
    exact ⟨way, idle, ended⟩

end Sys2Proof.Machine
end

section
/-!
SUPPORT. An attempt that fails (R49, R52, R54): what a verify result that closes it brings, and a hard write error.
-/
namespace Sys2Proof.Machine
open Sys2Proof.Laws

/-! ### The latches that a motion leaves set -/

/-- Every event latched stays latched. -/
def Latches (s t : State) : Prop := ∀ j : Fin 32, s.eu.latches[j].set = true → t.eu.latches[j].set = true

theorem Latches.refl (s : State) : Latches s s := fun _ h => h
theorem Latches.trans {s t u : State} (h : Latches s t) (k : Latches t u) : Latches s u := fun j l => k j (h j l)
theorem Latches.of_eu {s t : State} (h : t.eu = s.eu) : Latches s t := fun j l => by rw [h]; exact l

theorem Latches.raise (s : State) (ev : Event) : Latches s (s.raise ev) := fun j l => by
  rw [raise_eu]
  exact occur_keeps _ _ j l

theorem raise_latches (s : State) (ev : Event) : (s.raise ev).eu.latches[ev.num].set = true := by
  rw [raise_eu]
  exact occur_sets _ _

theorem Latches.applyScheduled (s : State) : Latches s s.applyScheduled := by
  unfold State.applyScheduled
  split
  · exact .refl s
  · exact .trans (t := s.onSm _) (.of_eu rfl) (.raise _ _)

theorem Latches.startMotion (s : State) : Latches s s.startMotion := by
  have accelerate (t : State) : Latches t t.tryAccelerate := by
    unfold State.tryAccelerate
    split
    · exact .of_eu rfl
    · exact .trans (Latches.applyScheduled t) (.of_eu rfl)
  unfold State.startMotion
  split
  · split
    · exact .of_eu rfl
    · exact accelerate s
  · exact .of_eu rfl
  · exact .of_eu rfl
  · exact accelerate s
  · exact .of_eu rfl
  · exact .of_eu rfl

theorem Latches.setGoal (s : State) (g : Goal) : Latches s (s.setGoal g) := by
  unfold State.setGoal
  dsimp only
  split
  · exact .refl s
  · split
    · exact .trans (t := s.onRtc _) (.of_eu rfl) (.startMotion _)
    · split <;> exact .of_eu rfl
    · exact .of_eu rfl
    · exact .of_eu rfl
    · split
      · split <;> exact .of_eu rfl
      · exact .of_eu rfl
    · split <;> exact .of_eu rfl

theorem Latches.resumeGoal (s : State) (g : Goal) : Latches s (s.resumeGoal g) := by
  unfold State.resumeGoal
  split
  · exact .of_eu rfl
  · exact .setGoal s g

theorem Latches.askWrapTurn (s : State) (w : Nat) : Latches s (s.askWrapTurn w) := by
  unfold State.askWrapTurn
  split <;> exact .setGoal s _

/-! ### A result that closes the attempt (R49) -/

theorem scoreRow_get (ts : Vector Tally 16) (c : Nat) (h : c < 16) (failed : Bool) (k : Fin 16) : (scoreRow ts c failed)[k] =
    if c = k.val then { rows := ts[k].rows + 1, failed := ts[k].failed + if failed then 1 else 0 } else ts[k] := by
  unfold scoreRow
  dsimp only
  by_cases e : c = k.val
  · subst e
    cases failed <;> simp
  · simp [e]

/-- What a channel's tally is once its part of a row set is scored (R53). -/
def InFlight.scored (f : InFlight) (bad : Nat → Bool) (ts : Vector Tally 16) (k : Fin 16) : Tally :=
  match f.rows[k] with
  | some _ => { rows := ts[k].rows + 1, failed := ts[k].failed + if bad k then 1 else 0 }
  | none => ts[k]

/-- The rows of a set scored, channel by channel: each channel that wrote one has it in its tally (R53). -/
theorem scoreRows_get (f : InFlight) (bad : Nat → Bool) (ts : Vector Tally 16) (k : Fin 16) :
    (f.placed.foldl (fun ts x => scoreRow ts x.2 (bad x.2)) ts)[k] = f.scored bad ts k := by
  have upTo (n : Nat) (le : n ≤ 16) :
      (((List.range n).filterMap (fun c => (f.rows.toArray.getD c none).map (fun r => (r, c)))).foldl (fun ts x => scoreRow ts x.2 (bad x.2)) ts)[k]
      = if k.val < n then f.scored bad ts k else ts[k] := by
    induction n with
    | zero => simp
    | succ n ih =>
      have before := ih (by omega)
      rw [List.range_succ, List.filterMap_append, List.foldl_append]
      generalize ((List.range n).filterMap (fun c => (f.rows.toArray.getD c none).map (fun r => (r, c)))).foldl
        (fun ts x => scoreRow ts x.2 (bad x.2)) ts = us at before ⊢
      have here : f.rows.toArray.getD n none = f.rows[n] := by simp [show n < 16 by omega]
      rw [List.filterMap_cons, here, List.filterMap_nil]
      by_cases same : n = k.val
      · subst same
        rw [if_neg (Nat.lt_irrefl _)] at before
        rw [if_pos (Nat.lt_succ_self _), InFlight.scored, ← before]
        cases e : f.rows[k] with
        | none => simp
        | some r =>
          have score := scoreRow_get us k k.isLt (bad k) k
          rw [if_pos rfl] at score
          simpa [e] using score
      · have unchanged : (if k.val < n + 1 then f.scored bad ts k else ts[k]) = us[k] := by
          rw [before]
          exact if_congr (by omega) rfl rfl
        rw [unchanged]
        cases f.rows[n] with
        | none => rfl
        | some r =>
          have score := scoreRow_get us n (by omega) (bad n) k
          rw [if_neg same] at score
          exact score
  have whole := upTo 16 (Nat.le_refl _)
  rw [if_pos k.isLt] at whole
  exact whole

theorem mem_placed {f : InFlight} {c : Fin 16} {r : Nat} (h : f.rows[c] = some r) : (r, c.val) ∈ f.placed := by
  refine List.mem_filterMap.mpr ⟨c.val, List.mem_range.mpr c.isLt, ?_⟩
  have here : f.rows.toArray.getD c.val none = f.rows[c] := by simp
  rw [here, h]
  rfl

/-- A failing row in its third write, or one more than the rewrite sets left can carry, closes the attempt (R49, R52). -/
theorem failRows_restarts {s : State} {failing : List (Nat × Nat)} {r c : Nat} (mem : (r, c) ∈ failing) (row : r < 256)
    (spent : 3 ≤ s.wf.count r ∨ 16 * (4 - s.wf.rewriteSets) < s.wf.queue.length + 1) :
    s.failRows failing = s.restartCause false
    ∨ ∃ queue : List Rewrite, s.failRows failing = (s.onWf (fun w => { w with inFlight := none, queue := queue })).restartCause false := by
  obtain ⟨y, found, same⟩ : ∃ y, failing.find? (fun x => x.1 == r) = some y ∧ y.1 = r := by
    cases e : failing.find? (fun x => x.1 == r) with
    | none => exact absurd (List.find?_eq_none.mp e _ mem) (by simp)
    | some y => exact ⟨y, rfl, by simpa using List.find?_some e⟩
  have listed : y ∈ (List.range 256).filterMap (fun r => failing.find? (fun x => x.1 == r)) :=
    List.mem_filterMap.mpr ⟨r, List.mem_range.mpr row, found⟩
  unfold State.failRows
  dsimp only
  generalize (List.range 256).filterMap (fun r => failing.find? (fun x => x.1 == r)) = ordered at listed ⊢
  split
  · exact .inl rfl
  · next none_ =>
    rcases spent with third | room
    · exact absurd (List.any_eq_true.mpr ⟨y, listed, by simpa [same] using third⟩) none_
    · refine .inr ⟨_, if_pos ?_⟩
      have one : 1 ≤ ordered.length := List.length_pos_of_mem listed
      simp only [onWf_wf, List.length_append, List.length_map]
      omega

theorem verify_restarts {s : State} {f : InFlight} {os : Vector RowOutcome 16} {c : Fin 16} {r : Nat} (stage : s.wf.stage = .span)
    (inFlight : s.wf.inFlight = some f) (row : f.rows[c] = some r) (lt : r < 256) (bad : fails s.cu.policy.margin os[c] = true)
    (spent : 3 ≤ s.wf.count r ∨ 16 * (4 - s.wf.rewriteSets) < s.wf.queue.length + 1) :
    ∃ (queue : List Rewrite) (tallies : Vector Tally 16),
      s.verify os = ({ s with wf := { s.wf with inFlight := none, queue := queue, tallies := tallies } } : State).restartCause false
      ∧ ∀ k : Fin 16, tallies[k] = f.scored (fun c => fails s.cu.policy.margin (os.toArray.getD c .uncorrectable)) s.wf.tallies k := by
  obtain ⟨judge, hj⟩ : ∃ judge : Nat → Bool, judge = fun c => fails s.cu.policy.margin (os.toArray.getD c .uncorrectable) := ⟨_, rfl⟩
  have mem : (r, c.val) ∈ f.placed.filter (fun x => judge x.2) := List.mem_filter.mpr ⟨mem_placed row, by rw [hj]; simpa using bad⟩
  obtain ⟨v, hv⟩ : ∃ v : State, v = { s with wf := { s.wf with
      inFlight := none, tallies := f.placed.foldl (fun ts x => scoreRow ts x.2 (judge x.2)) s.wf.tallies } } := ⟨_, rfl⟩
  have verified : s.verify os = v.failRows (f.placed.filter (fun x => judge x.2)) := by
    unfold State.verify
    rw [stage, inFlight, hv, hj]
    rfl
  rw [verified, ← hj]
  rcases failRows_restarts (s := v) mem lt (by rw [hv]; exact spent) with e | ⟨queue, e⟩
  · exact ⟨s.wf.queue, _, e.trans (by rw [hv]), scoreRows_get f judge s.wf.tallies⟩
  · exact ⟨queue, _, e.trans (by rw [hv]; rfl), scoreRows_get f judge s.wf.tallies⟩

end Sys2Proof.Machine
end

section
/-!
SUPPORT. A hard write error (R10, R54, R55, R109): the write path given up into the record, the EOD at the append point, and the mark that is pending.
-/
namespace Sys2Proof.Machine
open Sys2Proof.Laws

/-- The EOD record of a partition put back, where it is known. -/
theorem putEodBack_known {s : State} {p : Nat} {e : EodKnown} (known : s.pu.eod.getD p none = some e) (fm : Option Nat) (f : EodKnown → EodKnown) :
    (s.putEodBack p fm f).pu.eod.getD p none = some (f e) := by
  have inside := lt_length_of_getD_some known
  unfold State.putEodBack
  rw [known]
  dsimp only
  cases fm with
  | none => exact getD_set_same s.pu.eod p (f e) inside
  | some m => exact getD_set_same s.pu.eod p (f e) inside

theorem appendLoc_congr {s t : State} (append : t.wf.appendPoint = s.wf.appendPoint) (pu : t.pu = s.pu) : t.appendLoc = s.appendLoc := by
  unfold State.appendLoc State.partitionWraps
  rw [append, pu]

/-- The drive with the write path given up after a hard write error, its tape still to stop or to take the mark (R10, R54). -/
structure HardErred (s g : State) : Prop where
  rest : ∃ (dbm : Dbm) (rc : Rc) (sm : Sm) (eu : Eu) (hm : Hm) (spu : Spu) (eod : List (Option EodKnown)) (marks : List (Option Nat))
    (directory : List PartitionDirectory), g = { s with
      dbm := dbm, rc := rc, sm := sm, eu := eu, hm := hm, spu := spu, cu := { s.cu with deferred := some (s.deferredBy .writeError) },
      pu := { s.pu with eod := eod, eodFilemarks := marks, directory := directory },
      wf := { s.wf with inFlight := none, queue := [], tallies := Tally.zeros, misses := 0, planned := false } }
  slots : g.dbm.slots = []
  direction : g.dbm.direction = .neutral
  latched : g.eu.latches[0].set = true
  eod : ∀ e : EodKnown, s.pu.eod.getD s.pu.partition none = some e → g.pu.eod.getD s.pu.partition none
    = some { e with object := (s.deferredBy .writeError).first, mark := s.appendLoc, onTape := e.onTape && !s.wf.eodPending }

/-- A hard write error of a dataset, with no command to report it (R54). -/
theorem hardError_errs {s : State} (header : s.wf.header = none) (direction : s.dbm.direction = .write) (ring : s.dbm.RingSound)
    (idle : s.executing = none) :
    ∃ g : State, HardErred s g ∧ s.hardError = if s.wf.eodPending then g.beginMark .hardError false else g.wfStop := by
  obtain ⟨h, hh⟩ : ∃ h : State, h = (s.onWf (fun w => { w with inFlight := none, queue := [] })).handTallies := ⟨_, rfl⟩
  obtain ⟨eu, hm, sm, wf, out, handed⟩ := handTallies_rest (s.onWf (fun w => { w with inFlight := none, queue := [] }))
  have wf_ : h.wf = { s.wf with inFlight := none, queue := [], tallies := Tally.zeros } := by
    rw [hh, handTallies_wf]
    rfl
  have dbm_ : h.dbm = s.dbm := by rw [hh, handTallies_dbm]; rfl
  have rc_ : h.rc = s.rc := by rw [hh, handTallies_rc]; rfl
  have cu_ : h.cu = s.cu := by rw [hh, handTallies_cu]; rfl
  have pu_ : h.pu = s.pu := by rw [hh, handTallies_pu]; rfl
  obtain ⟨u, d, up, given, sound⟩ := discardWrite_gives_up (s := h) (by rw [dbm_]; exact direction) .writeError
  obtain ⟨slots, record⟩ := sound (by rw [dbm_]; exact ring)
  have d_ : d = s.deferredBy .writeError := record.trans (deferredBy_congr dbm_ rc_ cu_ pu_ _)
  obtain ⟨dbm, rc, u_⟩ := up.rest
  have silent : u.reportIfExecuting = u := reportIfExecuting_silent (.inl ((executing_of_queue (by rw [u_, cu_])).trans idle))
  have pending : h.wf.eodPending = s.wf.eodPending := by rw [wf_]
  have append : h.appendLoc = s.appendLoc := appendLoc_congr (by rw [wf_]) pu_
  obtain ⟨v, hv⟩ : ∃ v : State, v = u.raise .writeError := ⟨_, rfl⟩
  obtain ⟨back, hb⟩ : ∃ back : EodKnown → EodKnown, back = fun e => { e with
      object := d.first, mark := h.appendLoc, onTape := e.onTape && !h.wf.eodPending } := ⟨_, rfl⟩
  obtain ⟨b, hb'⟩ : ∃ b : State, b = v.putEodBack h.pu.partition h.filemarksUnwritten back := ⟨_, rfl⟩
  obtain ⟨eod, marks, directory, b_⟩ := putEodBack_rest v h.pu.partition h.filemarksUnwritten back
  rw [← hb'] at b_
  have v_ : v = { u with eu := v.eu, spu := v.spu } := by rw [hv]; exact raise_frame u .writeError
  have v_pu : v.pu = h.pu := by rw [hv, raise_pu, u_]
  refine ⟨b.onWf (fun w => { w with misses := 0, planned := false }), ⟨⟨dbm, rc, h.sm.halt, v.eu, h.hm, v.spu, eod, marks, directory, ?_⟩, ?_, ?_, ?_,
    fun e known => ?_⟩, ?_⟩
  · rw [b_, v_, u_, cu_, pu_, wf_, d_, hh, handed]
    rfl
  · rw [onWf_dbm, b_, hv, raise_dbm, slots]
  · rw [onWf_dbm, b_, hv, raise_dbm, up.direction]
  · rw [onWf_eu, b_, hv]
    exact raise_latches u .writeError
  · have put := putEodBack_known (s := v) (p := h.pu.partition) (e := e) (by rw [v_pu, pu_]; exact known) h.filemarksUnwritten back
    rw [← hb', hb, pu_, append, pending, d_] at put
    exact put
  · have whole : s.hardError = h.hardErrorData false := by
      have none_ : h.wf.header = none := by rw [wf_]; exact header
      unfold State.hardError
      dsimp only
      rw [← hh, none_]
    rw [whole]
    unfold State.hardErrorData
    dsimp only
    rw [given]
    dsimp only
    rw [silent, show (!false) = true from rfl, when_true, ← hv, ← hb, ← hb', pending]

end Sys2Proof.Machine
end

section
/-!
SUPPORT. What stands while the tape is stopped, or brought to an EOD mark's place, after the write path is given up (R54, R57, R60).
-/
namespace Sys2Proof.Machine
open Sys2Proof.Laws

/-- The tape stopped or on its way: what was given up stands. -/
structure Rests (g t : State) : Prop where
  dbm : t.dbm = g.dbm
  cu : t.cu = g.cu
  tape : t.tape = g.tape
  object : t.pu.object = g.pu.object
  latches : Latches g t
  wf : t.wf.inFlight = g.wf.inFlight ∧ t.wf.planned = g.wf.planned ∧ t.wf.tallies = g.wf.tallies ∧ t.wf.volumeFull = g.wf.volumeFull

theorem Rests.trans {s t u : State} (h : Rests s t) (k : Rests t u) : Rests s u :=
  have ⟨inFlight, planned, tallies, full⟩ := h.wf
  have ⟨inFlight', planned', tallies', full'⟩ := k.wf
  ⟨k.dbm.trans h.dbm, k.cu.trans h.cu, k.tape.trans h.tape, k.object.trans h.object, h.latches.trans k.latches,
    inFlight'.trans inFlight, planned'.trans planned, tallies'.trans tallies, full'.trans full⟩

theorem Rests.of_moves {g t : State} (moves : Moves g t) (latches : Latches g t) : Rests g t := by
  obtain ⟨rtc, sv, sm, wf, eu, out, e⟩ := moves.rest
  obtain ⟨stage, w, -⟩ := moves.wf
  exact ⟨by rw [e], by rw [e], by rw [e], by rw [e], latches, by rw [w]; exact ⟨rfl, rfl, rfl, rfl⟩⟩

theorem Rests.stage (g : State) (st : WfStage) : Rests g (g.stage st) := ⟨rfl, rfl, rfl, rfl, .of_eu rfl, rfl, rfl, rfl, rfl⟩

theorem Rests.writePoint (g : State) (x : Option (Nat × Loc)) : Rests g (g.onWf (fun w => { w with writePoint := x })) :=
  ⟨rfl, rfl, rfl, rfl, .of_eu rfl, rfl, rfl, rfl, rfl⟩

theorem Rests.wfStop (g : State) : Rests g g.wfStop := (Rests.stage g .idle).trans (.of_moves (Moves.setGoal _ _) (.setGoal _ _))

theorem Rests.reportMark (g : State) (l : Loc) (onTape : Bool) : Rests g (g.reportMark l onTape) := by
  obtain ⟨eod, directory, e, -⟩ := reportMark_eq g l onTape
  rw [e]
  exact ⟨rfl, rfl, rfl, rfl, .of_eu rfl, rfl, rfl, rfl, rfl⟩

/-- A resume: the activity is the run-up to its target, and the tape is under way (R62). -/
theorem resumeAt_moves (s : State) (t : Loc) (work : WfWork) (repositioning : Bool) :
    Moves (s.stage (.runUp t work repositioning)) (s.resumeAt t work repositioning)
    ∧ Latches (s.stage (.runUp t work repositioning)) (s.resumeAt t work repositioning) := ⟨Moves.resumeGoal _ _, Latches.resumeGoal _ _⟩

theorem Moves.stage_runUp {s t : State} {l : Loc} {work : WfWork} (h : Moves s t) (stage : s.wf.stage = .runUp l work false) :
    t.wf.stage = .runUp l work false := by
  obtain ⟨st, wf, same | ⟨l', k, b, e, e'⟩⟩ := h.wf
  · rw [wf]
    exact same.trans stage
  · rw [wf]
    rw [stage] at e
    obtain ⟨rfl, rfl, -⟩ := WfStage.runUp.inj e
    exact e'

/-- A resume to the place of an EOD mark (R57, R62). -/
def State.resumeMark (g : State) (kind : MarkKind) (t : Loc) : State :=
  (g.onWf (fun w => { w with writePoint := some (g.pu.partition, t) })).resumeAt t (.mark kind) false

/-- The mark is what the Write Formatter runs up to, and stays pending. -/
structure MarkDue (g r : State) (kind : MarkKind) (t : Loc) : Prop where
  rests : Rests g r
  pu : r.pu = g.pu
  stage : r.wf.stage = .runUp t (.mark kind) false
  pending : r.wf.eodPending = g.wf.eodPending
  writePoint : r.wf.writePoint = some (g.pu.partition, t)

theorem MarkDue.of_moves {g r : State} {kind : MarkKind} {t : Loc}
    (moves : Moves ((g.onWf (fun w => { w with writePoint := some (g.pu.partition, t) })).stage (.runUp t (.mark kind) false)) r)
    (latches : Latches ((g.onWf (fun w => { w with writePoint := some (g.pu.partition, t) })).stage (.runUp t (.mark kind) false)) r) :
    MarkDue g r kind t := by
  have stage := moves.stage_runUp rfl
  have rests := ((Rests.writePoint g _).trans (.stage _ _)).trans (.of_moves moves latches)
  obtain ⟨rtc, sv, sm, wf, eu, out, e⟩ := moves.rest
  obtain ⟨st, w, -⟩ := moves.wf
  exact ⟨rests, by rw [e]; rfl, stage, by rw [w]; rfl, by rw [w]; rfl⟩

theorem resumeMark_due (g : State) (kind : MarkKind) (t : Loc) : MarkDue g (g.resumeMark kind t) kind t :=
  have ⟨moves, latches⟩ := resumeAt_moves (g.onWf (fun w => { w with writePoint := some (g.pu.partition, t) })) t (.mark kind) false
  .of_moves moves latches

/-- The mark given up: its place reported, the tape stopped (R57, log 68). -/
structure MarkPassed (g r : State) (a : Loc) (onTape : Bool) : Prop where
  rests : Rests g r
  stage : r.wf.stage = .idle
  pending : r.wf.eodPending = false
  eod : r.pu.eod.getD g.pu.partition none = (g.pu.eod.getD g.pu.partition none).map (fun e => { e with mark := a, onTape := onTape })

theorem markPassed (g : State) (a : Loc) (onTape : Bool) : MarkPassed g (g.reportMark a onTape).wfStop a onTape := by
  obtain ⟨eod, directory, reported, known⟩ := reportMark_eq g a onTape
  obtain ⟨rtc, sv, e⟩ := (wfStop_drives (g.reportMark a onTape)).rest
  refine ⟨(Rests.reportMark g a onTape).trans (.wfStop _), ?_, ?_, ?_⟩
  · rw [e]
    rfl
  · rw [e, reported]
    rfl
  · rw [e, reported]
    exact known

/-- Where the EOD mark that a hard write error left pending is attempted (R54, R57). -/
theorem beginMark_once (g : State) : g.beginMark .hardError = match g.markAt g.appendLoc with
    | none => (g.reportMark g.appendLoc false).wfStop
    | some t => g.resumeMark .hardError t := by
  unfold State.beginMark State.resumeMark
  dsimp only
  cases g.markAt g.appendLoc with
  | none => rfl
  | some t => simp [MarkKind.once]

theorem markAt_here {g : State} {a : Loc} (room : 2 ≤ g.remaining a) : g.markAt a = some a := if_pos room

theorem markAt_next {g : State} {a : Loc} (short : g.remaining a < 2) (more : a.wrap < g.lastWrap) : g.markAt a = some ⟨a.wrap + 1, 0⟩ := by
  unfold State.markAt
  rw [if_neg (by omega), if_pos more]

theorem markAt_none {g : State} {a : Loc} (short : g.remaining a < 2) (last : g.lastWrap ≤ a.wrap) : g.markAt a = none := by
  unfold State.markAt
  rw [if_neg (by omega), if_neg (by omega)]

end Sys2Proof.Machine
end

section
/-!
PROPERTY. The end of an attempt by a verify result: the separator due, or at the restart limit the hard write error (R49, R52, R54).
-/
namespace Sys2Proof.Machine
open Sys2Proof.Laws

/-- What a hard write error comes to at once, whatever becomes of the mark. -/
structure HardEnds (s t : State) : Prop where
  slots : t.dbm.slots = []
  direction : t.dbm.direction = .neutral
  deferred : t.cu.deferred = some (s.deferredBy .writeError)
  queue : t.cu.queue = s.cu.queue
  latched : t.eu.latches[0].set = true
  wf : t.wf.inFlight = none ∧ t.wf.planned = false ∧ ∀ k : Fin 16, t.wf.tallies[k] = { rows := 0, failed := 0 }
  object : t.pu.object = s.pu.object
  tape : t.tape = s.tape

theorem HardErred.ends {s g t : State} (erred : HardErred s g) (rests : Rests g t) : HardEnds s t := by
  obtain ⟨dbm, rc, sm, eu, hm, spu, eod, marks, directory, e⟩ := erred.rest
  obtain ⟨inFlight, planned, tallies, -⟩ := rests.wf
  refine ⟨by rw [rests.dbm, erred.slots], by rw [rests.dbm, erred.direction], by rw [rests.cu, e], by rw [rests.cu, e], rests.latches 0 erred.latched,
    ⟨inFlight.trans (by rw [e]), planned.trans (by rw [e]), fun k => ?_⟩, rests.object.trans (by rw [e]), rests.tape.trans (by rw [e])⟩
  rw [tallies, e]
  exact tally_zero k

/-- The EOD and the mark after a hard write error. -/
theorem hardError_ends {s : State} (header : s.wf.header = none) (direction : s.dbm.direction = .write) (ring : s.dbm.RingSound)
    (idle : s.executing = none) : HardEnds s s.hardError ∧ s.hardError.cu = { s.cu with deferred := some (s.deferredBy .writeError) }
      ∧ (s.wf.eodPending = false → s.hardError.wf.stage = .idle
        ∧ (∀ e : EodKnown, s.pu.eod.getD s.pu.partition none = some e → s.hardError.pu.eod.getD s.pu.partition none
            = some { e with object := (s.deferredBy .writeError).first, mark := s.appendLoc }))
      ∧ (∀ a : Loc, s.wf.eodPending = true → s.wf.appendPoint = some a →
        (∀ e : EodKnown, s.pu.eod.getD s.pu.partition none = some e → s.hardError.pu.eod.getD s.pu.partition none
            = some { e with object := (s.deferredBy .writeError).first, mark := a, onTape := false })
        ∧ (a.pitch + 2 ≤ s.pitches → s.hardError.wf.stage = .runUp a (.mark .hardError) false ∧ s.hardError.wf.eodPending = true
            ∧ s.hardError.wf.writePoint = some (s.pu.partition, a))
        ∧ (s.pitches < a.pitch + 2 → s.lastWrap ≤ a.wrap → s.hardError.wf.stage = .idle ∧ s.hardError.wf.eodPending = false)) := by
  obtain ⟨g, erred, e⟩ := hardError_errs header direction ring idle
  obtain ⟨dbm, rc, sm, eu, hm, spu, eod, marks, directory, g_⟩ := erred.rest
  have cu : g.cu = { s.cu with deferred := some (s.deferredBy .writeError) } := by rw [g_]
  have partition : g.pu.partition = s.pu.partition := by rw [g_]
  have remaining (a : Loc) : g.remaining a = s.pitches - a.pitch := (remaining_congr (by rw [g_]) a).trans rfl
  have lastWrap : g.lastWrap = s.lastWrap := by rw [g_]; rfl
  cases pending : s.wf.eodPending with
  | false =>
    rw [pending, if_neg (by simp)] at e
    rw [e]
    refine ⟨erred.ends (.wfStop g), (Rests.wfStop g).cu.trans cu, fun _ => ?_, fun a yes => absurd yes (by simp)⟩
    obtain ⟨rtc, sv, w⟩ := (wfStop_drives g).rest
    rw [w]
    refine ⟨rfl, fun k known => (erred.eod k known).trans ?_⟩
    simp [pending]
  | true =>
    rw [pending, if_pos rfl] at e
    have put (a : Loc) (append : s.wf.appendPoint = some a) (k : EodKnown) (known : s.pu.eod.getD s.pu.partition none = some k) :
        g.pu.eod.getD s.pu.partition none = some { k with object := (s.deferredBy .writeError).first, mark := a, onTape := false } := by
      rw [erred.eod k known, appendLoc_eq append, pending]
      simp
    have rests : Rests g (g.beginMark .hardError) := by
      rw [beginMark_once]
      cases g.markAt g.appendLoc with
      | none => exact (markPassed g g.appendLoc false).rests
      | some t => exact (resumeMark_due g .hardError t).rests
    rw [e]
    refine ⟨erred.ends rests, rests.cu.trans cu, fun no => absurd no (by simp), fun a _ append => ?_⟩
    rw [beginMark_once, appendLoc_eq (a := a) (by rw [g_]; exact append)]
    by_cases room : a.pitch + 2 ≤ s.pitches
    · have resumed := resumeMark_due g .hardError a
      rw [markAt_here (by rw [remaining]; omega)]
      dsimp only
      refine ⟨by rw [resumed.pu]; exact put a append, fun _ => ⟨resumed.stage, resumed.pending.trans (by rw [g_]; exact pending),
        by rw [resumed.writePoint, partition]⟩, fun short => absurd room (by omega)⟩
    · by_cases last : s.lastWrap ≤ a.wrap
      · have passed := markPassed g a false
        rw [markAt_none (by rw [remaining]; omega) (by rw [lastWrap]; exact last)]
        dsimp only
        refine ⟨fun k known => ?_, fun yes => absurd yes room, fun _ _ => ⟨passed.stage, passed.pending⟩⟩
        have eod := passed.eod
        rw [partition] at eod
        rw [eod, put a append k known]
        rfl
      · have resumed := resumeMark_due g .hardError ⟨a.wrap + 1, 0⟩
        rw [markAt_next (by rw [remaining]; omega) (by rw [lastWrap]; omega)]
        dsimp only
        exact ⟨by rw [resumed.pu]; exact put a append, fun yes => absurd yes room, fun _ le => absurd le last⟩

/-- While the Write Formatter has work in hand nothing follows a step, whatever waits for the writing. -/
theorem advance_of_busy {s : State} (idle : s.wf.stage ≠ .idle) (resting : s.wf.stage ≠ .backhitched) (other : s.cu.progress ≠ .filemarks) :
    s.advance = s := by
  have once : s.advanceOnce = s := by
    have busy : s.writtenOut = false := by simp [State.writtenOut, Wf.quiet, idle, resting]
    unfold State.advanceOnce
    rw [wfKick_of_busy (writesNext_of_stage idle resting)]
    simp only [busy, Bool.not_false, if_true]
    split
    · rfl
    · rfl
    · rfl
    · next e => exact absurd e other
    · rfl
  rw [State.advance, once, once]

section
variable {s : State} {f : InFlight} {os : Vector RowOutcome 16} {c : Fin 16} {r : Nat}

/-- A verify result that closes the attempt: a separator is due, on the next pitch announced (R49, R52). -/
theorem attempt_closes (stage : s.wf.stage = .span) (inFlight : s.wf.inFlight = some f) (other : s.cu.progress ≠ .filemarks)
    (row : f.rows[c] = some r) (lt : r < 256) (bad : fails s.cu.policy.margin os[c] = true)
    (spent : 3 ≤ s.wf.count r ∨ 16 * (4 - s.wf.rewriteSets) < s.wf.queue.length + 1) (more : s.attemptNumber < 1 + s.cu.policy.restartLimit) :
    ∃ t : State, exec (.verifyResult os) s = .next t ∧ t.wf.stage = .closing .restart none ∧ t.wf.inFlight = none
      ∧ (∀ k : Fin 16, t.wf.tallies[k] = match f.rows[k] with
          | some _ => { rows := s.wf.tallies[k].rows + 1,
                        failed := s.wf.tallies[k].failed + if fails s.cu.policy.margin os[k] then 1 else 0 }
          | none => s.wf.tallies[k])
      ∧ t.dbm = s.dbm ∧ t.cu = s.cu ∧ t.pu = s.pu ∧ t.hm = s.hm ∧ t.rtc = s.rtc ∧ t.spu = s.spu ∧ t.eu = s.eu ∧ t.tape = s.tape := by
  obtain ⟨queue, tallies, verified, scored⟩ := verify_restarts stage inFlight row lt bad spent
  obtain ⟨t, ht⟩ : ∃ t : State, t = { s with wf := { s.wf with
      stage := .closing .restart none, inFlight := none, queue := queue, tallies := tallies } } := ⟨_, rfl⟩
  have restarts : s.verify os = t := by
    rw [verified, ht]
    unfold State.restartCause
    exact if_neg (show ¬ 1 + s.cu.policy.restartLimit ≤ s.attemptNumber by omega)
  have next : exec (.verifyResult os) s = .next t := by
    refine congrArg Host.Outcome.next ?_
    rw [restarts]
    exact advance_of_busy (by rw [ht]; simp) (by rw [ht]; simp) (by rw [ht]; exact other)
  refine ⟨t, next, ?_⟩
  rw [ht]
  refine ⟨rfl, rfl, fun k => (scored k).trans ?_, rfl, rfl, rfl, rfl, rfl, rfl, rfl, rfl⟩
  unfold InFlight.scored
  cases f.rows[k] with
  | none => rfl
  | some r => simp

/-- A verify result that closes the last attempt: the hard write error (R54). -/
theorem attempt_errs (stage : s.wf.stage = .span) (inFlight : s.wf.inFlight = some f) (header : s.wf.header = none) (other : s.cu.progress ≠ .filemarks)
    (row : f.rows[c] = some r) (lt : r < 256) (bad : fails s.cu.policy.margin os[c] = true)
    (spent : 3 ≤ s.wf.count r ∨ 16 * (4 - s.wf.rewriteSets) < s.wf.queue.length + 1) (limit : 1 + s.cu.policy.restartLimit ≤ s.attemptNumber)
    (direction : s.dbm.direction = .write) (ring : s.dbm.RingSound) (idle : s.executing = none) (waits : s.cu.progress.waitsForWriting = false) :
    ∃ t : State, exec (.verifyResult os) s = .next t ∧ HardEnds s t
      ∧ (s.wf.eodPending = false → t.wf.stage = .idle
        ∧ (∀ e : EodKnown, s.pu.eod.getD s.pu.partition none = some e → t.pu.eod.getD s.pu.partition none
            = some { e with object := (s.deferredBy .writeError).first, mark := s.appendLoc }))
      ∧ (∀ a : Loc, s.wf.eodPending = true → s.wf.appendPoint = some a →
        (∀ e : EodKnown, s.pu.eod.getD s.pu.partition none = some e → t.pu.eod.getD s.pu.partition none
            = some { e with object := (s.deferredBy .writeError).first, mark := a, onTape := false })
        ∧ (a.pitch + 2 ≤ s.pitches → t.wf.stage = .runUp a (.mark .hardError) false ∧ t.wf.eodPending = true
            ∧ t.wf.writePoint = some (s.pu.partition, a))
        ∧ (s.pitches < a.pitch + 2 → s.lastWrap ≤ a.wrap → t.wf.stage = .idle ∧ t.wf.eodPending = false)) := by
  obtain ⟨queue, tallies, verified, -⟩ := verify_restarts stage inFlight row lt bad spent
  obtain ⟨v, hv⟩ : ∃ v : State, v = { s with wf := { s.wf with inFlight := none, queue := queue, tallies := tallies } } := ⟨_, rfl⟩
  have errs : s.verify os = v.hardError := by
    rw [verified, ← hv]
    exact if_pos (by rw [hv]; exact limit)
  obtain ⟨ends, cu, rest⟩ := hardError_ends (s := v) (by rw [hv]; exact header) (by rw [hv]; exact direction) (by rw [hv]; exact ring)
    ((executing_of_queue (by rw [hv])).trans idle)
  have given : v.deferredBy .writeError = s.deferredBy .writeError :=
    deferredBy_congr (by rw [hv]) (by rw [hv]) (by rw [hv]) (by rw [hv]) _
  have next : exec (.verifyResult os) s = .next v.hardError := by
    refine congrArg Host.Outcome.next ?_
    rw [errs]
    exact advance_eq (writesNext_of_direction (by rw [ends.direction]; simp)) (by rw [cu, hv]; exact waits) (by rw [cu, hv]; exact other)
  refine ⟨v.hardError, next, ?_, ?_⟩
  · exact ⟨ends.slots, ends.direction, ends.deferred.trans (by rw [given]), ends.queue.trans (by rw [hv]), ends.latched, ends.wf,
      ends.object.trans (by rw [hv]), ends.tape.trans (by rw [hv])⟩
  · rw [given] at rest
    subst hv
    exact rest

end

end Sys2Proof.Machine
end

section
/-!
PROPERTY. A loss of the timebase while the separator of a restart is written (R63, R152), and the announced pitch of a streaming tape (R151).
-/
namespace Sys2Proof.Machine
open Sys2Proof.Laws

/-! ### With nothing read, a place goes by the Reader and the scan -/

theorem readIdle_iff (s : State) : s.readIdle = true ↔
    s.pu.scan = none ∧ s.rdr.classifies = false ∧ s.rdr.target = none ∧ s.rdr.wanted = false := by
  simp [State.readIdle, and_assoc]

theorem readIdle_congr {s t : State} (rdr : t.rdr = s.rdr) (scan : t.pu.scan = s.pu.scan) : t.readIdle = s.readIdle := by
  simp [State.readIdle, rdr, scan]

theorem readerAt_idle {s : State} (idle : s.readIdle = true) (l : Loc) : s.readerAt l = s := by
  obtain ⟨-, -, target, -⟩ := (readIdle_iff s).mp idle
  unfold State.readerAt
  rw [target]

theorem scanAt_idle {s : State} (idle : s.readIdle = true) (l : Loc) : s.scanAt l = s := by
  obtain ⟨scan, -⟩ := (readIdle_iff s).mp idle
  unfold State.scanAt
  rw [scan]

theorem headerPassed_idle {s : State} (idle : s.readIdle = true) (l : Loc) : s.headerPassed l = s := by
  obtain ⟨-, classifies, -⟩ := (readIdle_iff s).mp idle
  simp [State.headerPassed, classifies]

/-- A place passed while the tape decelerates to be repositioned: only where the reels are known to be (R123). -/
theorem passBlind_repositioning {s : State} (idle : s.readIdle = true) (motion : s.rtc.motion = .decelerating) {l : Loc} {work : WfWork}
    (stage : s.wf.stage = .runUp l work true) : ∃ place : Option Nat, s.passBlind = { s with rtc := { s.rtc with place := place } } := by
  unfold State.passBlind
  split
  · unfold State.passUnlocked
    dsimp only
    split
    · next p _ =>
      have at_ (word : Nat) (m : Loc) : (((s.tapeAt word).readerAt m).headerPassed m).scanAt m = s.tapeAt word := by
        have same : (s.tapeAt word).readIdle = true := idle
        rw [readerAt_idle same, headerPassed_idle same, scanAt_idle same]
      rw [at_]
      unfold State.wfUnlocked
      have same (word : Nat) : (s.tapeAt word).wf.stage = .runUp l work true := stage
      rw [same]
      exact ⟨_, rfl⟩
    · refine ⟨_, if_pos ?_⟩
      simp [State.tapeAt, motion]
  · exact ⟨s.rtc.place, rfl⟩

/-! ### The loss (R152) -/

theorem beingWritten_closing {s : State} {w q : Nat} {k : CloseKind} (head : s.rtc.headWrap = some w) (at_ : s.sv.lastPlace = some (.pitch q))
    (stage : s.wf.stage = .closing k (some ⟨w, q⟩)) : s.beingWritten = some ⟨w, q⟩ := by
  unfold State.beingWritten
  rw [head, at_]
  dsimp only
  rw [stage]
  simp

/-- A resume of a streaming tape: it comes to rest first (R62). -/
theorem resumeAt_streaming {s : State} (takes : s.rtc.takesGoals = true) (motion : s.rtc.motion = .streaming) (busy : s.wf.stage ≠ .backhitched)
    (t : Loc) (work : WfWork) (repositioning : Bool) :
    s.resumeAt t work repositioning = ((s.stage (.runUp t work repositioning)).onRtc (fun r => { r with goal := .runUp t false })).decelerate := by
  have placed : (s.wf.stage == .backhitched && t == s.appendLoc) = false := by simp [busy]
  have streams : ((s.stage (.runUp t work repositioning)).rtc.takesGoals && ((s.stage (.runUp t work repositioning)).rtc.motion == .streaming
      || (s.stage (.runUp t work repositioning)).rtc.motion == .accelerating)) = true := by
    simp [State.stage, takes, motion]
  unfold State.resumeAt State.resumeGoal
  dsimp only
  rw [placed, if_neg (by simp), if_pos streams]

/-- A separator of a restart that the loss of the timebase cuts off is laid again from its pitch (R63, R152). -/
theorem separator_lost {s : State} {w q : Nat} {at_ : Instant} (reads : s.readIdle = true) (judged : s.judged = true)
    (locked : s.sv.timebase = .locked) (burst : s.sv.lastBurst = some at_) (missed : 2 ≤ s.sv.missCount) (head : s.rtc.headWrap = some w)
    (place : s.sv.lastPlace = some (.pitch q)) (header : s.wf.header = none) (other : s.cu.progress ≠ .filemarks) (takes : s.rtc.takesGoals = true)
    (motion : s.rtc.motion = .streaming) (stage : s.wf.stage = .closing .restart (some ⟨w, q⟩)) : ∃ t : State,
      exec .timebaseLost s = .next t ∧ t.tape = s.tape ++ [.cutOff ⟨w, q⟩] ∧ t.wf.stage = .runUp ⟨w, q⟩ (.separator .restart) true
      ∧ t.rtc.motion = .decelerating ∧ t.rtc.goal = .runUp ⟨w, q⟩ false ∧ t.eu.latches[3].set = true ∧ t.wf.restarts = s.wf.restarts
      ∧ t.wf.tallies = s.wf.tallies ∧ t.dbm = s.dbm ∧ t.cu = s.cu ∧ t.hm = s.hm := by
  obtain ⟨v, hv⟩ : ∃ v : State, v = (s.onSv (fun v => { v with lastBurst := some (at_.add s.sv.interval) })).onSv (fun v =>
      { v.leaveLocked with timebase := .lost, missCount := 0, lastValid := false }) := ⟨_, rfl⟩
  obtain ⟨r, hr⟩ : ∃ r : State, r = v.raise .servoLost := ⟨_, rfl⟩
  have latched : r.eu.latches[3].set = true := by rw [hr]; exact raise_latches v .servoLost
  have frame : r = { v with eu := r.eu, spu := r.spu } := by rw [hr]; exact raise_frame v .servoLost
  obtain ⟨c, hc⟩ : ∃ c : State, c = { r with
      tape := r.tape ++ [.cutOff ⟨w, q⟩], wf := { r.wf with writePoint := r.wf.writePoint.map (fun x => (x.1, ⟨w, q⟩)) } } := ⟨_, rfl⟩
  have lost : r.wfLost = c.resumeAt ⟨w, q⟩ (.separator .restart) true := by
    have written : r.beingWritten = some ⟨w, q⟩ :=
      beingWritten_closing (by rw [frame, hv]; exact head) (by rw [frame, hv]; exact place) (by rw [frame, hv]; exact stage)
    have cut : r.cutOff = { r with tape := r.tape ++ [.cutOff ⟨w, q⟩] } := by
      unfold State.cutOff
      rw [written]
      rfl
    unfold State.wfLost
    dsimp only
    rw [cut]
    dsimp only
    rw [show r.wf.stage = .closing .restart (some ⟨w, q⟩) by rw [frame, hv]; exact stage, show r.wf.header = none by rw [frame, hv]; exact header, hc]
    rfl
  have stage_ : c.wf.stage = .closing .restart (some ⟨w, q⟩) := by rw [hc, frame, hv]; exact stage
  have resumed := resumeAt_streaming (s := c) (by rw [hc, frame, hv]; exact takes) (by rw [hc, frame, hv]; exact motion) (by rw [stage_]; simp) ⟨w, q⟩
    (.separator .restart) true
  obtain ⟨place_, passed⟩ := passBlind_repositioning (s := r.wfLost) (l := ⟨w, q⟩) (work := .separator .restart)
    (by rw [lost, resumed, hc, frame, hv]; exact reads) (by rw [lost, resumed]; rfl) (by rw [lost, resumed]; rfl)
  have loses : s.losingBurst = r.wfLost.passBlind.advance := by
    have miss : s.missed (some (at_.add s.sv.interval)) = r.wfLost.passBlind := by
      rw [State.missed, if_pos missed, hr, hv]
      rfl
    have missing : s.burstMissing = r.wfLost.passBlind := by
      unfold State.burstMissing
      rw [judged, burst]
      dsimp only
      rw [locked]
      exact miss
    unfold State.losingBurst
    rw [if_pos (by simp [State.locked, locked, judged, missed]), missing]
  obtain ⟨t, ht⟩ : ∃ t : State, t = r.wfLost.passBlind := ⟨_, rfl⟩
  have cu : t.cu = s.cu := by rw [ht, passed, lost, resumed, hc, frame, hv]; rfl
  have due : t.wf.stage = .runUp ⟨w, q⟩ (.separator .restart) true := by rw [ht, passed, lost, resumed]; rfl
  have next : exec .timebaseLost s = .next t := by
    refine congrArg Host.Outcome.next ?_
    rw [loses, ← ht]
    exact advance_of_busy (by rw [due]; simp) (by rw [due]; simp) (by rw [cu]; exact other)
  refine ⟨t, next, ?_, due, ?_, ?_, ?_, ?_, ?_, ?_, cu, ?_⟩ <;> rw [ht, passed, lost, resumed, hc]
  · rw [frame, hv]; rfl
  · rfl
  · rfl
  · exact latched
  · rw [frame, hv]; rfl
  · rw [frame, hv]; rfl
  · rw [frame, hv]; rfl
  · rw [frame, hv]; rfl

end Sys2Proof.Machine
end

section
/-!
SUPPORT. A pitch announced on a streaming tape by a valid burst (R148, R151, R153, R154), and a tally's part in the Speed Matcher's schedule (R73).
-/
namespace Sys2Proof.Machine
open Sys2Proof.Laws

/-! ### A valid burst -/

/-- What a valid burst brings before the Write Formatter has its pitch: the servo's reading, the place of the reels, a deviation latched. -/
structure Announced (s u : State) (lateral : Int) : Prop where
  rest : ∃ (sv : Sv) (place : Option Nat) (eu : Eu) (spu : Spu), u = { s with sv := sv, rtc := { s.rtc with place := place }, eu := eu, spu := spu }
  timebase : u.sv.timebase = s.sv.timebase
  kind : u.sv.kind = s.sv.kind
  inhibit : u.sv.inhibit = decide (s.cu.policy.offTrack < lateral.natAbs)

theorem placeOf_wordOf {pitches w p : Nat} (inside : p < pitches) : placeOf pitches w (wordOf pitches ⟨w, p⟩) = .pitch p := by
  unfold placeOf wordOf
  generalize Config.turnaround = edge
  by_cases even : w % 2 = 0
  · simp only [if_pos even]
    rw [if_neg (by rw [Bool.or_eq_true, decide_eq_true_iff, decide_eq_true_iff]; omega), Nat.add_sub_cancel_left]
  · simp only [if_neg even]
    rw [if_neg (by rw [Bool.or_eq_true, decide_eq_true_iff, decide_eq_true_iff]; omega)]
    congr 1
    omega

theorem monitor_rest (s : State) : ∃ (sv : Sv) (eu : Eu) (spu : Spu), s.monitor = { s with sv := sv, eu := eu, spu := spu }
    ∧ sv.timebase = s.sv.timebase ∧ sv.kind = s.sv.kind := by
  unfold State.monitor
  split
  · exact ⟨s.sv, s.eu, s.spu, rfl, rfl, rfl⟩
  · dsimp only
    unfold State.when
    split
    · dsimp only
      rw [raise_frame]
      exact ⟨_, _, _, rfl, rfl, rfl⟩
    · exact ⟨_, _, _, rfl, rfl, rfl⟩

/-- A valid burst of a locked timebase, its pitch handed to the Write Formatter with nothing read. -/
theorem burst_announces {s : State} {b : Burst} {w word p : Nat} {lateral : Int} (reads : s.readIdle = true) (judged : s.judged = true)
    (locked : s.sv.timebase = .locked) (head : s.rtc.headWrap = some w) (merged : mergeReadings b.ch0 b.ch1 = some (word, lateral))
    (accepts : s.sv.accepts b.time true = true) (word_ : word = wordOf s.pitches ⟨w, p⟩) (inside : p < s.pitches) :
    ∃ u : State, Announced s u lateral ∧ s.burst b = u.wfPitch ⟨w, p⟩ := by
  obtain ⟨history, validated⟩ : ∃ history : List Instant, s.validBurst b.time w word lateral =
      ((({ s with sv := { s.sv with missCount := 0, lastBurst := some b.time, lastValid := true, history := history } } : State).when
        s.sv.lastValid State.monitor).lateralReading lateral).announce w (placeOf
          (({ s with sv := { s.sv with missCount := 0, lastBurst := some b.time, lastValid := true, history := history } } : State).when
            s.sv.lastValid State.monitor).pitches w word) := ⟨_, rfl⟩
  obtain ⟨v, hv⟩ : ∃ v : State, v = { s with
      sv := { s.sv with missCount := 0, lastBurst := some b.time, lastValid := true, history := history } } := ⟨_, rfl⟩
  rw [← hv] at validated
  obtain ⟨sv, eu, spu, m_, timebase, kind⟩ : ∃ (sv : Sv) (eu : Eu) (spu : Spu), v.when s.sv.lastValid State.monitor = { v with sv := sv, eu := eu, spu := spu }
      ∧ sv.timebase = v.sv.timebase ∧ sv.kind = v.sv.kind := by
    cases s.sv.lastValid with
    | true => exact monitor_rest v
    | false => exact ⟨v.sv, v.eu, v.spu, rfl, rfl, rfl⟩
  obtain ⟨m, hm⟩ : ∃ m : State, m = v.when s.sv.lastValid State.monitor := ⟨_, rfl⟩
  rw [← hm] at m_
  have pitches : m.pitches = s.pitches := pitches_congr (by rw [m_, hv])
  obtain ⟨u, hu⟩ : ∃ u : State, u = ((m.lateralReading lateral).onSv (fun v => { v with lastPlace := some (.pitch p) })).tapeAt (wordOf s.pitches ⟨w, p⟩) :=
    ⟨_, rfl⟩
  have same : u.readIdle = true := (readIdle_congr (s := s) (by rw [hu, m_, hv]; rfl) (by rw [hu, m_, hv]; rfl)).trans reads
  refine ⟨u, ⟨⟨u.sv, u.rtc.place, eu, spu, ?_⟩, ?_, ?_, ?_⟩, ?_⟩
  · rw [hu, m_, hv]
    rfl
  · rw [hu]
    exact (show m.sv.timebase = _ by rw [m_]; exact timebase.trans (by rw [hv]))
  · rw [hu]
    exact (show m.sv.kind = _ by rw [m_]; exact kind.trans (by rw [hv]))
  · rw [hu, m_, hv]
    rfl
  · have valid : s.burst b = s.validBurst b.time w word lateral := by
      unfold State.burst
      rw [judged, merged, head, locked]
      simp only [Option.isSome_some, accepts, Bool.not_true]
      rfl
    have announced : (m.lateralReading lateral).announce w (.pitch p) = u.wfPitch ⟨w, p⟩ := by
      unfold State.announce
      dsimp only
      rw [show (m.lateralReading lateral).pitches = s.pitches from pitches, show wordOfPlace s.pitches w (.pitch p) = wordOf s.pitches ⟨w, p⟩ from rfl, ← hu,
        readerAt_idle same, scanAt_idle same]
    rw [valid, ← announced, validated, ← hm, pitches, word_, placeOf_wordOf inside]

/-! ### A tally's part in the schedule -/

theorem takeChannels_sm (ts : Vector Tally 16) (chs : List (Fin 16)) (s : State) : (chs.foldl (State.takeChannel ts) s).sm = s.sm := by
  obtain ⟨eu, hm, out, e⟩ := (Scores.takeChannels ts chs s).rest
  rw [e]

/-- What a tally makes of the Speed Matcher, it makes of it and the Head Monitor alone (R73). -/
theorem takeTally_sm_congr {s t : State} (hm : s.hm = t.hm) (sm : s.sm = t.sm) (ts : Vector Tally 16) : (s.takeTally ts).sm = (t.takeTally ts).sm := by
  have recompute {a b : State} (hm : a.hm = b.hm) (sm : a.sm = b.sm) : a.recomputeHead.sm = b.recomputeHead.sm := by
    unfold State.recomputeHead
    rw [hm]
    dsimp only
    split
    · exact sm
    · split <;> simp [State.capSchedule, State.capIndex, hm, sm]
  have channels (chs : List (Fin 16)) : (chs.foldl (State.takeChannel ts) s).hm = (chs.foldl (State.takeChannel ts) t).hm := by
    have fold {a b : State} (h : a.hm = b.hm) : (chs.foldl (State.takeChannel ts) a).hm = (chs.foldl (State.takeChannel ts) b).hm := by
      induction chs generalizing a b with
      | nil => exact h
      | cons ch chs ih => exact ih (takeChannel_hm_congr h ts ch)
    exact fold hm
  exact recompute (channels _) (by rw [takeChannels_sm, takeChannels_sm, sm])

end Sys2Proof.Machine
end

section
/-!
PROPERTY. The separator of a restart laid, and the next attempt begun at the place announced after it (R45, R52, R53, R73, R76).
-/
namespace Sys2Proof.Machine
open Sys2Proof.Laws

theorem after_here {s : State} {w p : Nat} (inside : p + 1 < s.pitches) : s.after ⟨w, p⟩ = ⟨w, p + 1⟩ := if_pos inside

/-! ### The first row set of an attempt (R46, R57, R59) -/

/-- The rows of nominal set 0 with their channels. -/
def firstPlaced : List (Nat × Nat) := (List.range 16).filterMap (fun c => ((nominalRows 0).toArray.getD c none).map (fun r => (r, c)))

/-- The rows of set 0 in increasing order, as a set that fails whole goes through R49. -/
def firstOrdered : List (Nat × Nat) := (List.range 256).filterMap (fun r => firstPlaced.find? (fun x => x.1 == r))

/-- The write counts of an attempt with its first row set written. -/
def firstCounts : Vector Nat 256 :=
  ((nominalRows 0).toList.filterMap id).foldl (fun v r => v.setIfInBounds r (v.toArray.getD r 0 + 1)) (Vector.replicate 256 0)

theorem firstOrdered_length : firstOrdered.length = 16 := by decide +kernel

theorem firstOrdered_once : firstOrdered.any (fun x => decide (3 ≤ firstCounts.toArray.getD x.1 0)) = false := by decide +kernel

/-- The first row set cut off whole by the inhibit: its rows are rewritten later, and the attempt goes on (R49, R64). -/
theorem inhibitCut_first {g : State} {l : Loc} (stage : g.wf.stage = .span) (inFlight : g.wf.inFlight = some { rows := nominalRows 0, place := l })
    (counts : g.wf.rowCounts = firstCounts) (queue : g.wf.queue = []) (sets : g.wf.rewriteSets = 0) (next : g.wf.nextSet = 1) :
    ∃ (tape : List TapeWrite) (queue : List Rewrite), g.inhibitCut = { g with tape := tape, wf := { g.wf with inFlight := none, queue := queue } } := by
  obtain ⟨tape, cut⟩ := cutOff_rest g
  have placed : ({ rows := nominalRows 0, place := l } : InFlight).placed = firstPlaced := rfl
  refine ⟨tape, firstOrdered.map (fun x => { row := x.1, count := g.wf.count x.1, last := x.2 }), ?_⟩
  unfold State.inhibitCut
  rw [stage, inFlight]
  dsimp only
  rw [placed, cut]
  unfold State.failRows
  dsimp only
  rw [show (List.range 256).filterMap (fun r => firstPlaced.find? (fun x => x.1 == r)) = firstOrdered from rfl]
  have once : firstOrdered.any (fun x => decide (3 ≤ g.wf.count x.1)) = false := by
    unfold Wf.count
    rw [counts]
    exact firstOrdered_once
  rw [once, if_neg (by simp), if_neg]
  · unfold State.planNext
    rw [if_pos (by simp [next])]
    simp [State.onWf, queue]
  · simp [queue, sets, firstOrdered_length]

/-- The first row set of an attempt laid down at a pitch. -/
structure FirstSet (k t : State) (l : Loc) : Prop where
  rest : ∃ (wf : Wf) (tape : List TapeWrite) (free : Nat) (eu : Eu) (spu : Spu), t = { k with wf := wf, tape := tape, free := free, eu := eu, spu := spu }
  latches : Latches k t
  wf : t.wf.stage = .span ∧ t.wf.rewriteSets = 0 ∧ t.wf.nextSet = 1 ∧ t.wf.restarts = k.wf.restarts ∧ t.wf.appendPoint = k.wf.appendPoint
    ∧ t.wf.tallies = k.wf.tallies ∧ t.wf.writePoint = k.wf.writePoint.map (fun x => (x.1, ⟨l.wrap, l.pitch + 1⟩)) ∧ t.wf.spanStart = some l
  writes : k.sv.inhibit = false → t.wf.queue = [] ∧ ∃ rows : List RowWritten, t.tape = k.tape ++ [.rowSet l rows]

theorem judgeEarlyWarning_rest (s : State) (l : Loc) : ∃ (warned : List Nat) (eu : Eu) (spu : Spu),
    s.judgeEarlyWarning l = { s with wf := { s.wf with earlyWarned := warned }, eu := eu, spu := spu } ∧ Latches s (s.judgeEarlyWarning l) := by
  unfold State.judgeEarlyWarning
  dsimp only
  split
  · refine ⟨_, _, _, raise_frame _ _, ?_⟩
    exact .trans (t := s.onWf _) (.of_eu rfl) (.raise _ _)
  · exact ⟨s.wf.earlyWarned, s.eu, s.spu, rfl, .refl s⟩

theorem judgePending_rest (s : State) (l : Loc) : ∃ pending : Bool, s.judgePending l = { s with wf := { s.wf with eodPending := pending } } := by
  have set (b : Bool) : ∃ pending : Bool, s.when b (·.onWf (fun w => { w with eodPending := true })) = { s with wf := { s.wf with eodPending := pending } } := by
    cases b with
    | true => exact ⟨true, rfl⟩
    | false => exact ⟨s.wf.eodPending, rfl⟩
  exact set _

/-- The first row set laid down, but for the inhibit. -/
def State.firstLaid (b : State) (l : Loc) : State :=
  ({ b with wf := { b.wf with
      rowCounts := firstCounts, nextSet := 1, inFlight := some { rows := nominalRows 0, place := l },
      writePoint := some ((b.wf.writePoint.map Prod.fst).getD b.pu.partition, ⟨l.wrap, l.pitch + 1⟩) } } : State).traceSet l (nominalRows 0)

theorem writeSet_first {b : State} (l : Loc) (next : b.wf.nextSet = 0) (counts : b.wf.rowCounts = Vector.replicate 256 0) :
    b.writeSet l = if b.sv.inhibit then (b.firstLaid l).inhibitCut else b.firstLaid l := by
  have laid : (b.onWf (fun w => { (w.countRows ((nominalRows 0).toList.filterMap id)) with
      nextSet := w.nextSet + 1, writePoint := some ((b.wf.writePoint.map Prod.fst).getD b.pu.partition, ⟨l.wrap, l.pitch + 1⟩),
      inFlight := some { rows := nominalRows 0, place := l } })).traceSet l (nominalRows 0) = b.firstLaid l := by
    unfold State.firstLaid State.onWf Wf.countRows firstCounts
    dsimp only
    rw [next, counts]
  unfold State.writeSet
  dsimp only
  rw [next, if_pos (by decide), laid]
  rfl

theorem firstSet {k : State} {l : Loc} {part : Nat} {at_ : Loc} (stage : k.wf.stage = .span) (header : k.wf.header = none)
    (point : k.wf.writePoint = some (part, at_)) (wrap : at_.wrap = l.wrap) (inFlight : k.wf.inFlight = none) (next : k.wf.nextSet = 0)
    (sets : k.wf.rewriteSets = 0) (queue : k.wf.queue = []) (counts : k.wf.rowCounts = Vector.replicate 256 0) (room : 21 ≤ k.remaining l) :
    FirstSet k (k.spanPitch l) l := by
  obtain ⟨warned, eu, spu, early, latches⟩ := judgeEarlyWarning_rest k l
  obtain ⟨pending, judged⟩ := judgePending_rest (k.judgeEarlyWarning l) l
  obtain ⟨b, hb⟩ : ∃ b : State, b = ((k.judgeEarlyWarning l).judgePending l).onWf (fun w => { w with spanStart := some l }) := ⟨_, rfl⟩
  have begins : k.spanPitch l = b.writeSet l := by
    unfold State.spanPitch
    rw [point]
    dsimp only
    rw [if_neg (by simp [inFlight, wrap]), if_neg (by simp [next])]
    unfold State.beginSpan
    rw [if_neg (by simp [header])]
    exact (if_pos room).trans (by rw [hb])
  have latches_ : Latches k b := latches.trans (.of_eu (by rw [hb, judged]; rfl))
  rw [judged, early] at hb
  have written := writeSet_first (b := b) l (by rw [hb]; exact next) (by rw [hb]; exact counts)
  have laid : b.firstLaid l = { k with
      wf := (b.firstLaid l).wf, tape := (b.firstLaid l).tape, free := k.free + 1, eu := eu, spu := spu } := by rw [hb]; rfl
  have wf : (b.firstLaid l).wf = { b.wf with
      rowCounts := firstCounts, nextSet := 1, inFlight := some { rows := nominalRows 0, place := l },
      writePoint := some ((b.wf.writePoint.map Prod.fst).getD b.pu.partition, ⟨l.wrap, l.pitch + 1⟩) } := rfl
  have stage_ : (b.firstLaid l).wf.stage = .span := by rw [wf, hb]; exact stage
  have sets_ : (b.firstLaid l).wf.rewriteSets = 0 := by rw [wf, hb]; exact sets
  have queue_ : (b.firstLaid l).wf.queue = [] := by rw [wf, hb]; exact queue
  have restarts : (b.firstLaid l).wf.restarts = k.wf.restarts := by rw [wf, hb]; rfl
  have append : (b.firstLaid l).wf.appendPoint = k.wf.appendPoint := by rw [wf, hb]; rfl
  have tallies : (b.firstLaid l).wf.tallies = k.wf.tallies := by rw [wf, hb]; rfl
  have point_ : (b.firstLaid l).wf.writePoint = k.wf.writePoint.map (fun x => (x.1, ⟨l.wrap, l.pitch + 1⟩)) := by
    rw [wf, hb]
    simp [State.onWf, point]
  have start : (b.firstLaid l).wf.spanStart = some l := by rw [wf, hb]; rfl
  have inhibit : b.sv.inhibit = k.sv.inhibit := by rw [hb]; rfl
  rw [begins, written, inhibit]
  split
  · next on =>
    obtain ⟨tape, rewrites, cut⟩ := inhibitCut_first (g := b.firstLaid l) (l := l) stage_ rfl rfl queue_ sets_ rfl
    rw [cut]
    exact ⟨⟨_, _, _, _, _, by rw [laid]⟩, latches_, ⟨stage_, sets_, rfl, restarts, append, tallies, point_, start⟩,
      fun off => absurd on (by simp [off])⟩
  · exact ⟨⟨_, _, _, _, _, laid⟩, latches_, ⟨stage_, sets_, rfl, restarts, append, tallies, point_, start⟩,
      fun _ => ⟨queue_, _, by rw [show k.tape = b.tape by rw [hb]; rfl]; rfl⟩⟩

end Sys2Proof.Machine
end

section
/-!
PROPERTY. The separator of a restart laid, and the next attempt begun at the place announced after it (R45, R52, R53, R73, R76).
-/
namespace Sys2Proof.Machine
open Sys2Proof.Laws

/-! ### A boundary, by what is scheduled (R76, R134, R150) -/

theorem boundary_none {s : State} (none_ : s.sm.scheduled = none) : s.boundary = s := by
  unfold State.boundary
  rw [none_]

theorem boundary_some {s : State} {i : Nat} (some_ : s.sm.scheduled = some i) (motion : s.rtc.motion = .streaming) (kind : s.sv.kind ≠ .none)
    (timebase : s.sv.timebase ≠ .off) : s.boundary.sv.timebase = .acquiring ∧ s.boundary.sm = { s.sm with index := i, scheduled := none }
      ∧ s.boundary.eu.latches[5].set = true ∧ Latches s s.boundary := by
  have applied : s.applyScheduled = (s.onSm (fun m => { m with index := i, scheduled := none })).raise .speedChanged := by
    unfold State.applyScheduled
    rw [some_]
  obtain ⟨a, ha⟩ : ∃ a : State, a = s.applyScheduled := ⟨_, rfl⟩
  have motion_ : a.rtc.motion = .streaming := by rw [ha, applied, raise_rtc]; exact motion
  have sv : a.sv = s.sv := by rw [ha, applied, raise_sv]; rfl
  have sm : a.sm = { s.sm with index := i, scheduled := none } := by rw [ha, applied, raise_sm]; rfl
  have latched : a.eu.latches[5].set = true := by rw [ha, applied]; exact raise_latches _ .speedChanged
  have latches : Latches s a := by rw [ha]; exact Latches.applyScheduled s
  have bounded : s.boundary = a.takeSpeed.onSv (·.speedChange a.takeSpeed.rtc.speed) := by
    unfold State.boundary
    rw [some_]
    dsimp only
    rw [← ha]
    exact if_pos (by simp [State.takeSpeed, motion_])
  rw [bounded]
  refine ⟨?_, sm, latched, latches⟩
  have changes : (a.sv.kind == .none || a.sv.timebase == .off) = false := by simp [sv, kind, timebase]
  show (a.sv.speedChange _).timebase = _
  unfold Sv.speedChange
  rw [changes]
  rfl

/-! ### The restart (R52) -/

/-- A restart taken at the pitch after its separator: the attempt's number and the restarts up, the tallies handed over, the new attempt due. -/
structure Restarted (u k : State) (x : Slot) (xs : List Slot) (l : Loc) : Prop where
  dbm : k.dbm = { u.dbm with slots := { x with attempt := x.attempt.map (· + 1) } :: xs }
  cu : k.cu = u.cu
  pu : k.pu = u.pu
  tape : k.tape = u.tape
  hm : k.hm = (u.takeTally u.wf.tallies).hm
  wf : k.wf = { u.wf.replan with
    tallies := Tally.zeros, restarts := min 65535 (u.wf.restarts + 1), stage := .span, writePoint := some (u.pu.partition, l) }
  rtc : k.rtc.headWrap = u.rtc.headWrap ∧ k.rtc.typeCode = u.rtc.typeCode
  latched : k.eu.latches[7].set = true
  unscheduled : k.sm.scheduled = none
  steady : (u.takeTally u.wf.tallies).sm.scheduled = none → k.sv = u.sv
  changes : ∀ i : Nat, (u.takeTally u.wf.tallies).sm.scheduled = some i → k.sv.timebase = .acquiring ∧ k.sm.index = i ∧ k.eu.latches[5].set = true

theorem restartDone_restarts {u : State} {x : Slot} {xs : List Slot} {l : Loc} {w : Nat} (header : u.wf.header = none) (slots : u.dbm.slots = x :: xs)
    (motion : u.rtc.motion = .streaming) (kind : u.sv.kind ≠ .none) (timebase : u.sv.timebase ≠ .off) (head : u.rtc.headWrap = some w)
    (wrap : l.wrap = w) (room : 21 ≤ u.remaining l) : Restarted u (u.restartDone l) x xs l := by
  obtain ⟨h, hh⟩ : ∃ h : State, h = (u.handTallies.onDbm (·.setSlot 0 (fun y => { y with attempt := y.attempt.map (· + 1) }))).onWf (fun w =>
      { w.replan with restarts := satAdd Config.max16 w.restarts 1 }) := ⟨_, rfl⟩
  obtain ⟨r, hr⟩ : ∃ r : State, r = h.raise .datasetRestart := ⟨_, rfl⟩
  have done : u.restartDone l = r.boundary.attemptNext l false := by
    unfold State.restartDone
    rw [header]
    dsimp only
    rw [hr, hh]
  have dbm : r.dbm = { u.dbm with slots := { x with attempt := x.attempt.map (· + 1) } :: xs } := by
    rw [hr, raise_dbm, hh, onWf_dbm, onDbm_dbm, handTallies_dbm]
    simp [Dbm.setSlot, slots]
  have wf : r.wf = { u.wf.replan with tallies := Tally.zeros, restarts := min 65535 (u.wf.restarts + 1) } := by
    rw [hr, raise_wf, hh, onWf_wf, onDbm_wf, handTallies_wf]
    rfl
  have rtc : r.rtc = u.rtc := by rw [hr, raise_rtc, hh, onWf_rtc, onDbm_rtc, handTallies_rtc]
  have sv : r.sv = u.sv := by rw [hr, raise_sv, hh, onWf_sv, onDbm_sv, handTallies_sv]
  have sm : r.sm = (u.takeTally u.wf.tallies).sm := by rw [hr, raise_sm, hh, onWf_sm, onDbm_sm, handTallies_sm]
  have hm : r.hm = (u.takeTally u.wf.tallies).hm := by rw [hr, raise_hm, hh, onWf_hm, onDbm_hm, handTallies_hm]
  have cu : r.cu = u.cu := by rw [hr, raise_cu, hh, onWf_cu, onDbm_cu, handTallies_cu]
  have pu : r.pu = u.pu := by rw [hr, raise_pu, hh, onWf_pu, onDbm_pu, handTallies_pu]
  have tape : r.tape = u.tape := by rw [hr, raise_tape, hh, onWf_tape, onDbm_tape, handTallies_tape]
  have latched : r.eu.latches[7].set = true := by rw [hr]; exact raise_latches h .datasetRestart
  have attempt := attemptNext_here (s := r.boundary) (l := l) (by
    rwa [remaining_congr (s := u) (by rw [boundary_typeCode, rtc])]) (by rw [boundary_headWrap, rtc, head, wrap]) false
  have bounds : r.boundary.eu.latches[7].set = true ∧ r.boundary.sm.scheduled = none
      ∧ ((u.takeTally u.wf.tallies).sm.scheduled = none → r.boundary.sv = u.sv)
      ∧ ∀ i : Nat, (u.takeTally u.wf.tallies).sm.scheduled = some i →
        r.boundary.sv.timebase = .acquiring ∧ r.boundary.sm.index = i ∧ r.boundary.eu.latches[5].set = true := by
    rw [← sm]
    cases scheduled : r.sm.scheduled with
    | none =>
      rw [boundary_none scheduled]
      exact ⟨latched, scheduled, fun _ => sv, fun i e => absurd e (by simp)⟩
    | some i =>
      obtain ⟨acquiring, sm_, changed, latches⟩ := boundary_some scheduled (by rw [rtc]; exact motion) (by rw [sv]; exact kind) (by rw [sv]; exact timebase)
      rw [sm_]
      exact ⟨latches 7 latched, rfl, fun e => absurd e (by simp), fun j e => ⟨acquiring, Option.some.inj e, changed⟩⟩
  obtain ⟨latched_, unscheduled, steady, changes⟩ := bounds
  rw [done, attempt]
  refine ⟨?_, ?_, ?_, ?_, ?_, ?_, ⟨?_, ?_⟩, latched_, unscheduled, steady, changes⟩
  · rw [onWf_dbm, boundary_dbm, dbm]
  · rw [onWf_cu, boundary_cu, cu]
  · rw [onWf_pu, boundary_pu, pu]
  · rw [onWf_tape, boundary_tape, tape]
  · rw [onWf_hm, boundary_hm, hm]
  · rw [onWf_wf, boundary_wf, wf, boundary_pu, pu]
    rfl
  · rw [onWf_rtc, boundary_headWrap, rtc]
  · rw [onWf_rtc, boundary_typeCode, rtc]

end Sys2Proof.Machine
end

section
/-!
PROPERTY. What an announced pitch brings to an attempt that is closed by a restart (R52, R76): its separator, then the next attempt.
-/
namespace Sys2Proof.Machine
open Sys2Proof.Laws

section
variable {s : State} {b : Burst} {w word p part : Nat} {lateral : Int} {at_ : Loc} {x : Slot} {xs : List Slot}

/-- The separator of a restart laid at the pitch announced (R52). -/
theorem restart_separator (reads : s.readIdle = true) (judged : s.judged = true) (locked : s.sv.timebase = .locked) (head : s.rtc.headWrap = some w)
    (merged : mergeReadings b.ch0 b.ch1 = some (word, lateral)) (accepts : s.sv.accepts b.time true = true) (word_ : word = wordOf s.pitches ⟨w, p⟩)
    (room : p + 21 ≤ s.pitches) (other : s.cu.progress ≠ .filemarks) (point : s.wf.writePoint = some (part, at_))
    (stage : s.wf.stage = .closing .restart none) : ∃ t : State, exec (.servoBurst b) s = .next t
      ∧ t.tape = s.tape ++ [.separator ⟨w, p⟩] ∧ t.wf = { s.wf with stage := .closing .restart (some ⟨w, p⟩), writePoint := some (part, ⟨w, p + 1⟩) }
      ∧ t.dbm = s.dbm ∧ t.cu = s.cu ∧ t.pu = s.pu ∧ t.hm = s.hm := by
  obtain ⟨u, announced, burst⟩ := burst_announces reads judged locked head merged accepts word_ (by omega)
  obtain ⟨sv, place, eu, spu, u_⟩ := announced.rest
  have pitches : u.pitches = s.pitches := pitches_congr (by rw [u_])
  obtain ⟨t, ht⟩ : ∃ t : State, t = { u with
      tape := u.tape ++ [.separator ⟨w, p⟩],
      wf := { u.wf with stage := .closing .restart (some ⟨w, p⟩), writePoint := some (part, ⟨w, p + 1⟩) } } := ⟨_, rfl⟩
  have laid : u.wfPitch ⟨w, p⟩ = t := by
    have stage_ : u.wf.stage = .closing .restart none := by rw [u_]; exact stage
    have point_ : u.wf.writePoint = some (part, at_) := by rw [u_]; exact point
    unfold State.wfPitch
    rw [stage_]
    dsimp only
    unfold State.laySeparator
    dsimp only
    rw [point_, after_here (by omega), ht]
    rfl
  have next : exec (.servoBurst b) s = .next t := by
    refine congrArg Host.Outcome.next ?_
    rw [burst, laid]
    exact advance_of_busy (by rw [ht]; simp) (by rw [ht]; simp) (by rw [ht, u_]; exact other)
  refine ⟨t, next, ?_⟩
  rw [ht, u_]
  exact ⟨rfl, rfl, rfl, rfl, rfl, rfl⟩

/-- The place announced after the separator: the next attempt, at once where no speed is scheduled (R52, R76, log 23). -/
theorem restart_begins {q : Nat} (reads : s.readIdle = true) (judged : s.judged = true) (locked : s.sv.timebase = .locked)
    (head : s.rtc.headWrap = some w) (motion : s.rtc.motion = .streaming) (merged : mergeReadings b.ch0 b.ch1 = some (word, lateral))
    (accepts : s.sv.accepts b.time true = true) (word_ : word = wordOf s.pitches ⟨w, p⟩) (room : p + 21 ≤ s.pitches)
    (other : s.cu.progress ≠ .filemarks) (header : s.wf.header = none) (slots : s.dbm.slots = x :: xs)
    (stage : s.wf.stage = .closing .restart (some ⟨w, q⟩)) (space : q + 22 ≤ s.pitches) : ∃ t : State, exec (.servoBurst b) s = .next t
      ∧ t.dbm.slots = { x with attempt := x.attempt.map (· + 1) } :: xs
      ∧ t.wf.restarts = min 65535 (s.wf.restarts + 1) ∧ t.wf.stage = .span ∧ t.wf.rewriteSets = 0
      ∧ t.wf.appendPoint = s.wf.appendPoint ∧ t.eu.latches[7].set = true ∧ t.sm.scheduled = none
      ∧ t.hm = (s.takeTally s.wf.tallies).hm ∧ (∀ k : Fin 16, t.wf.tallies[k] = { rows := 0, failed := 0 }) ∧ t.cu = s.cu
      ∧ ((s.takeTally s.wf.tallies).sm.scheduled = none → lateral.natAbs ≤ s.cu.policy.offTrack → t.sv.timebase = .locked ∧ t.wf.nextSet = 1
        ∧ t.wf.queue = [] ∧ t.wf.writePoint = some (s.pu.partition, ⟨w, p + 1⟩) ∧ t.wf.spanStart = some ⟨w, p⟩
        ∧ ∃ rows : List RowWritten, t.tape = s.tape ++ [.rowSet ⟨w, p⟩ rows])
      ∧ (∀ i : Nat, (s.takeTally s.wf.tallies).sm.scheduled = some i → t.sv.timebase = .acquiring ∧ t.sm.index = i ∧ t.wf.nextSet = 0
        ∧ t.wf.queue = [] ∧ t.tape = s.tape ∧ t.wf.writePoint = some (s.pu.partition, ⟨w, q + 1⟩) ∧ t.eu.latches[5].set = true) := by
  obtain ⟨u, announced, burst⟩ := burst_announces reads judged locked head merged accepts word_ (by omega)
  obtain ⟨sv, place, eu, spu, u_⟩ := announced.rest
  have pitches : u.pitches = s.pitches := pitches_congr (by rw [u_])
  have kind : s.sv.kind = .data := by
    simp only [State.judged, Bool.and_eq_true, beq_iff_eq] at judged
    exact judged.1
  have wf_ : u.wf = s.wf := by rw [u_]
  have cu_ : u.cu = s.cu := by rw [u_]
  have hm_ : (u.takeTally u.wf.tallies).hm = (s.takeTally s.wf.tallies).hm := by rw [wf_]; exact takeTally_hm_congr (by rw [u_]) _
  have sm_ : (u.takeTally u.wf.tallies).sm = (s.takeTally s.wf.tallies).sm := by rw [wf_]; exact takeTally_sm_congr (by rw [u_]) (by rw [u_]) _
  obtain ⟨k, hk⟩ : ∃ k : State, k = u.restartDone ⟨w, q + 1⟩ := ⟨_, rfl⟩
  have restarted : Restarted u k x xs ⟨w, q + 1⟩ := by
    rw [hk]
    exact restartDone_restarts (by rw [wf_]; exact header) (by rw [u_]; exact slots) (by rw [u_]; exact motion)
      (by rw [announced.kind, kind]; simp) (by rw [announced.timebase, locked]; simp) (by rw [u_]; exact head) rfl
      (by show 21 ≤ u.pitches - (q + 1); omega)
  have stage_ : k.wf.stage = .span := by rw [restarted.wf]
  have pitched : u.wfPitch ⟨w, p⟩ = if k.locked then k.spanPitch ⟨w, p⟩ else k := by
    have closing : u.wf.stage = .closing .restart (some ⟨w, q⟩) := by rw [wf_]; exact stage
    have written : u.restartWritten = k := by
      unfold State.restartWritten
      rw [closing]
      dsimp only
      rw [after_here (by omega), hk]
    unfold State.wfPitch
    rw [closing]
    dsimp only
    rw [written, stage_]
    cases k.locked <;> rfl
  have tallies (t : State) (e : t.wf.tallies = k.wf.tallies) (c : Fin 16) : t.wf.tallies[c] = { rows := 0, failed := 0 } := by
    rw [e, restarted.wf]
    exact tally_zero c
  have next (t : State) (e : (if k.locked then k.spanPitch ⟨w, p⟩ else k) = t) (span : t.wf.stage = .span) (cu : t.cu = k.cu) :
      exec (.servoBurst b) s = .next t := by
    refine congrArg Host.Outcome.next ?_
    rw [burst, pitched, e]
    exact advance_of_busy (by rw [span]; simp) (by rw [span]; simp) (by rw [cu, restarted.cu, cu_]; exact other)
  cases scheduled : (s.takeTally s.wf.tallies).sm.scheduled with
  | none =>
    have steady : k.sv = u.sv := restarted.steady (by rw [sm_]; exact scheduled)
    have locked_ : k.locked = true := by simp [State.locked, steady, announced.timebase, locked]
    have first : FirstSet k (k.spanPitch ⟨w, p⟩) ⟨w, p⟩ := by
      refine firstSet (part := u.pu.partition) (at_ := ⟨w, q + 1⟩) stage_ ?_ ?_ rfl ?_ ?_ ?_ ?_ ?_ ?_
      · rw [restarted.wf, ← header, ← wf_]
        rfl
      · rw [restarted.wf]
      · rw [restarted.wf]; rfl
      · rw [restarted.wf]; rfl
      · rw [restarted.wf]; rfl
      · rw [restarted.wf]; rfl
      · rw [restarted.wf]; rfl
      · rw [remaining_congr (s := u) restarted.rtc.2]
        show 21 ≤ u.pitches - p
        omega
    obtain ⟨wf, tape, free, eu', spu', t_⟩ := first.rest
    obtain ⟨span, sets, nextSet, restarts, append, tallies_, point, start⟩ := first.wf
    have keeps : (k.spanPitch ⟨w, p⟩).cu = k.cu ∧ (k.spanPitch ⟨w, p⟩).dbm = k.dbm ∧ (k.spanPitch ⟨w, p⟩).sm = k.sm
        ∧ (k.spanPitch ⟨w, p⟩).hm = k.hm ∧ (k.spanPitch ⟨w, p⟩).sv = k.sv := by
      rw [t_]
      exact ⟨rfl, rfl, rfl, rfl, rfl⟩
    obtain ⟨cu, dbm, sm, hm, sv_⟩ := keeps
    refine ⟨k.spanPitch ⟨w, p⟩, next _ (if_pos locked_) span cu, ?_, ?_, span, sets, ?_, first.latches 7 restarted.latched, ?_, ?_,
      tallies _ tallies_, ?_, fun _ inside => ?_, fun i e => absurd e (by simp)⟩
    · rw [dbm, restarted.dbm]
    · rw [restarts, restarted.wf, wf_]
    · rw [append, restarted.wf, ← wf_]
      rfl
    · rw [sm, restarted.unscheduled]
    · rw [hm, restarted.hm, hm_]
    · rw [cu, restarted.cu, cu_]
    · obtain ⟨queue, rows, written⟩ := first.writes (by rw [steady, announced.inhibit]; exact decide_eq_false (by omega))
      refine ⟨by rw [sv_, steady, announced.timebase, locked], nextSet, queue, ?_, start, rows, ?_⟩
      · rw [point, restarted.wf, u_]
        rfl
      · rw [written, restarted.tape, u_]
  | some i =>
    obtain ⟨acquiring, index, changed⟩ := restarted.changes i (by rw [sm_]; exact scheduled)
    have unlocked : ¬ k.locked = true := by simp [State.locked, acquiring]
    refine ⟨k, next k (if_neg unlocked) stage_ rfl, by rw [restarted.dbm], by rw [restarted.wf, wf_], stage_, by rw [restarted.wf]; rfl, ?_,
      restarted.latched, restarted.unscheduled, by rw [restarted.hm, hm_], tallies k rfl, by rw [restarted.cu, cu_],
      fun e => absurd e (by simp), fun j e => ⟨acquiring, ?_, by rw [restarted.wf]; rfl, by rw [restarted.wf]; rfl, ?_, ?_, changed⟩⟩
    · rw [restarted.wf, ← wf_]
      rfl
    · rw [index]
      exact Option.some.inj e
    · rw [restarted.tape, u_]
    · rw [restarted.wf, u_]

end

end Sys2Proof.Machine
end

section
/-!
PROPERTY. The volume full (R10, R45, R57, R60): a dataset with no room left on the partition's last wrap.
-/
namespace Sys2Proof.Machine
open Sys2Proof.Laws

/-- The mark that a full volume leaves pending, begun where it fits (R57, R60). -/
theorem beginMark_volumeFull (g : State) {a : Loc} (append : g.appendLoc = a) (room : 2 ≤ g.remaining a) :
    MarkDue g (g.beginMark .volumeFull) .volumeFull a := by
  unfold State.beginMark
  rw [append]
  dsimp only
  rw [markAt_here room]
  dsimp only
  split
  · exact .of_moves (Moves.askWrapTurn _ _) (Latches.askWrapTurn _ _)
  · split
    · exact .of_moves (Moves.setGoal _ _) (Latches.setGoal _ _)
    · exact resumeMark_due g .volumeFull a

/-- A cut-back of a write path with no FILLING slot keeps every slot. -/
theorem cutBack_slots_sealed {s : State} (sealed_ : ∀ x ∈ s.dbm.slots, x.state ≠ .filling) : s.cutBack.dbm.slots = s.dbm.slots := by
  have none_ : s.dbm.filling = none := filling_eq_none sealed_
  have same : s.recordBack.dbm.slots = s.dbm.slots ∧ s.recordBack.dbm.filling = none := by
    unfold State.recordBack State.segmentBack State.onFilling
    rw [none_]
    cases s.rc.segment.map Segment.start with
    | none => exact ⟨rfl, none_⟩
    | some p => exact ⟨rfl, none_⟩
  rw [cutBack_slots, same.2, same.1]
  rfl

/-- The write path given up into a record that is not yet set, with no slot FILLING (R10, R55). -/
theorem discardWrite_sealed {z : State} {y : Slot} {ys : List Slot} (direction : z.dbm.direction = .write) (slots : z.dbm.slots = y :: ys)
    (path : ∀ x ∈ z.dbm.slots, x.state = .writing ∨ x.state = .sealed) (deferred : z.cu.deferred = none) (cause : DeferredCause) :
    ∃ u : State, GivenUp z u { cause := cause, partition := z.pu.partition, first := y.first.getD z.pu.object, objects := ((y :: ys).map Slot.objects).sum }
      ∧ u.dbm.slots = [] ∧ z.discardWrite cause = (u.reportIfExecuting, y.first.getD z.pu.object) := by
  obtain ⟨d, up, record, gone⟩ := pathDiscarded_gives_up direction cause
  have kept : z.cutBack.dbm.slots = y :: ys :=
    (cutBack_slots_sealed (fun x mem => by rcases path x mem with e | e <;> simp [e])).trans slots
  have all : ∀ x ∈ y :: ys, x.onWritePath = true := fun x mem => by
    rcases path x (by rw [slots]; exact mem) with e | e <;> simp [Slot.onWritePath, e]
  have objects : z.cutBack.dbm.writeObjects = ((y :: ys).map Slot.objects).sum := by
    rw [Dbm.writeObjects, kept, List.filter_eq_self.mpr all]
  have first : z.cutBack.firstUnwritten = y.first.getD z.pu.object := by
    have pu : z.cutBack.pu = z.pu := by
      obtain ⟨dbm, rc, e⟩ := (Stores.cutBack z).rest
      rw [e]
    rw [State.firstUnwritten, kept, find?_of_all all, pu]
    rfl
  rw [deferred, objects, first] at record
  rw [record] at up
  refine ⟨_, up, ?_, ?_⟩
  · rw [gone, kept]
    exact if_pos (by simp [all y (by simp)])
  · obtain ⟨dbm, rc, e⟩ := up.rest
    rw [discardWrite_eq, e]
    rfl

/-- The record that a full volume sets, of the slots `y :: ys` of the write path (R10, R55). -/
def State.overflowed (v : State) (y : Slot) (ys : List Slot) : Deferred :=
  { cause := .volumeOverflow, partition := v.pu.partition, first := y.first.getD v.pu.object, objects := ((y :: ys).map Slot.objects).sum }

/-- The volume full of R60, with no command executing to report it. -/
structure VolumeFilled (v t : State) (y : Slot) (ys : List Slot) (a : Loc) : Prop where
  slots : t.dbm.slots = []
  direction : t.dbm.direction = .neutral
  latched : t.eu.latches[9].set = true
  full : t.wf.volumeFull = some v.pu.partition
  cu : t.cu = { v.cu with deferred := some (v.overflowed y ys) }
  due : v.wf.eodPending = true → 2 ≤ v.remaining a → t.wf.stage = .runUp a (.mark .volumeFull) false ∧ t.wf.eodPending = true
  passed : (v.wf.eodPending = false ∨ v.remaining a < 2) → t.wf.stage = .idle ∧ t.wf.eodPending = false
  eod : ∀ e : EodKnown, v.pu.eod.getD v.pu.partition none = some e → e.mark = a → e.onTape = false →
    t.pu.eod.getD v.pu.partition none = some { e with object := y.first.getD v.pu.object }

theorem volumeFull_fills {v : State} {y : Slot} {ys : List Slot} {a : Loc} (direction : v.dbm.direction = .write) (slots : v.dbm.slots = y :: ys)
    (path : ∀ x ∈ v.dbm.slots, x.state = .writing ∨ x.state = .sealed) (deferred : v.cu.deferred = none) (idle : v.executing = none)
    (append : v.wf.appendPoint = some a) (known : ∃ e : EodKnown, v.pu.eod.getD v.pu.partition none = some e ∧ e.mark = a ∧ e.onTape = false) :
    VolumeFilled v v.volumeFull y ys a := by
  obtain ⟨r, hr⟩ : ∃ r : State, r = v.raise .volumeFull := ⟨_, rfl⟩
  obtain ⟨z, hz⟩ : ∃ z : State, z = r.onWf (fun w => { w with queue := [], inFlight := none, planned := false, volumeFull := some r.pu.partition }) :=
    ⟨_, rfl⟩
  have frame : r = { v with eu := r.eu, spu := r.spu } := by rw [hr]; exact raise_frame v .volumeFull
  have latched : z.eu.latches[9].set = true := by rw [hz, hr]; exact raise_latches v .volumeFull
  have z_ : z = { v with
      eu := r.eu, spu := r.spu,
      wf := { v.wf with queue := [], inFlight := none, planned := false, volumeFull := some v.pu.partition } } := by rw [hz, frame]; rfl
  obtain ⟨u, up, gone, given⟩ := discardWrite_sealed (z := z) (y := y) (ys := ys) (by rw [z_]; exact direction) (by rw [z_]; exact slots)
    (by rw [z_]; exact path) (by rw [z_]; exact deferred) .volumeOverflow
  obtain ⟨dbm, rc, u_⟩ := up.rest
  have silent : u.reportIfExecuting = u := reportIfExecuting_silent (.inl ((executing_of_queue (by rw [u_, z_])).trans idle))
  rw [silent] at given
  obtain ⟨g, hg⟩ : ∃ g : State, g = u.putEodBack r.pu.partition z.filemarksUnwritten (fun e => { e with object := y.first.getD z.pu.object }) := ⟨_, rfl⟩
  obtain ⟨eod, marks, directory, g_⟩ := putEodBack_rest u r.pu.partition z.filemarksUnwritten (fun e => { e with object := y.first.getD z.pu.object })
  rw [← hg] at g_
  have partition : r.pu.partition = v.pu.partition := by rw [hr, raise_pu]
  have object : z.pu.object = v.pu.object := by rw [z_]
  have put (e : EodKnown) (at_ : v.pu.eod.getD v.pu.partition none = some e) :
      g.pu.eod.getD v.pu.partition none = some { e with object := y.first.getD v.pu.object } := by
    have known := putEodBack_known (s := u) (p := r.pu.partition) (e := e) (by rw [u_, z_, partition]; exact at_) z.filemarksUnwritten
      (fun e => { e with object := y.first.getD z.pu.object })
    rw [← hg, partition, object] at known
    exact known
  have appendLoc : r.appendLoc = a := appendLoc_eq (by rw [frame]; exact append)
  have wf : g.wf = { v.wf with queue := [], inFlight := none, planned := false, volumeFull := some v.pu.partition } := by rw [g_, u_, z_]
  have cu : g.cu = { v.cu with deferred := some (v.overflowed y ys) } := by rw [g_, u_, z_]; rfl
  have pu : g.pu.partition = v.pu.partition := by rw [g_, u_, z_]
  have dbm_ : g.dbm = u.dbm := by rw [g_]
  have remaining : g.remaining a = v.remaining a := remaining_congr (by rw [g_, u_, z_]) a
  have latches : g.eu.latches[9].set = true := by rw [g_, u_]; exact latched
  have fills : v.volumeFull = if g.wf.eodPending && decide (2 ≤ g.remaining a) then g.beginMark .volumeFull else (g.reportMark a false).wfStop := by
    obtain ⟨e, at_, -, off⟩ := known
    have e_ := put e at_
    unfold State.volumeFull
    dsimp only
    rw [← hr, ← hz, given]
    dsimp only
    rw [← hg, appendLoc, partition, e_]
    simp only [off, Bool.and_false]
  rw [fills]
  by_cases due : g.wf.eodPending = true ∧ 2 ≤ g.remaining a
  · obtain ⟨pending, room⟩ := due
    rw [if_pos (by simp [pending, room])]
    have mark := beginMark_volumeFull g (a := a) (appendLoc_eq (by rw [wf]; exact append)) room
    obtain ⟨-, -, -, full⟩ := mark.rests.wf
    refine ⟨by rw [mark.rests.dbm, dbm_, gone], by rw [mark.rests.dbm, dbm_, up.direction], mark.rests.latches 9 latches, full.trans (by rw [wf]),
      mark.rests.cu.trans cu, fun _ _ => ⟨mark.stage, mark.pending.trans pending⟩, fun none_ => ?_, fun e at_ _ _ => by rw [mark.pu]; exact put e at_⟩
    rw [wf] at pending
    rcases none_ with e | e
    · exact absurd (pending.symm.trans e) (by simp)
    · exact absurd e (by omega)
  · rw [if_neg (by simpa using due)]
    have passed := markPassed g a false
    obtain ⟨-, -, -, full⟩ := passed.rests.wf
    refine ⟨by rw [passed.rests.dbm, dbm_, gone], by rw [passed.rests.dbm, dbm_, up.direction], passed.rests.latches 9 latches, full.trans (by rw [wf]),
      passed.rests.cu.trans cu, fun pending room => absurd ⟨by rw [wf]; exact pending, by omega⟩ due, fun _ => ⟨passed.stage, passed.pending⟩,
      fun e at_ mark off => ?_⟩
    have eod := passed.eod
    rw [pu, put e at_] at eod
    rw [eod, ← mark, ← off]
    rfl

end Sys2Proof.Machine
end

section
/-!
PROPERTY. A write attempt that fails, assembled: the verify result, the separator of the restart and its loss, and the volume full (R10, R45, R49 to
R55, R57, R60, R63, R73, R76, R152).
-/
namespace Sys2Proof.Machine
open Sys2Proof.Laws

theorem attemptNext_full {s : State} {l : Loc} (short : s.remaining l < 21) (last : s.lastWrap ≤ l.wrap) (between : Bool) :
    s.attemptNext l between = s.volumeFull := by
  have none_ : s.attemptAt l = none := by
    unfold State.attemptAt
    rw [if_neg (show ¬ Config.spanPitches ≤ s.remaining l from Nat.not_le_of_lt short), if_neg (by omega)]
  unfold State.attemptNext
  rw [none_]

/-- A dataset done at the end of the partition's last wrap, with SEALED slots to follow: the volume is full (R45, R60). -/
theorem dataset_done_fills {s : State} {x y : Slot} {ys : List Slot} {l : Loc} (stage : s.wf.stage = .closing .done (some l)) (header : s.wf.header = none)
    (slots : s.dbm.slots = x :: y :: ys) (sealed_ : y.state = .sealed) (direction : s.dbm.direction = .write) (others : ∀ z ∈ ys, z.state = .sealed)
    (here : x.partition = s.pu.partition) (inside : s.pu.partition < s.pu.eod.length) (idle : s.executing = none) (deferred : s.cu.deferred = none)
    (waits : s.cu.progress.waitsForWriting = false) (other : s.cu.progress ≠ .filemarks) (short : s.remaining (s.after l) < 21)
    (last : s.lastWrap ≤ (s.after l).wrap) : ∃ t : State, exec .datasetDone s = .next t
      ∧ t.dbm.slots = [] ∧ t.dbm.direction = .neutral ∧ t.eu.latches[9].set = true ∧ t.wf.volumeFull = some s.pu.partition
      ∧ (s.wf.eodPending = true → 2 ≤ s.remaining (s.after l) → t.wf.stage = .runUp (s.after l) (.mark .volumeFull) false ∧ t.wf.eodPending = true)
      ∧ ((s.wf.eodPending = false ∨ s.remaining (s.after l) < 2) → t.wf.stage = .idle ∧ t.wf.eodPending = false)
      ∧ t.cu.deferred = some (s.overflowed y ys)
      ∧ t.pu.eod.getD s.pu.partition none
        = some { object := y.first.getD s.pu.object, last := some x.dataset, mark := s.after l, onTape := false } := by
  obtain ⟨f, done, freed⟩ := dataDone_eq slots l (by rw [here]; exact inside)
  obtain ⟨eod, directory, filemarks, pu, known⟩ := freed.pu
  obtain ⟨dram, begun⟩ := beginSlot_eq (s := f) (x := y) (rest := ys) (by rw [freed.dbm]) sealed_
  obtain ⟨v, hv⟩ : ∃ v : State, v = f.beginSlot := ⟨_, rfl⟩
  rw [← hv] at begun
  have pu_ : v.pu = { s.pu with eod := eod, directory := directory, eodFilemarks := filemarks } := by rw [begun]; exact pu
  have partition : v.pu.partition = s.pu.partition := by rw [pu_]
  have object : v.pu.object = s.pu.object := by rw [pu_]
  have cu : v.cu = s.cu := by rw [begun]; exact freed.cu
  have wf : v.wf = { f.wf.replan with tallies := Tally.zeros, spanStart := f.wf.appendPoint } := by rw [begun]
  have append : v.wf.appendPoint = some (s.after l) := by rw [wf, freed.wf]; rfl
  have pending : v.wf.eodPending = s.wf.eodPending := by rw [wf, freed.wf]; rfl
  have remaining : v.remaining (s.after l) = s.remaining (s.after l) := remaining_congr (by rw [begun]; exact freed.typeCode) _
  have lastWrap : v.lastWrap = s.lastWrap := by
    unfold State.lastWrap State.partitionWraps
    rw [pu_]
  have slots_ : v.dbm.slots = { y with state := .writing } :: ys := by rw [begun]
  have filled : VolumeFilled v v.volumeFull { y with state := .writing } ys (s.after l) := by
    refine volumeFull_fills (by rw [begun, freed.dbm]; exact direction) slots_ ?_ (by rw [cu]; exact deferred)
      ((executing_of_queue (by rw [cu])).trans idle) append
      ⟨{ object := x.first.getD 0 + x.objects, last := some x.dataset, mark := s.after l, onTape := false }, ?_, rfl, rfl⟩
    · intro z mem
      rw [slots_] at mem
      rcases List.mem_cons.mp mem with rfl | mem
      · exact .inl rfl
      · exact .inr (others z mem)
    · rw [partition, pu_, ← here]
      exact known
  have boundary : s.separatorWritten = v.volumeFull := by
    have kicks : f.wfBoundary = f.beginSlot.attemptNext f.appendLoc true := by simp [State.wfBoundary, freed.dbm, sealed_]
    rw [separatorWritten_data stage header, done, kicks, appendLoc_eq (a := s.after l) (by rw [freed.wf]), ← hv]
    exact attemptNext_full (by rw [remaining]; exact short) (by rw [lastWrap]; exact last) true
  have record : v.overflowed { y with state := .writing } ys = s.overflowed y ys := by
    unfold State.overflowed
    rw [partition, object]
    rfl
  have next : exec .datasetDone s = .next v.volumeFull := by
    refine congrArg Host.Outcome.next ?_
    rw [boundary]
    exact advance_eq (writesNext_of_direction (by rw [filled.direction]; simp)) (by rw [filled.cu, cu]; exact waits) (by rw [filled.cu, cu]; exact other)
  refine ⟨v.volumeFull, next, filled.slots, filled.direction, filled.latched, filled.full.trans (by rw [partition]), ?_, ?_, ?_, ?_⟩
  · rw [← pending, ← remaining]
    exact filled.due
  · rw [← pending, ← remaining]
    exact filled.passed
  · rw [filled.cu, record]
  · have eod_ := filled.eod { object := x.first.getD 0 + x.objects, last := some x.dataset, mark := s.after l, onTape := false }
      (by rw [partition, pu_, ← here]; exact known) rfl rfl
    rw [partition, object] at eod_
    exact eod_

/-- Settles O44, by the event that the attempt's failure is told by. -/
theorem writeAttemptFails : Obligations.WriteAttemptFails := by
  refine ⟨fun s f os c r stage inFlight header other row lt bad closes => ?_, fun s b w word p part lateral at_ x xs reads judged locked head motion merged
    accepts word_ room other point header slots => ⟨?_, ?_⟩, ?_, ?_⟩
  · have spent : 3 ≤ s.wf.count r ∨ 16 * (4 - s.wf.rewriteSets) < s.wf.queue.length + 1 := closes.imp (fun h => by omega) And.right
    refine ⟨attempt_closes stage inFlight other row lt bad spent, fun limit direction ring _ idle waits => ?_⟩
    obtain ⟨t, next, ends, stopped, marked⟩ := attempt_errs stage inFlight header other row lt bad spent limit direction ring idle waits
    obtain ⟨inFlight_, planned, tallies⟩ := ends.wf
    exact ⟨t, next, ends.slots, ends.direction, ends.deferred, ends.queue, ends.latched, inFlight_, planned, tallies, stopped, marked, ends.object,
      ends.tape⟩
  · exact restart_separator reads judged locked head merged accepts word_ room other point
  · intro q stage space
    exact restart_begins reads judged locked head motion merged accepts word_ room other header slots stage space
  · intro s w q at_ reads judged locked burst missed head place header other takes motion stage
    exact separator_lost reads judged locked burst missed head place header other takes motion stage
  · intro s x y ys l stage header slots sealed_ direction others here inside idle _ deferred waits other short last
    obtain ⟨t, next, empty, neutral, latched, full, due, passed, record, eod⟩ :=
      dataset_done_fills stage header slots sealed_ direction others here inside idle deferred waits other short last
    exact ⟨t, next, empty, neutral, latched, full, due, passed, record, eod⟩

end Sys2Proof.Machine
end

section
/-!
SUPPORT. The rows of a row set placed in a slot and scored (R85, R88, R98): the bytes of the DRAM, the row map and the tallies.
-/
namespace Sys2Proof.Machine
open Sys2Proof.Laws

/-! ### Cells placed in the memory -/

/-- A byte after cells were placed: those cells' own within their room, as before elsewhere. -/
theorem read_place {m : Memory} (wf : m.wf = true) (base n a : Nat) (cs : Cells) :
    (m.place base n cs).read a = if base ≤ a ∧ a < base + n then (Memory.place [] 0 n cs).read (a - base) else m.read a := by
  have writes (ws : Cells) (inside : ∀ c ∈ ws, c.1 < n) {m e : Memory} (wf : m.wf = true) (wf' : e.wf = true)
      (same : ∀ a, base ≤ a → a < base + n → m.read a = e.read (a - base)) (a : Nat) :
      (ws.foldl (fun m c => Memory.write m (base + c.1) c.2) m).read a
        = if base ≤ a ∧ a < base + n then (ws.foldl (fun m c => Memory.write m (0 + c.1) c.2) e).read (a - base) else m.read a := by
    induction ws generalizing m e with
    | nil =>
      split
      · next h => exact same a h.1 h.2
      · rfl
    | cons c ws ih =>
      have lt := inside c (by simp)
      rw [List.foldl_cons, List.foldl_cons, ih (fun d mem => inside d (by simp [mem])) (wf_write m _ _ wf) (wf_write e _ _ wf')
        (fun b le lt' => by
          have here : b = base + c.1 ↔ b - base = 0 + c.1 := by omega
          rw [read_write _ _ _ _ wf, read_write _ _ _ _ wf', same b le lt', if_congr here rfl rfl])]
      split
      · rfl
      · next out =>
        rw [read_write _ _ _ _ wf, if_neg (by omega)]
  unfold Memory.place
  rw [writes (cs.filter (fun c => decide (c.1 < n))) (fun c mem => by simpa using (List.mem_filter.mp mem).2)
    (wf_clear m _ _ wf) (e := Memory.clear [] 0 (0 + n)) rfl (fun b le lt => by
      rw [read_clear, read_clear, if_pos ⟨le, lt⟩, if_pos ⟨by omega, by omega⟩]) a]
  split
  · rfl
  · next out => rw [read_clear, if_neg out]

/-! ### A row taken (R88, R98) -/

/-- A row of the current copy taken into the row map, its payload into the slot at `base` where it makes its record GOOD. -/
theorem storeRow_eq {s : State} {base pass copy : Nat} (readBase : s.readBase = some base) (pass_ : s.rdr.pass = some pass)
    (copy_ : s.rdr.copy = some copy) (x : Nat × RowRead) : s.storeRow x = { s with
      dbm := { s.dbm with dram := if goodOutcome x.2.outcome && !(s.rdr.row x.2.row.toNat).isGood
                                  then s.dbm.dram.place (base + x.2.row.toNat * 8192) 8192 x.2.payload else s.dbm.dram },
      rdr := { s.rdr with
        rows := s.rdr.rows.setIfInBounds x.2.row.toNat ((s.rdr.row x.2.row.toNat).take (goodOutcome x.2.outcome) pass copy),
        tallies := scoreRow s.rdr.tallies x.1 (!goodOutcome x.2.outcome) } } := by
  unfold State.storeRow
  dsimp only
  rw [readBase]
  dsimp only
  unfold State.when
  split
  · simp only [State.onRdr, State.onDbm, Dbm.onDram, pass_, copy_, Option.getD_some]
    rfl
  · simp only [State.onRdr, pass_, copy_, Option.getD_some]

theorem take_isGood (st : RowState) (ok : Bool) (pass copy : Nat) : (st.take ok pass copy).isGood = (st.isGood || ok) := by
  cases st <;> cases ok <;> rfl

theorem take_of_good {st : RowState} (good : st.isGood = true) (ok : Bool) (pass copy : Nat) : st.take ok pass copy = st := by
  cases st with
  | good p c => rfl
  | absent => cases good
  | erased p c => cases good

theorem take_of_bad {st : RowState} (bad : st.isGood = false) (ok : Bool) (pass copy : Nat) :
    st.take ok pass copy = if ok then .good pass copy else .erased pass copy := by
  cases st with
  | good p c => cases bad
  | absent => rfl
  | erased p c => rfl

theorem row_setIfInBounds (r : Rdr) (n m : Nat) (inside : n < 256) (st : RowState) (rows : Vector RowState 256) (e : rows = r.rows.setIfInBounds m st) :
    ({ r with rows := rows } : Rdr).row n = if n = m then st else r.row n := by
  subst e
  unfold Rdr.row
  by_cases same : n = m
  · subst same
    simp [inside]
  · simp [same, Ne.symm same, inside]

/-- The row whose payload stands in a record's place: the first good one of its number, where the record was not GOOD before. -/
def storedRow (row : Nat → RowState) (placed : List (Nat × RowRead)) (n : Nat) : Option (Nat × RowRead) :=
  if (row n).isGood then none else placed.find? (fun x => x.2.row.toNat == n && goodOutcome x.2.outcome)

/-- The record of a row once rows are placed. -/
def placedRow (row : Nat → RowState) (pass copy : Nat) (placed : List (Nat × RowRead)) (n : Nat) : RowState :=
  if (row n).isGood then row n else if (storedRow row placed n).isSome then .good pass copy
  else if placed.any (fun x => x.2.row.toNat == n) then .erased pass copy else row n

section
variable {row : Nat → RowState} {pass copy n : Nat} {placed : List (Nat × RowRead)} {x : Nat × RowRead}

theorem storedRow_concat : storedRow row (placed ++ [x]) n =
    if (row n).isGood then none else (storedRow row placed n).or (if x.2.row.toNat = n ∧ goodOutcome x.2.outcome = true then some x else none) := by
  unfold storedRow
  by_cases good : (row n).isGood = true
  · simp [good]
  · simp only [good, List.find?_append, List.find?_singleton, Bool.and_eq_true, beq_iff_eq]
    rfl

theorem placedRow_isGood : (placedRow row pass copy placed n).isGood = ((row n).isGood || (storedRow row placed n).isSome) := by
  unfold placedRow
  split
  · next good => rw [good, Bool.true_or]
  · next bad =>
    split
    · next stored => rw [stored, Bool.or_true]; rfl
    · next none_ =>
      rw [Bool.eq_false_iff.mpr bad, Bool.eq_false_iff.mpr none_]
      split
      · rfl
      · exact Bool.eq_false_iff.mpr bad

theorem storedRow_concat_other (other : x.2.row.toNat ≠ n) : storedRow row (placed ++ [x]) n = storedRow row placed n := by
  rw [storedRow_concat]
  split
  · next good => exact (if_pos good).symm
  · rw [if_neg (fun h => other h.1), Option.or_none]

/-- A further row leaves the other records. -/
theorem placedRow_concat_other (other : x.2.row.toNat ≠ n) : placedRow row pass copy (placed ++ [x]) n = placedRow row pass copy placed n := by
  have any : (placed ++ [x]).any (fun x => x.2.row.toNat == n) = placed.any (fun x => x.2.row.toNat == n) := by simp [other]
  unfold placedRow
  rw [storedRow_concat_other other, any]

/-- What a further row makes of its own record. -/
theorem placedRow_concat_same (same : x.2.row.toNat = n) : placedRow row pass copy (placed ++ [x]) n
    = (placedRow row pass copy placed n).take (goodOutcome x.2.outcome) pass copy := by
  by_cases good : (placedRow row pass copy placed n).isGood = true
  · rw [take_of_good good]
    rw [placedRow_isGood, Bool.or_eq_true] at good
    unfold placedRow
    rw [storedRow_concat]
    rcases good with good | stored
    · simp [good]
    · have bad : (row n).isGood = false := by
        by_contra good
        rw [Bool.not_eq_false] at good
        simp [storedRow, good] at stored
      obtain ⟨y, e⟩ := Option.isSome_iff_exists.mp stored
      simp [bad, e]
  · rw [take_of_bad (by simpa using good)]
    rw [placedRow_isGood, Bool.or_eq_true, not_or] at good
    obtain ⟨bad, none_⟩ := good
    have none' : storedRow row placed n = none := by simpa using none_
    unfold placedRow
    rw [storedRow_concat, none', if_neg bad, if_neg bad]
    cases ok : goodOutcome x.2.outcome with
    | true => simp [same]
    | false => simp [same]

end

/-- The tally of a channel once rows are placed, one at most on each channel. -/
def placedTally (tallies : Vector Tally 16) (placed : List (Nat × RowRead)) (c : Fin 16) : Tally :=
  match placed.find? (fun x => x.1 == c.val) with
  | some x => { rows := tallies[c].rows + 1, failed := tallies[c].failed + if goodOutcome x.2.outcome then 0 else 1 }
  | none => tallies[c]

/-- What `RowsPlaced` says, with a name for each thing it speaks of. -/
theorem rowsPlaced_iff {s t : State} {base pass copy : Nat} {row : Nat → RowState} {tallies : Vector Tally 16} {placed : List (Nat × RowRead)} :
    RowsPlaced s t base pass copy row tallies placed ↔ (∀ n : Nat, n < 256 → t.rdr.row n = placedRow row pass copy placed n)
      ∧ (∀ n k : Nat, n < 256 → k < 8192 → t.dbm.dram.read (base + 8192 * n + k) = match storedRow row placed n with
          | some x => (Memory.place [] 0 8192 x.2.payload).read k
          | none => s.dbm.dram.read (base + 8192 * n + k))
      ∧ (∀ a : Nat, (a < base ∨ base + 2097152 ≤ a) → t.dbm.dram.read a = s.dbm.dram.read a)
      ∧ (∀ c : Fin 16, t.rdr.tallies[c] = placedTally tallies placed c) := Iff.rfl

theorem placedTally_concat {tallies : Vector Tally 16} {placed : List (Nat × RowRead)} {x : Nat × RowRead} (channel : x.1 < 16)
    (fresh : ∀ y ∈ placed, y.1 ≠ x.1) {ts : Vector Tally 16} (c : Fin 16) (before : ts[c] = placedTally tallies placed c) :
    (scoreRow ts x.1 (!goodOutcome x.2.outcome))[c] = placedTally tallies (placed ++ [x]) c := by
  rw [scoreRow_get ts x.1 channel]
  unfold placedTally
  rw [List.find?_append, List.find?_singleton]
  by_cases same : x.1 = c.val
  · have none_ : placed.find? (fun y => y.1 == c.val) = none := List.find?_eq_none.mpr (fun y mem => by simpa [← same] using fresh y mem)
    rw [placedTally, none_] at before
    rw [none_, if_pos same, before]
    cases ok : goodOutcome x.2.outcome <;> simp [same, ok]
  · rw [if_neg same, before, placedTally, if_neg (by simpa using same), Option.or_none]

/-- The rows placed so far, with one more. -/
theorem RowsPlaced.storeRow {s t : State} {base pass copy : Nat} {row : Nat → RowState} {tallies : Vector Tally 16} {placed : List (Nat × RowRead)}
    (h : RowsPlaced s t base pass copy row tallies placed) (wf : t.dbm.dram.wf = true) (readBase : t.readBase = some base)
    (pass_ : t.rdr.pass = some pass) (copy_ : t.rdr.copy = some copy) {x : Nat × RowRead} (inside : x.2.row.toNat < 256) (channel : x.1 < 16)
    (fresh : ∀ y ∈ placed, y.1 ≠ x.1) : RowsPlaced s (t.storeRow x) base pass copy row tallies (placed ++ [x]) := by
  obtain ⟨rows, bytes, outside, scored⟩ := rowsPlaced_iff.mp h
  have own := rows _ inside
  rw [storeRow_eq readBase pass_ copy_, rowsPlaced_iff]
  refine ⟨fun n lt => ?_, fun n k lt ltk => ?_, fun a out => ?_, fun c => placedTally_concat channel fresh c (scored c)⟩
  · refine (row_setIfInBounds t.rdr n x.2.row.toNat lt _ _ rfl).trans ?_
    split
    · next same =>
      subst same
      rw [own]
      exact (placedRow_concat_same rfl).symm
    · next other => rw [rows n lt, placedRow_concat_other (fun e => other e.symm)]
  · dsimp only
    rw [own, placedRow_isGood]
    have before := bytes n k lt ltk
    by_cases same : x.2.row.toNat = n
    · subst same
      have here : base + x.2.row.toNat * 8192 ≤ base + 8192 * x.2.row.toNat + k
          ∧ base + 8192 * x.2.row.toNat + k < base + x.2.row.toNat * 8192 + 8192 := by omega
      have offset : base + 8192 * x.2.row.toNat + k - (base + x.2.row.toNat * 8192) = k := by omega
      rw [storedRow_concat]
      by_cases good : (row x.2.row.toNat).isGood = true
      · rw [storedRow, if_pos good] at before
        simpa [good] using before
      · cases stored : storedRow row placed x.2.row.toNat with
        | some y => simpa [good, stored] using before
        | none =>
          cases ok : goodOutcome x.2.outcome with
          | true => simp [good, read_place wf, here, offset]
          | false => simpa [good, stored] using before
    · rw [storedRow_concat_other same, ← before]
      split
      · rw [read_place wf, if_neg (by omega)]
      · rfl
  · dsimp only
    split
    · rw [read_place wf, if_neg (by omega), outside a out]
    · exact outside a out

end Sys2Proof.Machine
end

section
/-!
SUPPORT. The rows of a copy, placed by the span start that they name (R87, R88).
-/
namespace Sys2Proof.Machine
open Sys2Proof.Laws

/-! ### Rows taken in turn -/

/-- Only the DRAM, the row map and the tallies may differ. -/
def Captured (v t : State) : Prop :=
  ∃ (dram : Memory) (rows : Vector RowState 256) (tallies : Vector Tally 16),
    t = { v with dbm := { v.dbm with dram := dram }, rdr := { v.rdr with rows := rows, tallies := tallies } }

theorem Captured.refl (v : State) : Captured v v := ⟨_, _, _, rfl⟩

theorem Captured.trans {s t u : State} (h : Captured s t) (k : Captured t u) : Captured s u := by
  obtain ⟨_, _, _, rfl⟩ := h
  obtain ⟨_, _, _, rfl⟩ := k
  exact ⟨_, _, _, rfl⟩

theorem readBase_congr {v t : State} (activity : t.rdr.activity = v.rdr.activity) (slots : t.dbm.slots = v.dbm.slots)
    (drain : t.dbm.drain = v.dbm.drain) : t.readBase = v.readBase := by
  unfold State.readBase Dbm.take Dbm.find
  rw [activity, slots]
  have base (i : Nat) : t.dbm.base i = v.dbm.base i := by simp [Dbm.base, Dbm.number, drain]
  simp only [show t.dbm.base = v.dbm.base from funext base, Dbm.number, drain]

theorem Captured.readBase {v t : State} (h : Captured v t) : t.readBase = v.readBase := by
  obtain ⟨dram, rows, tallies, e⟩ := h
  exact readBase_congr (by rw [e]) (by rw [e]) (by rw [e])

/-- A row set's rows, one at most on each channel, none beyond the dataset's. -/
def RowSetRows (placed : List (Nat × RowRead)) : Prop :=
  (∀ x ∈ placed, x.1 < 16 ∧ x.2.row.toNat < 256) ∧ placed.Pairwise (fun x y => x.1 ≠ y.1)

theorem RowSetRows.filter {placed : List (Nat × RowRead)} (h : RowSetRows placed) (p : Nat × RowRead → Bool) : RowSetRows (placed.filter p) :=
  ⟨fun x mem => h.1 x (List.mem_filter.mp mem).1, h.2.sublist List.filter_sublist⟩

theorem mem_goodRows {rows : Vector (Option RowRead) 16} {wrap : Nat} {x : Nat × RowRead} (mem : x ∈ goodRows rows wrap) :
    x.1 < 16 ∧ goodHeader x.2 x.1 wrap = true ∧ isFiller x.2 = false := by
  obtain ⟨c, lt, e⟩ := List.mem_filterMap.mp mem
  split at e
  · next r _ =>
    split at e
    · next good =>
      obtain rfl := Option.some.inj e
      simp only [Bool.and_eq_true, Bool.not_eq_true'] at good
      exact ⟨List.mem_range.mp lt, good⟩
    · simp at e
  · simp at e

theorem rowSetRows_goodRows (rows : Vector (Option RowRead) 16) (wrap : Nat) : RowSetRows (goodRows rows wrap) := by
  refine ⟨fun x mem => ?_, ?_⟩
  · obtain ⟨channel, good, data⟩ := mem_goodRows mem
    have lt : x.2.row.toNat < 256 := by
      unfold goodHeader at good
      unfold isFiller at data
      simp only [Bool.and_eq_true, Bool.or_eq_true, data, Bool.false_eq_true, false_or, decide_eq_true_iff] at good
      exact good.2.1
    exact ⟨channel, lt⟩
  · refine List.Pairwise.filterMap (R := fun a b : Nat => a ≠ b) _ (fun a b ne x hx y hy => ?_) List.nodup_range
    have fst {c : Nat} {x : Nat × RowRead} (h : (match rows.toArray.getD c none with
        | some r => if goodHeader r c wrap && !isFiller r then some (c, r) else none
        | none => none) = some x) : x.1 = c := by
      split at h
      · split at h
        · exact (congrArg Prod.fst (Option.some.inj h)).symm
        · simp at h
      · simp at h
    rw [fst hx, fst hy]
    exact ne

/-- Rows taken in turn into a slot: what `RowsPlaced` says of them, and nothing else of the drive (R88, R98). -/
theorem storeRows_placed {v : State} {base pass copy : Nat} (wf : v.dbm.dram.wf = true) (readBase : v.readBase = some base)
    (pass_ : v.rdr.pass = some pass) (copy_ : v.rdr.copy = some copy) {placed : List (Nat × RowRead)} (rows : RowSetRows placed) :
    RowsPlaced v (placed.foldl State.storeRow v) base pass copy v.rdr.row v.rdr.tallies placed
    ∧ Captured v (placed.foldl State.storeRow v) ∧ (placed.foldl State.storeRow v).dbm.dram.wf = true := by
  induction placed using List.reverseRecOn with
  | nil =>
    refine ⟨rowsPlaced_iff.mpr ⟨fun n _ => ?_, fun n k _ _ => ?_, fun _ _ => rfl, fun _ => rfl⟩, .refl v, wf⟩
    · simp [placedRow, storedRow]
    · simp [storedRow]
  | append_singleton placed x ih =>
    obtain ⟨inside, apart⟩ := rows
    obtain ⟨before, -, fresh⟩ := List.pairwise_append.mp apart
    obtain ⟨placed_, captured, wf_⟩ := ih ⟨fun y mem => inside y (by simp [mem]), before⟩
    obtain ⟨channel, lt⟩ := inside x (by simp)
    rw [List.foldl_append, List.foldl_cons, List.foldl_nil]
    generalize placed.foldl State.storeRow v = t at placed_ captured wf_ ⊢
    have base_ : t.readBase = some base := captured.readBase.trans readBase
    obtain ⟨dram, rows, tallies, e⟩ := captured
    have tpass : t.rdr.pass = some pass := by rw [e]; exact pass_
    have tcopy : t.rdr.copy = some copy := by rw [e]; exact copy_
    refine ⟨placed_.storeRow wf_ base_ tpass tcopy lt channel (fun y mem => fresh y mem x (by simp)), ?_, ?_⟩
    · rw [storeRow_eq base_ tpass tcopy, e]
      exact ⟨_, _, _, rfl⟩
    · rw [storeRow_eq base_ tpass tcopy]
      dsimp only
      split
      · exact wf_place _ _ _ _ wf_
      · exact wf_

/-! ### The span start (R87) -/

theorem storeRow_start (t : State) (x : Nat × RowRead) : (t.storeRow x).rdr.start = t.rdr.start := by
  unfold State.storeRow
  dsimp only
  split
  · unfold State.when
    split <;> rfl
  · rfl

/-- A nominal row, which names its span's start. -/
def RowRead.nominal (x : Nat × RowRead) : Bool := x.2.attempt.toNat == 1
/-- The row set of a span that a row is of. -/
def RowRead.set (x : Nat × RowRead) : Nat := x.2.row.toNat / 16

/-- A row at a pitch moves a span start on to a later place. -/
def later (start l : Loc) (x : Nat × RowRead) : Bool :=
  RowRead.nominal x && decide (RowRead.set x ≤ l.pitch) && start.before ⟨l.wrap, l.pitch - RowRead.set x⟩

/-- A row at a pitch belongs to the copy with a span start. -/
def belongs (start l : Loc) (x : Nat × RowRead) : Bool :=
  l.wrap == start.wrap && (if RowRead.nominal x then l.pitch == start.pitch + RowRead.set x
    else decide (start.pitch + 16 ≤ l.pitch) && decide (l.pitch ≤ start.pitch + 19))

theorem before_total (a b : Loc) : a = b ∨ a.before b = true ∨ b.before a = true := by
  obtain ⟨aw, ap⟩ := a
  obtain ⟨bw, bp⟩ := b
  simp only [Loc.before, Bool.or_eq_true, Bool.and_eq_true, beq_iff_eq, decide_eq_true_iff, Loc.mk.injEq]
  omega

/-- A row at a known span start is placed where it belongs to it. -/
theorem placeRow_known {t : State} {start l : Loc} (known : t.rdr.start = some start) {x : Nat × RowRead} (early : later start l x = false) :
    State.placeRow l t x = if belongs start l x then t.storeRow x else t := by
  unfold State.placeRow
  by_cases nominal : x.2.attempt.toNat = 1
  · have nominal_ : RowRead.nominal x = true := by simpa [RowRead.nominal] using nominal
    rw [if_pos nominal, known]
    unfold impliedStart
    by_cases short : l.pitch < x.2.row.toNat / 16
    · have other : belongs start l x = false := by
        simp only [belongs, nominal_, if_true, RowRead.set, Bool.and_eq_false_iff, beq_eq_false_iff_ne]
        exact .inr (by omega)
      rw [if_pos short, other]
      rfl
    · rw [if_neg short]
      dsimp only
      have own : belongs start l x = true ↔ (⟨l.wrap, l.pitch - x.2.row.toNat / 16⟩ : Loc) = start := by
        obtain ⟨sw, sp⟩ := start
        simp only [belongs, nominal_, if_true, RowRead.set, Bool.and_eq_true, beq_iff_eq, Loc.mk.injEq]
        omega
      by_cases same : (⟨l.wrap, l.pitch - x.2.row.toNat / 16⟩ : Loc) = start
      · rw [if_pos same, if_pos (own.mpr same)]
      · have back : (⟨l.wrap, l.pitch - x.2.row.toNat / 16⟩ : Loc).before start = true := by
          have not_later : start.before ⟨l.wrap, l.pitch - RowRead.set x⟩ = false := by
            have reach : RowRead.set x ≤ l.pitch := Nat.le_of_not_lt short
            simpa [later, nominal_, reach] using early
          rcases before_total ⟨l.wrap, l.pitch - x.2.row.toNat / 16⟩ start with e | e | e
          · exact absurd e same
          · exact e
          · exact absurd (not_later.symm.trans e) (by simp)
        rw [if_neg same, if_pos back, if_neg (mt own.mp same)]
  · have rewrite_ : RowRead.nominal x = false := by simpa [RowRead.nominal] using nominal
    rw [if_neg nominal, known]
    dsimp only
    have same : inRewriteSets start l = belongs start l x := by
      simp [inRewriteSets, belongs, rewrite_, Bool.and_assoc]
    rw [same]

/-- With its span start known and no row to move it on, a copy takes the rows that belong to it. -/
theorem placeRows_known {t : State} {start l : Loc} (known : t.rdr.start = some start) {mine : List (Nat × RowRead)}
    (early : ∀ x ∈ mine, later start l x = false) : mine.foldl (State.placeRow l) t = (mine.filter (belongs start l)).foldl State.storeRow t := by
  induction mine generalizing t with
  | nil => rfl
  | cons x xs ih =>
    have rest {u : State} (h : u.rdr.start = some start) := ih h (fun y mem => early y (by simp [mem]))
    rw [List.foldl_cons, placeRow_known known (early x (by simp)), List.filter_cons]
    split
    · rw [rest ((storeRow_start t x).trans known), List.foldl_cons]
    · rw [rest known]

/-- A copy with no span start takes its nominal rows, which give it where they are of one set (R87). -/
theorem placeRows_first {t : State} {l : Loc} {j : Nat} (unknown : t.rdr.start = none)
    (lists : (t.rdr.setStart ⟨l.wrap, l.pitch - j⟩).start = some ⟨l.wrap, l.pitch - j⟩) (reach : j ≤ l.pitch) {mine : List (Nat × RowRead)}
    (rows : ∀ x ∈ mine, x.2.row.toNat < 256) (sets : ∀ x ∈ mine, RowRead.nominal x = true → RowRead.set x = j) :
    mine.foldl (State.placeRow l) t = (mine.filter RowRead.nominal).foldl State.storeRow
      (if mine.any RowRead.nominal then t.onRdr (·.setStart ⟨l.wrap, l.pitch - j⟩) else t) := by
  induction mine with
  | nil => rfl
  | cons x xs ih =>
    have rest := ih (fun y mem => rows y (by simp [mem])) (fun y mem => sets y (by simp [mem]))
    by_cases nominal : RowRead.nominal x = true
    · have set_ := sets x (by simp) nominal
      have small : j < 16 := by
        have := rows x (by simp)
        unfold RowRead.set at set_
        omega
      have placed : State.placeRow l t x = (t.onRdr (·.setStart ⟨l.wrap, l.pitch - j⟩)).storeRow x := by
        unfold State.placeRow
        rw [if_pos (by simpa [RowRead.nominal] using nominal), unknown]
        unfold impliedStart
        rw [show x.2.row.toNat / 16 = j from set_, if_neg (by omega)]
      have known : ((t.onRdr (·.setStart ⟨l.wrap, l.pitch - j⟩)).storeRow x).rdr.start = some ⟨l.wrap, l.pitch - j⟩ :=
        (storeRow_start _ x).trans lists
      have early (y : Nat × RowRead) (mem : y ∈ xs) : later ⟨l.wrap, l.pitch - j⟩ l y = false := by
        by_cases n : RowRead.nominal y = true
        · simp [later, sets y (by simp [mem]) n, Loc.before]
        · simp [later, n]
      have own (y : Nat × RowRead) (mem : y ∈ xs) : belongs ⟨l.wrap, l.pitch - j⟩ l y = RowRead.nominal y := by
        by_cases n : RowRead.nominal y = true
        · simp [belongs, n, sets y (by simp [mem]) n]
          omega
        · simp [belongs, n]
          omega
      rw [List.foldl_cons, placed, placeRows_known known early, List.filter_cons_of_pos nominal, List.foldl_cons, List.filter_congr own]
      simp [nominal]
    · have skipped : State.placeRow l t x = t := by
        unfold State.placeRow
        rw [if_neg (by simpa [RowRead.nominal] using nominal), unknown]
      rw [List.foldl_cons, skipped, rest, List.filter_cons_of_neg nominal, List.any_cons, Bool.eq_false_iff.mpr nominal, Bool.false_or]

/-- Rows that all move the span start on to one later place: what the copy had taken is given up, and they are placed (R87). -/
theorem placeRows_later {t : State} {start l : Loc} {j : Nat} (known : t.rdr.start = some start)
    (lists : ((Rdr.clearCopy t.rdr).setStart ⟨l.wrap, l.pitch - j⟩).start = some ⟨l.wrap, l.pitch - j⟩) {mine : List (Nat × RowRead)} (some_ : mine ≠ [])
    (moves : ∀ x ∈ mine, later start l x = true ∧ RowRead.set x = j) :
    mine.foldl (State.placeRow l) t = mine.foldl State.storeRow (t.onRdr (fun r => (Rdr.clearCopy r).setStart ⟨l.wrap, l.pitch - j⟩)) := by
  cases mine with
  | nil => exact absurd rfl some_
  | cons x xs =>
    have parts (y : Nat × RowRead) (mem : y ∈ x :: xs) : RowRead.nominal y = true ∧ j ≤ l.pitch ∧ start.before ⟨l.wrap, l.pitch - j⟩ = true := by
      obtain ⟨late, set_⟩ := moves y mem
      simpa [later, set_, and_assoc] using late
    obtain ⟨nominal, reach, after⟩ := parts x (by simp)
    have placed : State.placeRow l t x = (t.onRdr (fun r => (Rdr.clearCopy r).setStart ⟨l.wrap, l.pitch - j⟩)).storeRow x := by
      have different : (⟨l.wrap, l.pitch - j⟩ : Loc) ≠ start := by
        rintro rfl
        simp [Loc.before] at after
      have not_back : (⟨l.wrap, l.pitch - j⟩ : Loc).before start = false := by
        simp only [Loc.before, Bool.or_eq_true, Bool.and_eq_true, beq_iff_eq, decide_eq_true_iff, Bool.or_eq_false_iff, Bool.and_eq_false_iff,
          beq_eq_false_iff_ne, decide_eq_false_iff_not] at after ⊢
        omega
      unfold State.placeRow
      rw [if_pos (by simpa [RowRead.nominal] using nominal), known]
      unfold impliedStart
      rw [show x.2.row.toNat / 16 = j from (moves x (by simp)).2, if_neg (by omega)]
      dsimp only
      rw [if_neg different, not_back]
      rfl
    have known' : ((t.onRdr (fun r => (Rdr.clearCopy r).setStart ⟨l.wrap, l.pitch - j⟩)).storeRow x).rdr.start = some ⟨l.wrap, l.pitch - j⟩ :=
      (storeRow_start _ x).trans lists
    have early (y : Nat × RowRead) (mem : y ∈ xs) : later ⟨l.wrap, l.pitch - j⟩ l y = false := by
      simp [later, (moves y (by simp [mem])).2, Loc.before]
    have own (y : Nat × RowRead) (mem : y ∈ xs) : belongs ⟨l.wrap, l.pitch - j⟩ l y = true := by
      simp [belongs, (parts y (by simp [mem])).1, (moves y (by simp [mem])).2]
      omega
    rw [List.foldl_cons, List.foldl_cons, placed, placeRows_known known' early, List.filter_eq_self.mpr own]

end Sys2Proof.Machine
end

section
/-!
PROPERTY. A pitch read: the headers counted, a copy opened, its rows placed, end of data at the 64th blank (R84 to R88, R95, R98).
-/
namespace Sys2Proof.Machine
open Sys2Proof.Laws

/-! ### A pitch classified by the Reader alone (R84) -/

/-- What the Reader makes of a pitch's content. -/
def State.readContent (s : State) (l : Loc) : PitchContent → State
  | .rowSet rows => s.readRows l rows
  | .separator => s.readSeparator l
  | .endPattern => s.readPattern l
  | .blank => s.readBlank l

theorem writeIdle_iff (s : State) : s.writeIdle = true ↔
    s.dbm.direction ≠ .write ∧ s.cu.progress.waitsForWriting = false ∧ s.cu.progress ≠ .filemarks := by
  simp [State.writeIdle, and_assoc]

theorem advance_of_writeIdle {s : State} (idle : s.writeIdle = true) : s.advance = s := by
  obtain ⟨direction, waits, other⟩ := (writeIdle_iff s).mp idle
  exact advance_eq (writesNext_of_direction direction) waits other

theorem openLoading_unasked {s : State} (wanted : s.rdr.wanted = false) : s.openLoading = s := openLoading_eq_self (.inl wanted)

/-- What the Reader makes of a pitch is the step, where nothing else follows it. -/
theorem readPitch_eq {s u : State} {l : Loc} {c : PitchContent} (locked : s.locked = true) (here : s.pitchHere = some l) (inside : l.pitch + 1 < s.pitches)
    (wanted : s.rdr.wanted = false) (activity : s.rdr.activity = .seeking ∨ s.rdr.activity = .capturing) (reads : s.readContent l c = u)
    (scan : u.pu.scan = none) (type : u.rtc.typeCode = s.rtc.typeCode) (idle : u.advance = u) : exec (.readPitch c) s = .next u := by
  have classifies : s.rdr.classifies = true := by rcases activity with e | e <;> simp [Rdr.classifies, e]
  have header : (s.rdr.activity == .header) = false := by rcases activity with e | e <;> simp [e]
  have read : s.readPitchAt l c = u := by
    have content : (match c with
        | .rowSet rows => s.readRows l rows
        | .separator => s.readSeparator l
        | .endPattern => s.readPattern l
        | .blank => s.readBlank l) = u := by cases c <;> exact reads
    unfold State.readPitchAt
    rw [classifies, header]
    simp only [Bool.not_true, Bool.false_and, Bool.false_eq_true, if_false]
    have last : ¬ l.pitch + 1 = u.pitches := by
      rw [pitches_congr type]
      omega
    cases c <;> simp only at content ⊢ <;> rw [content, if_neg last]
  refine congrArg Host.Outcome.next ?_
  unfold State.pitchRead
  rw [here]
  dsimp only
  rw [if_pos locked, openLoading_unasked wanted, read]
  unfold State.scanPitch
  rw [scan]
  exact idle

theorem onScan_none {s : State} (scan : s.pu.scan = none) (f : Scan → Scan) : s.onScan f = s := by
  show { s with pu := { s.pu with scan := s.pu.scan.map f } } = s
  rw [scan]
  show { s with pu := { s.pu with scan := none } } = s
  rw [← scan]

/-- A pitch while nothing is read passes (R84). -/
theorem readPitch_passes {s : State} (writes : s.writeIdle = true) (reads : s.readIdle = true) (c : PitchContent) : exec (.readPitch c) s = .next s := by
  obtain ⟨scan, classifies, -, wanted⟩ := (readIdle_iff s).mp reads
  have passed : s.pitchRead c = s := by
    unfold State.pitchRead
    split
    · rfl
    · split
      · have unread (l : Loc) : s.readPitchAt l c = s := by simp [State.readPitchAt, classifies]
        rw [openLoading_unasked wanted, unread, State.scanPitch, scan]
      · have unread (l : Loc) : s.readUnseen l = s := by simp [State.readUnseen, classifies]
        rw [unread, State.scanUnseen, onScan_none scan]
  exact congrArg Host.Outcome.next (by rw [passed]; exact advance_of_writeIdle writes)

/-! ### A row set (R85 to R88) -/

/-- The blank run ended and the bad headers counted by a row set (R84, R85). -/
def Rdr.counted (r : Rdr) (bad : Nat) : Rdr :=
  { r with blankRun := 0, blankStart := none, headerErrors := min 65535 (r.headerErrors + bad) }

/-- The rows of a row set that are of dataset n. -/
def rowsOf (n : Nat) (rows : Vector (Option RowRead) 16) (wrap : Nat) : List (Nat × RowRead) :=
  (goodRows rows wrap).filter (fun x => x.2.dataset.toNat == n)

theorem readRows_none {s : State} {l : Loc} {rows : Vector (Option RowRead) 16} (none_ : goodRows rows l.wrap = []) :
    s.readRows l rows = s.onRdr (·.counted (badHeaders rows l.wrap)) := by
  unfold State.readRows
  dsimp only
  rw [none_]
  cases e : s.rdr.expected with
  | none => simp only [onRdr_rdr, e]; rfl
  | some p => simp only [onRdr_rdr, e]; rfl

theorem readRows_mine {s : State} {l : Loc} {rows : Vector (Option RowRead) 16} {n p : Nat} (expected : s.rdr.expected = some (n, p))
    (some_ : rowsOf n rows l.wrap ≠ []) : s.readRows l rows = (s.onRdr (·.counted (badHeaders rows l.wrap))).takeRows l (rowsOf n rows l.wrap) := by
  unfold State.readRows
  dsimp only
  simp only [onRdr_rdr, expected]
  rw [if_pos (by simpa [rowsOf] using some_)]
  rfl

theorem storeRow_captured (s : State) (x : Nat × RowRead) : Captured s (s.storeRow x) := by
  unfold State.storeRow
  dsimp only
  split
  · unfold State.when
    split <;> exact ⟨_, _, _, rfl⟩
  · exact ⟨_, _, _, rfl⟩

theorem storeRows_captured (s : State) (placed : List (Nat × RowRead)) : Captured s (placed.foldl State.storeRow s) := by
  induction placed generalizing s with
  | nil => exact .refl s
  | cons x xs ih => exact (storeRow_captured s x).trans (ih _)

/-- A copy open takes the rows. -/
theorem takeRows_open {s : State} {l : Loc} (copyOpen : s.rdr.copyOpen = true) (mine : List (Nat × RowRead)) :
    s.takeRows l mine = mine.foldl (State.placeRow l) s := by
  unfold State.takeRows
  dsimp only
  rw [if_pos copyOpen, if_pos copyOpen]

/-- The first copy of a pass opened at a pitch (R86, R87). -/
def Rdr.firstCopy (r : Rdr) (l : Loc) : Rdr :=
  { r with copy := some 1, opened := some l, copyOpen := true, tallies := Tally.zeros, activity := .capturing }

theorem takeRows_opens {s : State} {l : Loc} (copyOpen : s.rdr.copyOpen = false) (copies : s.rdr.copies = []) (seeking : s.rdr.activity = .seeking)
    (mine : List (Nat × RowRead)) : s.takeRows l mine = mine.foldl (State.placeRow l) (s.onRdr (·.firstCopy l)) := by
  have opens : s.openCopy l = s.onRdr (·.firstCopy l) := by
    unfold State.openCopy
    simp [copies, seeking, State.onRdr, Rdr.firstCopy]
  unfold State.takeRows
  simp only [copyOpen, Bool.false_eq_true, if_false]
  rw [opens]
  exact if_pos rfl

/-- Only the DRAM and what the Reader holds of a copy's rows may differ. -/
def Placing (v t : State) : Prop :=
  ∃ (dram : Memory) (rows : Vector RowState 256) (tallies : Vector Tally 16) (copies : List Loc),
    t = { v with dbm := { v.dbm with dram := dram }, rdr := { v.rdr with rows := rows, tallies := tallies, copies := copies } }

theorem Placing.refl (v : State) : Placing v v := ⟨_, _, _, _, rfl⟩

theorem Placing.trans {s t u : State} (h : Placing s t) (k : Placing t u) : Placing s u := by
  obtain ⟨_, _, _, _, rfl⟩ := h
  obtain ⟨_, _, _, _, rfl⟩ := k
  exact ⟨_, _, _, _, rfl⟩

theorem Captured.placing {v t : State} (h : Captured v t) : Placing v t := by
  obtain ⟨_, _, _, rfl⟩ := h
  exact ⟨_, _, _, v.rdr.copies, rfl⟩

theorem Placing.setStart (t : State) (l : Loc) : Placing t (t.onRdr (·.setStart l)) := ⟨t.dbm.dram, t.rdr.rows, t.rdr.tallies, _, rfl⟩

theorem placeRow_placing (l : Loc) (t : State) (x : Nat × RowRead) : Placing t (State.placeRow l t x) := by
  have store (u : State) : Placing u (u.storeRow x) := (storeRow_captured u x).placing
  unfold State.placeRow
  split
  · split
    · exact .refl t
    · exact (Placing.setStart t _).trans (store _)
    · split
      · exact store t
      · split
        · exact .refl t
        · exact Placing.trans ⟨_, _, _, _, rfl⟩ (store _)
  · split
    · split
      · exact store t
      · exact .refl t
    · exact .refl t

theorem placeRows_placing (l : Loc) (t : State) (mine : List (Nat × RowRead)) : Placing t (mine.foldl (State.placeRow l) t) := by
  induction mine generalizing t with
  | nil => exact .refl t
  | cons x xs ih => exact (placeRow_placing l t x).trans (ih _)

/-- A row set whose rows a copy takes is the step. -/
theorem rowSet_taken {s t : State} {l : Loc} {n p : Nat} {rows : Vector (Option RowRead) 16} (writes : s.writeIdle = true) (locked : s.locked = true)
    (here : s.pitchHere = some l) (inside : l.pitch + 1 < s.pitches) (scan : s.pu.scan = none) (wanted : s.rdr.wanted = false)
    (expected : s.rdr.expected = some (n, p)) (some_ : rowsOf n rows l.wrap ≠ [])
    (activity : s.rdr.activity = .seeking ∨ s.rdr.activity = .capturing)
    (taken : (s.onRdr (·.counted (badHeaders rows l.wrap))).takeRows l (rowsOf n rows l.wrap) = t)
    (placing : ∃ f : Rdr → Rdr, Placing (s.onRdr f) t) : exec (.readPitch (.rowSet rows)) s = .next t := by
  obtain ⟨f, dram, rows', tallies, copies, e⟩ := placing
  refine readPitch_eq locked here inside wanted activity ((readRows_mine expected some_).trans taken) (by rw [e]; exact scan) (by rw [e]; rfl) ?_
  exact advance_of_writeIdle (by rw [e]; exact writes)

end Sys2Proof.Machine
end

section
/-!
PROPERTY. A pitch read: the headers counted, a copy opened, its rows placed, end of data at the 64th blank (R84 to R88, R95, R98).
-/
namespace Sys2Proof.Machine
open Sys2Proof.Laws

/-! ### Where the rows of a set go -/

theorem row_map (r : Rdr) (f : RowState → RowState) (absent : f .absent = .absent) (n : Nat) :
    ({ r with rows := r.rows.map f } : Rdr).row n = f (r.row n) := by
  unfold Rdr.row
  by_cases inside : n < 256
  · simp [inside]
  · simp [inside, absent]

section
variable {s : State} {l : Loc} {n p i k pass : Nat} {rows : Vector (Option RowRead) 16} {start : Loc}

theorem rowsOf_rows : RowSetRows (rowsOf n rows l.wrap) := (rowSetRows_goodRows rows l.wrap).filter _

/-- The state in which a first copy takes its rows: opened, with its span start listed where a nominal row gives it. -/
def State.firstTaking (s : State) (l : Loc) (bad : Nat) (nominal : Bool) (start : Loc) : State :=
  s.onRdr (fun r => if nominal then ((r.counted bad).firstCopy l).setStart start else (r.counted bad).firstCopy l)

theorem firstTaking_eq (bad : Nat) (nominal : Bool) : s.firstTaking l bad nominal start =
    if nominal then ((s.onRdr (·.counted bad)).onRdr (·.firstCopy l)).onRdr (·.setStart start) else (s.onRdr (·.counted bad)).onRdr (·.firstCopy l) := by
  cases nominal <;> rfl

theorem firstCopy_start (copies : s.rdr.copies = []) (bad : Nat) : ((s.rdr.counted bad).firstCopy l).start = none := by
  simp [Rdr.start, Rdr.firstCopy, Rdr.counted, copies]

theorem firstCopy_setStart (copies : s.rdr.copies = []) (bad : Nat) (start : Loc) :
    ((s.rdr.counted bad).firstCopy l).setStart start = { (s.rdr.counted bad).firstCopy l with copies := [start] } := by
  unfold Rdr.setStart
  rw [firstCopy_start copies]
  simp [Rdr.firstCopy, Rdr.counted, copies]

/-- The rows that a first copy takes of a set whose nominal rows name one span start. -/
theorem takeRows_first {j : Nat} (copyOpen : s.rdr.copyOpen = false) (copies : s.rdr.copies = []) (seeking : s.rdr.activity = .seeking)
    (reach : j ≤ l.pitch) (sets : ∀ x ∈ rowsOf n rows l.wrap, RowRead.nominal x = true → RowRead.set x = j) :
    (s.onRdr (·.counted (badHeaders rows l.wrap))).takeRows l (rowsOf n rows l.wrap) = ((rowsOf n rows l.wrap).filter RowRead.nominal).foldl State.storeRow
      (s.firstTaking l (badHeaders rows l.wrap) ((rowsOf n rows l.wrap).any RowRead.nominal) ⟨l.wrap, l.pitch - j⟩) := by
  rw [takeRows_opens (s := s.onRdr (·.counted (badHeaders rows l.wrap))) copyOpen copies seeking,
    placeRows_first (firstCopy_start copies _) ?_ reach (fun x mem => (rowsOf_rows.1 x mem).2) sets, firstTaking_eq]
  have set_ := firstCopy_setStart (l := l) copies (badHeaders rows l.wrap) ⟨l.wrap, l.pitch - j⟩
  rw [show ((s.onRdr (·.counted (badHeaders rows l.wrap))).onRdr (·.firstCopy l)).rdr = (s.rdr.counted (badHeaders rows l.wrap)).firstCopy l from rfl, set_]
  rfl

/-- A first copy opened by a row set with no nominal row of the dataset lists no span start. -/
theorem takeRows_rewrites (copyOpen : s.rdr.copyOpen = false) (copies : s.rdr.copies = []) (seeking : s.rdr.activity = .seeking)
    (none_ : ∀ x ∈ rowsOf n rows l.wrap, RowRead.nominal x = false) :
    (s.onRdr (·.counted (badHeaders rows l.wrap))).takeRows l (rowsOf n rows l.wrap) = s.firstTaking l (badHeaders rows l.wrap) false ⟨l.wrap, 0⟩ := by
  have first := takeRows_first (s := s) (l := l) (n := n) (rows := rows) (j := 0) copyOpen copies seeking (Nat.zero_le _)
    (fun x mem nominal => absurd ((none_ x mem).symm.trans nominal) (by simp))
  rw [first, List.filter_eq_nil_iff.mpr (fun x mem => by simp [none_ x mem]), List.any_eq_false.mpr (fun x mem => by simp [none_ x mem])]
  rfl

variable (writes : s.writeIdle = true) (locked : s.locked = true) (here : s.pitchHere = some l) (inside : l.pitch + 1 < s.pitches)
  (scan : s.pu.scan = none) (wanted : s.rdr.wanted = false) (expected : s.rdr.expected = some (n, p)) (some_ : rowsOf n rows l.wrap ≠ [])
include writes locked here inside scan wanted expected some_

/-- A copy opened by a row set while seeking: copy 1, at its pitch, with the span start that its nominal rows give (R87). -/
theorem rowSet_opens (seeking : s.rdr.activity = .seeking) (copyOpen : s.rdr.copyOpen = false) (copies : s.rdr.copies = []) :
    ∃ t : State, exec (.readPitch (.rowSet rows)) s = .next t ∧ t.rdr.activity = .capturing
      ∧ t.rdr.copyOpen = true ∧ t.rdr.copy = some 1 ∧ t.rdr.opened = some l ∧ t.rdr.blankRun = 0
      ∧ ((∀ x ∈ rowsOf n rows l.wrap, x.2.attempt.toNat ≠ 1) → t.rdr.copies = [])
      ∧ (∀ k : Nat, k ≤ l.pitch → (∃ x ∈ rowsOf n rows l.wrap, x.2.attempt.toNat = 1)
          → (∀ x ∈ rowsOf n rows l.wrap, x.2.attempt.toNat = 1 → x.2.row.toNat / 16 = k) → t.rdr.copies = [⟨l.wrap, l.pitch - k⟩])
      ∧ t.rdr.headerErrors = min 65535 (s.rdr.headerErrors + badHeaders rows l.wrap)
      ∧ t.dbm.slots = s.dbm.slots ∧ t.cu = s.cu ∧ t.pu = s.pu ∧ t.rtc = s.rtc ∧ t.spu = s.spu := by
  obtain ⟨v, hv⟩ : ∃ v : State, v = (s.onRdr (·.counted (badHeaders rows l.wrap))).onRdr (·.firstCopy l) := ⟨_, rfl⟩
  obtain ⟨t, ht⟩ : ∃ t : State, t = (rowsOf n rows l.wrap).foldl (State.placeRow l) v := ⟨_, rfl⟩
  have taken : (s.onRdr (·.counted (badHeaders rows l.wrap))).takeRows l (rowsOf n rows l.wrap) = t := by
    rw [ht, hv]
    exact takeRows_opens (s := s.onRdr (·.counted (badHeaders rows l.wrap))) copyOpen copies seeking _
  have placing : Placing v t := by rw [ht]; exact placeRows_placing l v _
  have next := rowSet_taken writes locked here inside scan wanted expected some_ (.inl seeking) taken
    ⟨fun r => (r.counted (badHeaders rows l.wrap)).firstCopy l, by rw [hv] at placing; exact placing⟩
  obtain ⟨dram, rows', tallies, copies_, e⟩ := placing
  have only (mem : ∀ x ∈ rowsOf n rows l.wrap, x.2.attempt.toNat ≠ 1) : t.rdr.copies = [] := by
    rw [← taken, takeRows_rewrites copyOpen copies seeking (fun x m => by simpa [RowRead.nominal] using mem x m)]
    exact copies
  have given (k : Nat) (reach : k ≤ l.pitch) (one : ∃ x ∈ rowsOf n rows l.wrap, x.2.attempt.toNat = 1)
      (sets : ∀ x ∈ rowsOf n rows l.wrap, x.2.attempt.toNat = 1 → x.2.row.toNat / 16 = k) : t.rdr.copies = [⟨l.wrap, l.pitch - k⟩] := by
    have any : (rowsOf n rows l.wrap).any RowRead.nominal = true := by
      obtain ⟨x, mem, nominal⟩ := one
      exact List.any_eq_true.mpr ⟨x, mem, by simpa [RowRead.nominal] using nominal⟩
    have first := takeRows_first (n := n) (rows := rows) copyOpen copies seeking reach (fun x mem nominal => sets x mem (by simpa [RowRead.nominal] using nominal))
    rw [taken, any] at first
    obtain ⟨_, _, _, c⟩ := storeRows_captured (s.firstTaking l (badHeaders rows l.wrap) true ⟨l.wrap, l.pitch - k⟩)
      ((rowsOf n rows l.wrap).filter RowRead.nominal)
    rw [first, c]
    exact congrArg Rdr.copies (firstCopy_setStart (l := l) copies _ _)
  refine ⟨t, next, ?_, ?_, ?_, ?_, ?_, only, given, ?_, ?_, ?_, ?_, ?_, ?_⟩ <;> rw [e, hv] <;> rfl

end

end Sys2Proof.Machine
end

section
/-!
PROPERTY. A pitch read: the headers counted, a copy opened, its rows placed, end of data at the 64th blank (R84 to R88, R95, R98).
-/
namespace Sys2Proof.Machine
open Sys2Proof.Laws

/-! ### The rows of a set placed and scored -/

section
variable {s : State} {l : Loc} {n p i k pass : Nat} {rows : Vector (Option RowRead) 16} {start : Loc}

/-- A row set of the expected dataset leaves this: rows placed in the LOADING slot for a copy, the span starts listed, and nothing else. -/
def SetPlaced (s : State) (l : Loc) (rows : Vector (Option RowRead) 16) (base pass copy : Nat) (row : Nat → RowState) (tallies : Vector Tally 16)
    (placed : List (Nat × RowRead)) (copies : List Loc) : Prop :=
  ∃ t : State, exec (.readPitch (.rowSet rows)) s = .next t ∧ RowsPlaced s t base pass copy row tallies placed
    ∧ t.rdr.copies = copies ∧ t.rdr.copy = some copy ∧ t.rdr.activity = .capturing ∧ t.rdr.copyOpen = true ∧ t.rdr.pass = some pass
    ∧ t.rdr.headerErrors = min 65535 (s.rdr.headerErrors + badHeaders rows l.wrap)
    ∧ t.dbm.slots = s.dbm.slots ∧ t.cu = s.cu ∧ t.pu = s.pu ∧ t.rtc = s.rtc ∧ t.spu = s.spu ∧ t.hm = s.hm

theorem readBase_capturing {v : State} (capturing : v.rdr.activity = .capturing) (found : v.dbm.find .loading = some i) :
    v.readBase = some (2097152 * ((v.dbm.drain + i) % 512)) := by
  unfold State.readBase
  rw [capturing, found]
  rfl

theorem start_listed {r : Rdr} {copy : Nat} (copy_ : r.copy = some copy) : r.start = r.copies[copy - 1]? := by
  unfold Rdr.start
  rw [copy_]
  rfl

/-- The span start of an open copy that has none goes to the end of the list (R87). -/
theorem setStart_unknown {r : Rdr} {copy : Nat} (copy_ : r.copy = some copy) (next : r.copies.length + 1 = copy) (at_ : Loc) :
    r.start = none ∧ r.setStart at_ = { r with copies := r.copies ++ [at_] } ∧ (r.setStart at_).start = some at_ := by
  have unknown : r.start = none := by
    rw [start_listed copy_]
    exact List.getElem?_eq_none (by omega)
  have set_ : r.setStart at_ = { r with copies := r.copies ++ [at_] } := by
    unfold Rdr.setStart
    rw [unknown]
    rfl
  refine ⟨unknown, set_, ?_⟩
  rw [set_, start_listed (r := { r with copies := r.copies ++ [at_] }) copy_]
  simp [← next]

/-- The span start of an open copy that has one is replaced (R87). -/
theorem setStart_known {r : Rdr} {copy : Nat} (copy_ : r.copy = some copy) (known : r.copies[copy - 1]? = some start) (at_ : Loc) :
    r.setStart at_ = { r with copies := r.copies.set (copy - 1) at_ } ∧ (r.setStart at_).start = some at_ := by
  have set_ : r.setStart at_ = { r with copies := r.copies.set (copy - 1) at_ } := by
    unfold Rdr.setStart
    rw [start_listed copy_, known, copy_]
    rfl
  have lt : copy - 1 < r.copies.length := (List.getElem?_eq_some_iff.mp known).1
  refine ⟨set_, ?_⟩
  rw [set_, start_listed (r := { r with copies := r.copies.set (copy - 1) at_ }) copy_]
  simp [lt]

variable (writes : s.writeIdle = true) (locked : s.locked = true) (here : s.pitchHere = some l) (inside : l.pitch + 1 < s.pitches)
  (scan : s.pu.scan = none) (wanted : s.rdr.wanted = false) (expected : s.rdr.expected = some (n, p)) (some_ : rowsOf n rows l.wrap ≠ [])
  (found : s.dbm.find .loading = some i) (wf : s.dbm.dram.wf = true) (pass_ : s.rdr.pass = some pass)
include writes locked here inside scan wanted expected some_ found wf pass_

/-- Rows taken in turn by a Reader that captures. -/
theorem setPlaced_of_taken {r : Rdr} {placed : List (Nat × RowRead)} (activity : s.rdr.activity = .seeking ∨ s.rdr.activity = .capturing)
    (taken : (s.onRdr (·.counted (badHeaders rows l.wrap))).takeRows l (rowsOf n rows l.wrap) = placed.foldl State.storeRow { s with rdr := r })
    (rows_ : RowSetRows placed) (capturing : r.activity = .capturing) (copyOpen : r.copyOpen = true) (copy_ : r.copy = some k)
    (samePass : r.pass = s.rdr.pass) (counted : r.headerErrors = (s.rdr.counted (badHeaders rows l.wrap)).headerErrors) :
    SetPlaced s l rows (2097152 * ((s.dbm.drain + i) % 512)) pass k r.row r.tallies placed r.copies := by
  have pass' : ({ s with rdr := r } : State).rdr.pass = some pass := samePass.trans pass_
  obtain ⟨placed_, captured, -⟩ := storeRows_placed (v := { s with rdr := r }) wf (readBase_capturing capturing found) pass' copy_ rows_
  have next := rowSet_taken writes locked here inside scan wanted expected some_ activity taken ⟨fun _ => r, captured.placing⟩
  refine ⟨_, next, placed_, ?_⟩
  obtain ⟨dram, rows', tallies, e⟩ := captured
  rw [e]
  exact ⟨rfl, copy_, capturing, copyOpen, pass', counted, rfl, rfl, rfl, rfl, rfl, rfl⟩

/-- A first copy opened: its nominal rows, which name one span start (R87). -/
theorem setPlaced_first {j : Nat} (reach : j ≤ l.pitch) (sets : ∀ x ∈ rowsOf n rows l.wrap, RowRead.nominal x = true → RowRead.set x = j)
    (seeking : s.rdr.activity = .seeking) (copyOpen : s.rdr.copyOpen = false) (copies : s.rdr.copies = []) :
    SetPlaced s l rows (2097152 * ((s.dbm.drain + i) % 512)) pass 1 s.rdr.row Tally.zeros ((rowsOf n rows l.wrap).filter RowRead.nominal)
      (if (rowsOf n rows l.wrap).any RowRead.nominal then [⟨l.wrap, l.pitch - j⟩] else []) := by
  obtain ⟨found_, def_⟩ : ∃ list : List Loc, list = if (rowsOf n rows l.wrap).any RowRead.nominal then [⟨l.wrap, l.pitch - j⟩] else [] := ⟨_, rfl⟩
  have taken := takeRows_first copyOpen copies seeking reach sets
  have opened : s.firstTaking l (badHeaders rows l.wrap) ((rowsOf n rows l.wrap).any RowRead.nominal) ⟨l.wrap, l.pitch - j⟩
      = { s with rdr := { (s.rdr.counted (badHeaders rows l.wrap)).firstCopy l with copies := found_ } } := by
    have listed := firstCopy_setStart (s := s) (l := l) copies (badHeaders rows l.wrap) ⟨l.wrap, l.pitch - j⟩
    unfold State.firstTaking State.onRdr
    dsimp only
    rw [listed, def_]
    cases (rowsOf n rows l.wrap).any RowRead.nominal with
    | true => rfl
    | false => simp [Rdr.firstCopy, Rdr.counted, copies]
  rw [opened] at taken
  rw [← def_]
  exact setPlaced_of_taken writes locked here inside scan wanted expected some_ found wf pass_ (.inl seeking) taken (rowsOf_rows.filter _)
    rfl rfl rfl rfl rfl

/-- A copy open with no span start: its nominal rows, which name one (R87). -/
theorem setPlaced_unknown {j : Nat} (reach : j ≤ l.pitch) (sets : ∀ x ∈ rowsOf n rows l.wrap, RowRead.nominal x = true → RowRead.set x = j)
    (capturing : s.rdr.activity = .capturing) (copyOpen : s.rdr.copyOpen = true) (copy_ : s.rdr.copy = some k) (next : s.rdr.copies.length + 1 = k) :
    SetPlaced s l rows (2097152 * ((s.dbm.drain + i) % 512)) pass k s.rdr.row s.rdr.tallies ((rowsOf n rows l.wrap).filter RowRead.nominal)
      (s.rdr.copies ++ if (rowsOf n rows l.wrap).any RowRead.nominal then [⟨l.wrap, l.pitch - j⟩] else []) := by
  obtain ⟨unknown, set_, lists⟩ := setStart_unknown (r := s.rdr.counted (badHeaders rows l.wrap)) copy_ next ⟨l.wrap, l.pitch - j⟩
  have taken := (takeRows_open (s := s.onRdr (·.counted (badHeaders rows l.wrap))) (l := l) copyOpen _).trans
    (placeRows_first (t := s.onRdr (·.counted (badHeaders rows l.wrap))) unknown lists reach (fun x mem => (rowsOf_rows.1 x mem).2) sets)
  have placed {r : Rdr} := setPlaced_of_taken (k := k) (r := r) writes locked here inside scan wanted expected some_ found wf pass_ (.inr capturing)
    (placed := (rowsOf n rows l.wrap).filter RowRead.nominal)
  cases nominal : (rowsOf n rows l.wrap).any RowRead.nominal with
  | true =>
    rw [nominal, if_pos rfl] at taken
    have := placed taken (rowsOf_rows.filter _)
    dsimp only [onRdr_rdr] at this
    rw [set_] at this
    exact this capturing copyOpen copy_ rfl rfl
  | false =>
    rw [nominal, if_neg (by simp)] at taken
    rw [if_neg (by simp), List.append_nil]
    exact placed (r := s.rdr.counted (badHeaders rows l.wrap)) taken (rowsOf_rows.filter _) capturing copyOpen copy_ rfl rfl

/-- A copy open with its span start: the rows that belong to it (R87). -/
theorem setPlaced_known (capturing : s.rdr.activity = .capturing) (copyOpen : s.rdr.copyOpen = true) (copy_ : s.rdr.copy = some k)
    (known : s.rdr.copies[k - 1]? = some start) (early : ∀ x ∈ rowsOf n rows l.wrap, later start l x = false) :
    SetPlaced s l rows (2097152 * ((s.dbm.drain + i) % 512)) pass k s.rdr.row s.rdr.tallies ((rowsOf n rows l.wrap).filter (belongs start l))
      s.rdr.copies := by
  have taken := (takeRows_open (s := s.onRdr (·.counted (badHeaders rows l.wrap))) (l := l) copyOpen _).trans
    (placeRows_known (t := s.onRdr (·.counted (badHeaders rows l.wrap))) ((start_listed (r := s.rdr.counted (badHeaders rows l.wrap)) copy_).trans known) early)
  exact setPlaced_of_taken (r := s.rdr.counted (badHeaders rows l.wrap)) writes locked here inside scan wanted expected some_ found wf pass_
    (.inr capturing) taken (rowsOf_rows.filter _) capturing copyOpen copy_ rfl rfl

/-- A copy whose rows all name one later span start: what it had is taken back, and they are placed (R87). -/
theorem setPlaced_later {j : Nat} (capturing : s.rdr.activity = .capturing) (copyOpen : s.rdr.copyOpen = true) (copy_ : s.rdr.copy = some k)
    (known : s.rdr.copies[k - 1]? = some start) (moves : ∀ x ∈ rowsOf n rows l.wrap, later start l x = true ∧ RowRead.set x = j) :
    SetPlaced s l rows (2097152 * ((s.dbm.drain + i) % 512)) pass k (fun r => if (s.rdr.row r).from k then .absent else s.rdr.row r) Tally.zeros
      (rowsOf n rows l.wrap) (s.rdr.copies.set (k - 1) ⟨l.wrap, l.pitch - j⟩) := by
  obtain ⟨set_, lists⟩ := setStart_known (r := Rdr.clearCopy (s.rdr.counted (badHeaders rows l.wrap))) copy_ known ⟨l.wrap, l.pitch - j⟩
  have taken := (takeRows_open (s := s.onRdr (·.counted (badHeaders rows l.wrap))) (l := l) copyOpen _).trans
    (placeRows_later (t := s.onRdr (·.counted (badHeaders rows l.wrap)))
      ((start_listed (r := s.rdr.counted (badHeaders rows l.wrap)) copy_).trans known) lists some_ moves)
  have placed := setPlaced_of_taken (k := k) (r := (Rdr.clearCopy (s.rdr.counted (badHeaders rows l.wrap))).setStart ⟨l.wrap, l.pitch - j⟩)
    writes locked here inside scan wanted expected some_ found wf pass_ (.inr capturing) taken rowsOf_rows
  rw [set_] at placed
  have all := placed capturing copyOpen copy_ rfl rfl
  have row : ({ Rdr.clearCopy (s.rdr.counted (badHeaders rows l.wrap)) with
      copies := (Rdr.clearCopy (s.rdr.counted (badHeaders rows l.wrap))).copies.set (k - 1) ⟨l.wrap, l.pitch - j⟩ } : Rdr).row
      = fun r => if (s.rdr.row r).from k then .absent else s.rdr.row r := by
    funext r
    have cleared := row_map s.rdr (fun st => if st.from (s.rdr.copy.getD 1) then .absent else st) (by simp) r
    rw [copy_] at cleared
    simpa only [Rdr.row, Rdr.clearCopy, Rdr.counted, copy_, Option.getD_some] using cleared
  rw [row] at all
  exact all

end

end Sys2Proof.Machine
end

section
/-!
PROPERTY. A pitch read: the headers counted, a copy opened, its rows placed, end of data at the 64th blank (R84 to R88, R95, R98).
-/
namespace Sys2Proof.Machine
open Sys2Proof.Laws

/-! ### The Reader's end of data (R95) -/

theorem startMotion_typeCode (s : State) : s.startMotion.rtc.typeCode = s.rtc.typeCode := by
  have accelerates (t : State) : t.accelerate.rtc.typeCode = t.rtc.typeCode :=
    (show _ = t.applyScheduled.rtc.typeCode from rfl).trans (congrArg Rtc.typeCode (applyScheduled_rtc t))
  have tries (t : State) : t.tryAccelerate.rtc.typeCode = t.rtc.typeCode := by
    unfold State.tryAccelerate
    split
    · rfl
    · exact accelerates t
  unfold State.startMotion
  split
  · split
    · rfl
    · exact tries s
  · rfl
  · rfl
  · exact tries s
  · rfl
  · rfl

theorem setGoal_typeCode (s : State) (g : Goal) : (s.setGoal g).rtc.typeCode = s.rtc.typeCode := by
  unfold State.setGoal
  split
  · rfl
  · dsimp only
    split
    · exact startMotion_typeCode _
    · split <;> rfl
    · rfl
    · rfl
    · split
      · split <;> rfl
      · rfl
    · split <;> rfl

/-- The tape's end reported by a reading that serves the host changes the Position Unit's EOD record alone. -/
theorem reportReadEnd_eq {s : State} (alone : s.rdr.alone = false) (place : Loc) (pattern : Bool) :
    ∃ pu : Pu, s.reportReadEnd place pattern = { s with pu := pu } ∧ pu.scan = s.pu.scan := by
  unfold State.reportReadEnd
  split
  · split
    · exact ⟨s.pu, rfl, rfl⟩
    · dsimp only
      rw [alone, Bool.false_and]
      exact ⟨_, rfl, rfl⟩
  · exact ⟨s.pu, rfl, rfl⟩

/-- The Reader at rest, its row map and tallies emptied, once data has ended or cannot be read. -/
def Rdr.endedBy (r : Rdr) (e : EndReason) : Rdr :=
  { Rdr.emptyMap r with activity := .ended e, readAhead := false, wanted := false, target := none, alone := false, tallies := Tally.zeros }

/-- The Reader's end of data, but for the tape's motion: the LOADING slot freed, the EOD record, the Reader at rest. -/
theorem readerEnds_drives {s : State} (alone : s.rdr.alone = false) (place : Loc) (pattern : Bool) : ∃ pu : Pu, pu.scan = s.pu.scan
    ∧ Drives { s.dropLoading with pu := pu, rdr := s.rdr.endedBy .endOfData } (s.readerEnds place pattern)
    ∧ (s.readerEnds place pattern).rtc.typeCode = s.rtc.typeCode := by
  have alone' : s.dropLoading.rdr.alone = false := by rw [dropLoading_eq]; exact alone
  obtain ⟨pu, reported, scan⟩ := reportReadEnd_eq alone' place pattern
  have ends : s.readerEnds place pattern
      = ({ s.dropLoading with pu := pu, rdr := s.rdr.endedBy .endOfData } : State).setGoal .stop := by
    unfold State.readerEnds
    dsimp only
    rw [alone, reported, dropLoading_eq]
    rfl
  refine ⟨pu, by rw [scan, dropLoading_eq], ?_, ?_⟩
  · rw [ends]
    exact Drives.setGoal _ _ rfl
  · rw [ends, setGoal_typeCode, dropLoading_eq]

/-- The 64th blank in a row, before any copy, ends the data (R86, R95). -/
theorem readBlank_ends {s : State} {l : Loc} (seeking : s.rdr.activity = .seeking) (run : s.rdr.blankRun = 63) (copyOpen : s.rdr.copyOpen = false)
    (opened : s.rdr.opened = none) (unseen : s.rdr.unseen = none) :
    s.readBlank l = (s.onRdr (fun r => { r with blankRun := 64, blankStart := some (s.rdr.blankStart.getD l) })).readerEnds
      (s.rdr.blankStart.getD l) false := by
  have full : min 64 (s.rdr.blankRun + 1) = 64 := by simp [run]
  unfold State.readBlank
  dsimp only
  simp only [onRdr_rdr, seeking, copyOpen, full]
  rw [if_neg (by simp), if_neg (by simp)]
  unfold State.notFound
  rw [if_neg (by simp [seeking]), if_neg (by simp [Rdr.met, opened]), if_neg (by simp [unseen])]
  unfold State.onRdr
  dsimp only
  rw [full]

theorem blank_ends {s : State} {l : Loc} (writes : s.writeIdle = true) (locked : s.locked = true)
    (here : s.pitchHere = some l) (inside : l.pitch + 1 < s.pitches) (scan : s.pu.scan = none) (wanted : s.rdr.wanted = false)
    (seeking : s.rdr.activity = .seeking) (run : s.rdr.blankRun = 63) (copyOpen : s.rdr.copyOpen = false)
    (opened : s.rdr.opened = none) (unseen : s.rdr.unseen = none) (alone : s.rdr.alone = false) : ∃ t : State,
    exec (.readPitch .blank) s = .next t ∧ t.rdr.activity = .ended .endOfData ∧ t.rdr.readAhead = false
      ∧ t.dbm.slots = (if (s.dbm.slots.getLast?.map Slot.state) = some .loading then s.dbm.slots.dropLast else s.dbm.slots)
      ∧ t.dbm.dram = s.dbm.dram ∧ t.cu = s.cu ∧ t.spu = s.spu := by
  have reads := readBlank_ends (l := l) seeking run copyOpen opened unseen
  obtain ⟨v, hv⟩ : ∃ v : State, v = s.onRdr (fun r => { r with blankRun := 64, blankStart := some (s.rdr.blankStart.getD l) }) := ⟨_, rfl⟩
  rw [← hv] at reads
  obtain ⟨pu, samescan, drives, type⟩ := readerEnds_drives (s := v) (by rw [hv]; exact alone) (s.rdr.blankStart.getD l) false
  rw [← reads, dropLoading_eq, hv] at drives
  rw [← reads, hv] at type
  rw [hv] at samescan
  obtain ⟨rtc, sv, e⟩ := drives.rest
  refine ⟨s.readBlank l, readPitch_eq locked here inside wanted (.inl seeking) rfl (by rw [e]; exact samescan.trans scan) type ?_, ?_⟩
  · refine advance_of_writeIdle ?_
    rw [e]
    exact writes
  · rw [e]
    exact ⟨rfl, rfl, rfl, rfl, rfl, rfl⟩

/-- Settles O36, by what the Reader makes of the pitch's content: of a row set by the rows of the expected dataset that it carries. -/
theorem pitchRead : Obligations.PitchRead := by
  intro s l n p writes
  refine ⟨fun c reads => readPitch_passes writes reads c, fun locked here inside scan wanted expected => ⟨?_, ?_, ?_, ?_⟩⟩
  · intro rows activity none_
    exact readPitch_eq locked here inside wanted activity (readRows_none none_) scan rfl (advance_of_writeIdle writes)
  · intro rows seeking copyOpen copies mine some_
    exact rowSet_opens writes locked here inside scan wanted expected some_ seeking copyOpen copies
  · intro rows i k pass found wf pass_ base mine nominal set none_ places foundAt some_
    refine ⟨fun j reach sets => ⟨fun seeking copyOpen copies => ?_, fun capturing copyOpen copy_ next => ?_⟩, ?_⟩
    · exact setPlaced_first writes locked here inside scan wanted expected some_ found wf pass_ reach sets seeking copyOpen copies
    · exact setPlaced_unknown writes locked here inside scan wanted expected some_ found wf pass_ reach sets capturing copyOpen copy_ next
    · intro start capturing copyOpen copy_ _ known laterThan belongsTo
      exact ⟨fun early => setPlaced_known writes locked here inside scan wanted expected some_ found wf pass_ capturing copyOpen copy_ known early,
        fun j moves => setPlaced_later writes locked here inside scan wanted expected some_ found wf pass_ capturing copyOpen copy_ known moves⟩
  · intro seeking run copyOpen opened unseen alone
    exact blank_ends writes locked here inside scan wanted seeking run copyOpen opened unseen alone

end Sys2Proof.Machine
end

section
/-!
SUPPORT. C2's correction of a slot (R46, R89, R90, log 13): what it leaves at each address, and the evaluation that follows.
-/
namespace Sys2Proof.Machine
open Sys2Proof.Laws

/-! ### Cells of a range, and what is written outside it -/

theorem filter_write {f : Host.Cell → Bool} {a : Nat} (out : ∀ b : Byte, f (a, b) = false) (m : Memory) (b : Byte) :
    (m.write a b).filter f = m.filter f := by
  induction m with
  | nil =>
    unfold Memory.write
    split
    · rfl
    · simp [out]
  | cons c m ih =>
    obtain ⟨k, v⟩ := c
    unfold Memory.write
    split
    · split
      · rfl
      · simp [out]
    · split
      · next same =>
        subst same
        split <;> simp [out]
      · rw [List.filter_cons, List.filter_cons, ih]

theorem cells_place {m : Memory} {base n lo k : Nat} (apart : base + n ≤ lo ∨ lo + k ≤ base) (cs : Cells) :
    (m.place base n cs).cells lo k = m.cells lo k := by
  have writes (ws : Cells) (inside : ∀ c ∈ ws, c.1 < n) (m : Memory) :
      (ws.foldl (fun m c => Memory.write m (base + c.1) c.2) m).filter (fun c => decide (lo ≤ c.1) && decide (c.1 < lo + k))
        = m.filter (fun c => decide (lo ≤ c.1) && decide (c.1 < lo + k)) := by
    induction ws generalizing m with
    | nil => rfl
    | cons c ws ih =>
      have lt := inside c (by simp)
      rw [List.foldl_cons, ih (fun d mem => inside d (by simp [mem])), filter_write (fun b => ?_)]
      simp only [Bool.and_eq_false_iff, decide_eq_false_iff_not]
      omega
  unfold Memory.place Memory.cells
  rw [writes _ (fun c mem => by simpa using (List.mem_filter.mp mem).2)]
  unfold Memory.clear
  rw [List.filter_filter]
  congr 1
  refine List.filter_congr (fun c _ => ?_)
  by_cases here : lo ≤ c.1 ∧ c.1 < lo + k
  · have out : c.1 < base ∨ base + n ≤ c.1 := by omega
    simp [here, out]
  · simp [Bool.eq_false_iff.mpr (mt (by simpa using ·) here : ¬ (decide (lo ≤ c.1) && decide (c.1 < lo + k)) = true)]

/-! ### Rows set one after the other -/

section
variable {m : Memory} {base : Nat} {cs : Nat → Cells}

theorem area_setRows {ns : List Nat} (above : ∀ n ∈ ns, 240 ≤ n) (m : Memory) :
    (ns.foldl (fun m n => m.setRow base n (cs n)) m).area base = m.area base := by
  induction ns generalizing m with
  | nil => rfl
  | cons n ns ih =>
    have le := above n (by simp)
    have one : (m.setRow base n (cs n)).area base = m.area base := by
      unfold Memory.area Memory.setRow
      refine cells_place (.inr ?_) _
      unfold Config.rowBytes
      omega
    rw [List.foldl_cons, ih (fun k mem => above k (by simp [mem])), one]

/-- A byte of a row once rows were set. -/
theorem read_setRows (wf : m.wf = true) (ns : List Nat) {r k : Nat} (inside : k < 8192) :
    (ns.foldl (fun m n => m.setRow base n (cs n)) m).read (base + 8192 * r + k)
      = if r ∈ ns then (Memory.place [] 0 8192 (cs r)).read k else m.read (base + 8192 * r + k) := by
  induction ns generalizing m with
  | nil => rfl
  | cons n ns ih =>
    have canonical : (m.setRow base n (cs n)).wf = true := wf_place _ _ _ _ wf
    have one : (m.setRow base n (cs n)).read (base + 8192 * r + k)
        = if r = n then (Memory.place [] 0 8192 (cs r)).read k else m.read (base + 8192 * r + k) := by
      unfold Memory.setRow Config.rowBytes
      rw [read_place wf]
      by_cases same : r = n
      · subst same
        rw [if_pos (by omega), if_pos rfl]
        congr 1
        omega
      · rw [if_neg (by omega), if_neg same]
    rw [List.foldl_cons, ih canonical, one]
    by_cases later : r ∈ ns
    · simp [later]
    · simp [later]

/-- A byte outside the slot once rows were set. -/
theorem read_setRows_outside (wf : m.wf = true) {ns : List Nat} (rows : ∀ n ∈ ns, n < 256) {a : Nat} (out : a < base ∨ base + 2097152 ≤ a) :
    (ns.foldl (fun m n => m.setRow base n (cs n)) m).read a = m.read a := by
  induction ns generalizing m with
  | nil => rfl
  | cons n ns ih =>
    have lt := rows n (by simp)
    have canonical : (m.setRow base n (cs n)).wf = true := wf_place _ _ _ _ wf
    rw [List.foldl_cons, ih canonical (fun k mem => rows k (by simp [mem]))]
    unfold Memory.setRow Config.rowBytes
    rw [read_place wf, if_neg (by omega)]

end

/-! ### C2 -/

section
variable {tape : List TapeWrite} {dataset : Nat} {m : Memory} {base : Nat} {r : Rdr}

/-- The rows of a copy that are not GOOD. -/
def Rdr.lost (r : Rdr) : List Nat := (List.range 256).filter (fun n => !(r.row n).isGood)

/-- The slot with its data rows regenerated. -/
def dataRegenerated (tape : List TapeWrite) (dataset : Nat) (m : Memory) (base : Nat) (r : Rdr) : Memory :=
  (r.lost.filter (fun n => decide (n < 240))).foldl
    (fun t n => t.setRow base n ((writtenRow tape dataset (r.goodRows m base) n).getD (Config.freeC2Row (r.goodRows m base) n))) m

theorem regenerate_eq : regenerate tape dataset m base r = (r.lost.filter (fun n => decide (240 ≤ n))).foldl
    (fun t n => t.setRow base n (parityCells ((dataRegenerated tape dataset m base r).area base) n)) (dataRegenerated tape dataset m base r) := rfl

theorem dataRegenerated_wf (wf : m.wf = true) : (dataRegenerated tape dataset m base r).wf = true := setRows_wf _ _ _ _ wf

theorem mem_lost (n : Nat) : n ∈ r.lost ↔ n < 256 ∧ (r.row n).isGood = false := by simp [Rdr.lost]

/-- The data area of the slot regenerated: the parity rows stand above it. -/
theorem area_regenerate : (regenerate tape dataset m base r).area base = (dataRegenerated tape dataset m base r).area base := by
  rw [regenerate_eq]
  exact area_setRows (fun n mem => by simpa using (List.mem_filter.mp mem).2) _

/-- What C2 leaves outside the slot. -/
theorem read_regenerate_outside (wf : m.wf = true) {a : Nat} (out : a < base ∨ base + 2097152 ≤ a) :
    (regenerate tape dataset m base r).read a = m.read a := by
  have rows (p : Nat → Bool) (n : Nat) (mem : n ∈ r.lost.filter p) : n < 256 := ((mem_lost n).mp (List.mem_filter.mp mem).1).1
  rw [regenerate_eq, read_setRows_outside (dataRegenerated_wf wf) (rows _) out]
  exact read_setRows_outside wf (rows _) out

/-- What C2 leaves in a row. -/
theorem read_regenerate (wf : m.wf = true) {n k : Nat} (row : n < 256) (inside : k < 8192) :
    (regenerate tape dataset m base r).read (base + 8192 * n + k) = if (r.row n).isGood then m.read (base + 8192 * n + k)
      else (Memory.place [] 0 8192 (if n < 240 then (writtenRow tape dataset (r.goodRows m base) n).getD (Config.freeC2Row (r.goodRows m base) n)
        else parityCells ((regenerate tape dataset m base r).area base) n)).read k := by
  have data : (dataRegenerated tape dataset m base r).read (base + 8192 * n + k)
      = if n ∈ r.lost.filter (fun n => decide (n < 240)) then (Memory.place [] 0 8192
          ((writtenRow tape dataset (r.goodRows m base) n).getD (Config.freeC2Row (r.goodRows m base) n))).read k
        else m.read (base + 8192 * n + k) := read_setRows wf _ inside
  rw [area_regenerate, regenerate_eq, read_setRows (dataRegenerated_wf wf) _ inside, data]
  simp only [List.mem_filter, mem_lost, decide_eq_true_iff, row, true_and]
  by_cases good : (r.row n).isGood = true
  · simp [good]
  · by_cases isData : n < 240
    · simp [good, isData]
    · simp [good, isData, Nat.le_of_not_lt isData]

/-- The rows that are not GOOD, and those that are. -/
theorem erasedCount_eq : r.erasedCount + (r.goodRows m base).length = 256 := by
  have rows : r.rows.toList = (List.range 256).map r.row := by
    refine List.ext_getElem (by simp) (fun n _ lt => ?_)
    have inside : n < 256 := by simpa using lt
    simp [Rdr.row, inside]
  unfold Rdr.erasedCount Rdr.goodRows
  rw [rows, List.filter_map, List.length_map, List.length_map]
  have split_ := List.length_eq_length_filter_add (l := List.range 256) (fun n => (r.row n).isGood)
  rw [List.length_range] at split_
  simp only [Function.comp_def]
  omega

end

end Sys2Proof.Machine
end

section
/-!
PROPERTY. The copy being captured ends: its evaluation, and what follows (R16, R84, R89 to R98).
-/
namespace Sys2Proof.Machine
open Sys2Proof.Laws

/-! ### The evaluation -/

theorem Trailer.passes_iff (t : Trailer) (n p : Nat) : t.passes n p = true ↔
    t.partition = p ∧ t.dataset = n ∧ 1 ≤ t.entries ∧ t.entries ≤ 4096 ∧ t.payload ≤ 1966016 - 16 * t.entries := by
  unfold Trailer.passes Config.maxEntries Config.indexTop
  simp only [Bool.and_eq_true, beq_iff_eq, decide_eq_true_iff, and_assoc]

section
variable {s : State} {n p base : Nat} (expected : s.rdr.expected = some (n, p)) (readBase : s.readBase = some base)
include expected readBase

theorem corrected_eq : s.corrected = if 16 < s.rdr.erasedCount then s.dbm.dram else regenerate s.tape n s.dbm.dram base s.rdr := by
  unfold State.corrected
  rw [expected, readBase]

theorem evaluation_eq : s.evaluation
    = if s.rdr.erasedCount ≤ 16 ∧ (s.corrected.trailer base).passes n p = true then some (s.corrected.trailer base) else none := by
  unfold State.evaluation
  rw [expected, readBase]

/-- What C2 does to the DRAM, and what the evaluation gives (R89, R90). -/
theorem corrected_spec (wf : s.dbm.dram.wf = true) : s.corrected.wf = true
    ∧ (∀ a : Nat, (a < base ∨ base + 2097152 ≤ a) → s.corrected.read a = s.dbm.dram.read a)
    ∧ ((s.rdr.goodRows s.dbm.dram base).length < 240 → s.corrected = s.dbm.dram)
    ∧ (240 ≤ (s.rdr.goodRows s.dbm.dram base).length → ∀ r k : Nat, r < 256 → k < 8192 → s.corrected.read (base + 8192 * r + k)
        = if (s.rdr.row r).isGood then s.dbm.dram.read (base + 8192 * r + k)
          else (Memory.place [] 0 8192 (if r < 240 then (writtenRow s.tape n (s.rdr.goodRows s.dbm.dram base) r).getD
              (Config.freeC2Row (s.rdr.goodRows s.dbm.dram base) r) else parityCells (s.corrected.area base) r)).read k)
    ∧ s.evaluation = if 240 ≤ (s.rdr.goodRows s.dbm.dram base).length ∧ (s.corrected.trailer base).partition = p
          ∧ (s.corrected.trailer base).dataset = n ∧ 1 ≤ (s.corrected.trailer base).entries ∧ (s.corrected.trailer base).entries ≤ 4096
          ∧ (s.corrected.trailer base).payload ≤ 1966016 - 16 * (s.corrected.trailer base).entries
        then some (s.corrected.trailer base) else none := by
  have count := erasedCount_eq (r := s.rdr) (m := s.dbm.dram) (base := base)
  have corrected := corrected_eq expected readBase
  refine ⟨corrected_wf s wf, fun a out => ?_, fun few => ?_, fun enough r k row inside => ?_, ?_⟩
  · rw [corrected]
    split
    · rfl
    · exact read_regenerate_outside wf out
  · rw [corrected, if_pos (by omega)]
  · rw [corrected, if_neg (by omega)]
    exact read_regenerate wf row inside
  · rw [evaluation_eq expected readBase]
    refine if_congr ?_ rfl rfl
    rw [Trailer.passes_iff]
    exact and_congr_left (fun _ => by omega)

/-- What an evaluation that corrects the dataset says of its trailer (R90). -/
theorem evaluation_passes {tr : Trailer} (some_ : s.evaluation = some tr) : tr = s.corrected.trailer base ∧ s.rdr.erasedCount ≤ 16
    ∧ tr.partition = p ∧ tr.dataset = n ∧ 1 ≤ tr.entries ∧ tr.entries ≤ 4096 ∧ tr.payload ≤ 1966016 - 16 * tr.entries := by
  rw [evaluation_eq expected readBase] at some_
  split at some_
  · next passes =>
    obtain ⟨few, ok⟩ := passes
    obtain rfl := Option.some.inj some_
    exact ⟨rfl, few, (Trailer.passes_iff _ _ _).mp ok⟩
  · simp at some_

end

end Sys2Proof.Machine
end

section
/-!
PROPERTY. The copy being captured ends: its evaluation, and what follows (R16, R84, R89 to R98).
-/
namespace Sys2Proof.Machine
open Sys2Proof.Laws

/-! ### The copy's end reported (R76, R89, R98) -/

theorem capSchedule_table (s : State) : s.capSchedule.sm.table = s.sm.table := by
  have kept {c : Prop} [Decidable c] {a b : Sm} (h : a.table = b.table) : (if c then a else b).table = b.table := by
    split
    · exact h
    · rfl
  have capped : (match s.sm.scheduled with
      | some i => if s.capIndex < i then { s.sm with scheduled := some s.capIndex } else s.sm
      | none => if s.capIndex < s.sm.index then { s.sm with scheduled := some s.capIndex } else s.sm).table = s.sm.table := by
    split <;> exact kept rfl
  unfold State.capSchedule State.onSm
  dsimp only
  split
  · split
    · exact capped
    · exact capped
  · exact capped

theorem takeTally_table (s : State) (ts : Vector Tally 16) : (s.takeTally ts).sm.table = s.sm.table := by
  have recompute (t : State) : t.recomputeHead.sm.table = t.sm.table := by
    unfold State.recomputeHead
    dsimp only
    split
    · rfl
    · split <;> simp [capSchedule_table]
  exact (recompute _).trans (congrArg Sm.table (takeChannels_sm ts _ s))

theorem boundary_table (s : State) : s.boundary.sm.table = s.sm.table := by
  unfold State.boundary State.applyScheduled
  split
  · rfl
  · dsimp only
    split
    · simp [State.takeSpeed]
    · split <;> simp [State.takeSpeed]

/-- The copy's tallies are with the Head Monitor, the boundary with the Speed Matcher; else only the Reader's record differs. -/
def Handed (s v : State) (r : Rdr) : Prop :=
  ∃ (eu : Eu) (sm : Sm) (out : List Packet) (index speed : Nat) (sv : Sv), v = { s with
    rdr := r, eu := eu, hm := (s.takeTally s.rdr.tallies).hm, sm := sm, spu := { s.spu with out := out },
    rtc := { s.rtc with speedIndex := index, speed := speed }, sv := sv } ∧ sm.table = s.sm.table

section
variable {s v : State} {r : Rdr}

/-- The tallies handed over after a change of the Reader alone. -/
theorem handReadTallies_handed (f : Rdr → Rdr) (tallies : (f s.rdr).tallies = s.rdr.tallies) :
    Handed s (s.onRdr f).handReadTallies { f s.rdr with tallies := Tally.zeros } := by
  obtain ⟨eu, sm, out, e⟩ := takeTally_rest (s.onRdr f) s.rdr.tallies
  have table := takeTally_table (s.onRdr f) s.rdr.tallies
  rw [takeTally_hm_congr (s := s.onRdr f) (t := s) rfl] at e
  rw [e] at table
  refine ⟨eu, sm, out, s.rtc.speedIndex, s.rtc.speed, s.sv, ?_, table⟩
  unfold State.handReadTallies
  rw [onRdr_rdr, tallies, e]
  rfl

theorem Handed.boundary (h : Handed s v r) : Handed s v.boundary r := by
  obtain ⟨eu, sm, out, index, speed, sv, e, table⟩ := h
  obtain ⟨index', speed', sv', sm', eu', out', e'⟩ := boundary_rest v
  have table' := boundary_table v
  rw [e'] at table'
  refine ⟨eu', sm', out', index', speed', sv', ?_, table'.trans ?_⟩
  · rw [e', e]
  · rw [e]
    exact table

theorem Handed.readBase (h : Handed s v r) (activity : r.activity = s.rdr.activity) : v.readBase = s.readBase := by
  obtain ⟨eu, sm, out, index, speed, sv, e, -⟩ := h
  exact readBase_congr (by rw [e]; exact activity) (by rw [e]) (by rw [e])

theorem erasedCount_congr {q : Rdr} (rows : r.rows = q.rows) : r.erasedCount = q.erasedCount := by
  unfold Rdr.erasedCount
  rw [rows]

theorem regenerate_congr {tape : List TapeWrite} {n base : Nat} {m : Memory} {q : Rdr} (rows : r.rows = q.rows) :
    regenerate tape n m base r = regenerate tape n m base q := by
  have row : r.row = q.row := by
    unfold Rdr.row
    rw [rows]
  unfold regenerate Rdr.goodRows
  rw [row]

variable (activity : r.activity = s.rdr.activity) (expected : r.expected = s.rdr.expected) (rows : r.rows = s.rdr.rows)
include activity expected rows

theorem Handed.corrected (h : Handed s v r) : v.corrected = s.corrected := by
  have base := h.readBase activity
  obtain ⟨eu, sm, out, index, speed, sv, e, -⟩ := h
  have erased : v.rdr.erasedCount = s.rdr.erasedCount := by rw [e]; exact erasedCount_congr rows
  have same (n base : Nat) (m : Memory) : regenerate v.tape n m base v.rdr = regenerate s.tape n m base s.rdr := by
    rw [e]
    exact regenerate_congr rows
  have expected' : v.rdr.expected = s.rdr.expected := by rw [e]; exact expected
  have dram : v.dbm.dram = s.dbm.dram := by rw [e]
  unfold State.corrected
  simp only [base, erased, expected', same, dram]

theorem Handed.evaluation (h : Handed s v r) : v.evaluation = s.evaluation := by
  have corrected := h.corrected activity expected rows
  have base := h.readBase activity
  obtain ⟨eu, sm, out, index, speed, sv, e, -⟩ := h
  have erased : v.rdr.erasedCount = s.rdr.erasedCount := by rw [e]; exact erasedCount_congr rows
  have expected' : v.rdr.expected = s.rdr.expected := by rw [e]; exact expected
  unfold State.evaluation
  rw [base, corrected, erased, expected']

end

end Sys2Proof.Machine
end

section
/-!
PROPERTY. The copy being captured ends: its evaluation, and what follows (R16, R84, R89 to R98).
-/
namespace Sys2Proof.Machine
open Sys2Proof.Laws

/-! ### A copy closed by a separator (R89) -/

/-- The Reader's record once a separator was classified. -/
def Rdr.separated (r : Rdr) (next : Loc) : Rdr := { r with blankRun := 0, blankStart := none, unseen := none, resume := some next, tallies := Tally.zeros }

/-- The slot with what C2 regenerated. -/
def State.fixed (v : State) (m : Memory) : State := { v with dbm := { v.dbm with dram := m } }

section
variable {s : State} {l : Loc} (capturing : s.rdr.activity = .capturing) (copyOpen : s.rdr.copyOpen = true)
include capturing copyOpen

theorem readSeparator_handed : ∃ v : State, Handed s v (s.rdr.separated (s.after l)) ∧ s.readSeparator l = v.evaluate State.afterCopy := by
  have handed := handReadTallies_handed (s := s)
    (fun r => { r with blankRun := 0, blankStart := none, unseen := none, resume := some (s.after l) }) rfl
  refine ⟨_, handed.boundary, ?_⟩
  unfold State.readSeparator
  dsimp only
  rw [if_pos (by simpa using copyOpen)]
  unfold State.readBoundary State.when
  rw [if_pos (by simp [handReadTallies_activity, capturing])]

/-- The copy corrects the dataset (R90). -/
theorem separator_corrects {tr : Trailer} (some_ : s.evaluation = some tr) : ∃ v : State, Handed s v (s.rdr.separated (s.after l))
    ∧ s.readSeparator l = (v.fixed s.corrected).datasetReady tr := by
  obtain ⟨v, handed, e⟩ := readSeparator_handed (l := l) capturing copyOpen
  refine ⟨v, handed, ?_⟩
  have other : ¬ v.rdr.activity = .header := by
    obtain ⟨_, _, _, _, _, _, rfl, -⟩ := handed
    simp [Rdr.separated, capturing]
  rw [e]
  unfold State.evaluate
  dsimp only
  rw [Handed.evaluation (r := s.rdr.separated (s.after l)) rfl rfl rfl handed, some_, Handed.corrected (r := s.rdr.separated (s.after l)) rfl rfl rfl handed]
  exact if_neg other

/-- The copy does not correct the dataset (R91). -/
theorem separator_corrects_not (none_ : s.evaluation = none) : ∃ v : State, Handed s v (s.rdr.separated (s.after l))
    ∧ s.readSeparator l = (v.fixed s.corrected).notCorrected.afterCopy := by
  obtain ⟨v, handed, e⟩ := readSeparator_handed (l := l) capturing copyOpen
  refine ⟨v, handed, ?_⟩
  rw [e]
  unfold State.evaluate
  dsimp only
  rw [Handed.evaluation (r := s.rdr.separated (s.after l)) rfl rfl rfl handed, none_, Handed.corrected (r := s.rdr.separated (s.after l)) rfl rfl rfl handed]
  rfl

end

/-! ### The dataset READY (R90, R95, R96, R111) -/

/-- A slot READY with its trailer's fields. -/
def Slot.readied (x : Slot) (tr : Trailer) (erased : Nat) : Slot :=
  { x with state := .ready, first := some tr.first, filemarksBefore := some tr.filemarks, entries := some tr.entries, payload := some tr.payload,
           outcome := some erased }

/-- What a dataset proven leaves of the Position Unit's record. -/
structure Proven (u v : Pu) : Prop where
  eod : v.eod = u.eod
  partition : v.partition = u.partition
  object : v.object = u.object
  scan : v.scan = u.scan
  cut : v.cut = u.cut

theorem proven_eq (s : State) (p n first filemarks after : Nat) (start : Loc) (last : Nat × Nat × Nat × Nat) : ∃ pu : Pu,
    ((s.proveDataset p n first filemarks start false).learnFilemarks p n after).onPu (fun u => { u with lastRead := some last })
      = { s with pu := pu } ∧ Proven s.pu pu := by
  obtain ⟨directory, e⟩ := proveDataset_eq s p n first filemarks start false
  rw [e]
  unfold State.learnFilemarks State.when
  dsimp only
  split
  · exact ⟨_, rfl, ⟨rfl, rfl, rfl, rfl, rfl⟩⟩
  · exact ⟨_, rfl, ⟨rfl, rfl, rfl, rfl, rfl⟩⟩

/-- The dataset READY and proven, before the Reader goes on or the command does. -/
def State.readied (f : State) (tr : Trailer) (i : Nat) : State :=
  let es := f.dbm.dram.entryList (f.readBase.getD 0) tr.entries
  ((({ f with dbm := f.dbm.setSlot i (·.readied tr f.rdr.erasedCount) } : State).proveDataset tr.partition tr.dataset tr.first tr.filemarks
      ((f.rdr.start.orElse (fun _ => f.rdr.opened)).getD ⟨0, 0⟩) false).learnFilemarks tr.partition tr.dataset (tr.filemarks + filemarksIn es)).onPu
    (fun u => { u with lastRead := some (tr.partition, tr.dataset, tr.first + completing es, tr.filemarks + filemarksIn es) })

/-- The Reader at rest behind a dataset loaded alone, the tape stopping. -/
def State.restsAlone (f : State) : State :=
  (f.onRdr (fun r => { Rdr.emptyMap r with activity := .ended .endOfData, wanted := false, target := none, alone := false })).setGoal .stop

/-- The command that waits for D converts it. -/
def State.convertsReady (g : State) : State :=
  match g.pu.cut, g.dbm.find .ready with
  | some c, some i => if g.cu.progress = .settleD then g.convertD c i else g
  | _, _ => g

section
variable {f : State} {i : Nat} (tr : Trailer)

theorem readied_eq : ∃ pu : Pu, f.readied tr i = { f with dbm := f.dbm.setSlot i (·.readied tr f.rdr.erasedCount), pu := pu } ∧ Proven f.pu pu :=
  proven_eq { f with dbm := f.dbm.setSlot i (·.readied tr f.rdr.erasedCount) } _ _ _ _ _ _ _

theorem readied_rdr : (f.readied tr i).rdr = f.rdr := by
  obtain ⟨pu, e, -⟩ := readied_eq (f := f) (i := i) tr
  rw [e]

theorem datasetReady_eq (found : f.dbm.find .loading = some i) : f.datasetReady tr = if (f.readied tr i).rdr.alone
    then (f.readied tr i).restsAlone.convertsReady else (f.readied tr i).readNext (tr.dataset + 1) tr.partition := by
  unfold State.datasetReady
  dsimp only
  rw [found]
  rfl

end

end Sys2Proof.Machine
end

section
/-!
PROPERTY. The copy being captured ends: its evaluation, and what follows (R16, R84, R89 to R98).
-/
namespace Sys2Proof.Machine
open Sys2Proof.Laws

/-! ### The next dataset (R95, R96) -/

/-- The Reader goes on: the slots that are not LOADING, the DRAM and the command stand. -/
structure GoesOn (s t : State) : Prop where
  hm : t.hm = s.hm
  cu : t.cu = s.cu
  dram : t.dbm.dram = s.dbm.dram
  direction : t.dbm.direction = s.dbm.direction
  slots : ∀ (i : Nat) (x : Slot), s.dbm.slots[i]? = some x → x.state ≠ .loading → t.dbm.slots[i]? = some x
  scan : t.pu.scan = s.pu.scan
  typeCode : t.rtc.typeCode = s.rtc.typeCode

theorem GoesOn.of_drives {s t : State} (h : Drives s t) (type : t.rtc.typeCode = s.rtc.typeCode) : GoesOn s t := by
  obtain ⟨_, _, e⟩ := h.rest
  refine ⟨?_, ?_, ?_, ?_, fun i x at_ _ => ?_, ?_, type⟩
  · rw [e]
  · rw [e]
  · rw [e]
  · rw [e]
  · rw [e]; exact at_
  · rw [e]

theorem dropLoading_keeps {slots : List Slot} {i : Nat} {x : Slot} (at_ : slots[i]? = some x) (other : x.state ≠ .loading) :
    (if (slots.getLast?.map Slot.state) = some .loading then slots.dropLast else slots)[i]? = some x := by
  split
  · next last =>
    have lt : i < slots.length := (List.getElem?_eq_some_iff.mp at_).1
    have before : i < slots.length - 1 := by
      by_contra le
      have end_ : i = slots.length - 1 := by omega
      rw [List.getLast?_eq_getElem?, ← end_, at_] at last
      exact other (by simpa using last)
    rw [List.getElem?_dropLast, if_pos before]
    exact at_
  · exact at_

theorem readerEnds_goesOn {s : State} (alone : s.rdr.alone = false) (place : Loc) (pattern : Bool) : GoesOn s (s.readerEnds place pattern) := by
  obtain ⟨pu, scan, drives, type⟩ := readerEnds_drives alone place pattern
  obtain ⟨_, _, e⟩ := drives.rest
  rw [dropLoading_eq] at e
  refine ⟨?_, ?_, ?_, ?_, fun i x at_ other => ?_, ?_, type⟩
  · rw [e]
  · rw [e]
  · rw [e]
  · rw [e]
  · rw [e]; exact dropLoading_keeps at_ other
  · rw [e]; exact scan

theorem openLoading_goesOn (s : State) : GoesOn s s.openLoading ∧ s.openLoading.rdr.expected = s.rdr.expected
    ∧ s.openLoading.rdr.resume = s.rdr.resume := by
  have same : GoesOn s s := ⟨rfl, rfl, rfl, rfl, fun _ _ at_ _ => at_, rfl, rfl⟩
  unfold State.openLoading
  split
  · split
    · refine ⟨⟨rfl, rfl, rfl, rfl, fun i x at_ _ => ?_, rfl, rfl⟩, rfl, rfl⟩
      have lt := (List.getElem?_eq_some_iff.mp at_).1
      exact (List.getElem?_append_left lt).trans at_
    · exact ⟨same, rfl, rfl⟩
  · exact ⟨same, rfl, rfl⟩

/-- The next dataset is expected, unless the EOD is known to stand before it. -/
theorem readNext_goesOn {s : State} (alone : s.rdr.alone = false) (n p : Nat) : GoesOn s (s.readNext n p)
    ∧ (s.endKnown n = none → (s.readNext n p).rdr.expected = some (n, p) ∧ (s.readNext n p).rdr.resume = s.rdr.resume) := by
  obtain ⟨v, hv⟩ : ∃ v : State, v = s.onRdr (fun r => { Rdr.emptyMap r with expected := some (n, p), tallies := Tally.zeros }) := ⟨_, rfl⟩
  have end_ : v.endKnown n = s.endKnown n := by rw [hv]; rfl
  have same {t : State} (h : GoesOn v t) : GoesOn s t := by
    subst hv
    exact ⟨h.hm, h.cu, h.dram, h.direction, h.slots, h.scan, h.typeCode⟩
  have own : v.rdr.expected = some (n, p) ∧ v.rdr.resume = s.rdr.resume := by subst hv; exact ⟨rfl, rfl⟩
  unfold State.readNext
  dsimp only
  rw [← hv, end_]
  cases s.endKnown n with
  | some mark =>
    refine ⟨same (readerEnds_goesOn (by rw [hv]; exact alone) mark false), fun none_ => ?_⟩
    simp at none_
  | none =>
    dsimp only
    split
    · obtain ⟨on, expected, resume⟩ := openLoading_goesOn (v.onRdr (fun r => { r with activity := .seeking, wanted := true }))
      exact ⟨same ⟨on.hm, on.cu, on.dram, on.direction, on.slots, on.scan, on.typeCode⟩, fun _ => ⟨expected.trans own.1, resume.trans own.2⟩⟩
    · have drives : Drives (v.onRdr (fun r => { r with activity := .paused, wanted := false })) v.readerPauses := Drives.setGoal _ _ rfl
      have on := GoesOn.of_drives drives (setGoal_typeCode _ _)
      refine ⟨same ⟨on.hm, on.cu, on.dram, on.direction, on.slots, on.scan, on.typeCode⟩, fun _ => ?_⟩
      obtain ⟨_, _, e⟩ := drives.rest
      rw [e]
      exact own

/-! ### A dataset read for the host -/

section
variable {s : State} {l : Loc} {n p i : Nat} {x : Slot} (writes : s.writeIdle = true) (locked : s.locked = true) (here : s.pitchHere = some l)
  (inside : l.pitch + 1 < s.pitches) (scan : s.pu.scan = none) (wanted : s.rdr.wanted = false)
  (capturing : s.rdr.activity = .capturing)

theorem writeIdle_congr {t : State} (direction : t.dbm.direction = s.dbm.direction) (cu : t.cu = s.cu) : t.writeIdle = s.writeIdle := by
  unfold State.writeIdle
  rw [direction, cu]

include writes locked here inside scan wanted capturing

/-- What the Reader makes of a pitch at a copy's end is the step, where the command and the direction stand. -/
theorem copyEnd_eq {u : State} {c : PitchContent} (reads : s.readContent l c = u) (uscan : u.pu.scan = s.pu.scan)
    (type : u.rtc.typeCode = s.rtc.typeCode) (direction : u.dbm.direction = s.dbm.direction) (cu : u.cu = s.cu) : exec (.readPitch c) s = .next u :=
  readPitch_eq locked here inside wanted (.inr capturing) reads (uscan.trans scan) type
    (advance_of_writeIdle ((writeIdle_congr direction cu).trans writes))

theorem separator_ready (copyOpen : s.rdr.copyOpen = true) (found : s.dbm.find .loading = some i) (at_ : s.dbm.slots[i]? = some x)
    (alone : s.rdr.alone = false) {tr : Trailer} (evaluation : s.evaluation = some tr) : ∃ t : State, exec (.readPitch .separator) s = .next t
      ∧ t.dbm.slots[i]? = some (x.readied tr s.rdr.erasedCount) ∧ t.dbm.dram = s.corrected
      ∧ (s.endKnown (tr.dataset + 1) = none → t.rdr.expected = some (tr.dataset + 1, tr.partition) ∧ t.rdr.resume = some (s.after l))
      ∧ t.hm = (s.takeTally s.rdr.tallies).hm ∧ t.cu = s.cu := by
  obtain ⟨v, handed, reads⟩ := separator_corrects (l := l) capturing copyOpen evaluation
  obtain ⟨eu, sm, out, index, speed, sv, e, -⟩ := handed
  obtain ⟨pu, ready, proven⟩ := readied_eq (f := v.fixed s.corrected) (i := i) tr
  obtain ⟨w, hw⟩ : ∃ w : State, w = (v.fixed s.corrected).readied tr i := ⟨_, rfl⟩
  have walone : w.rdr.alone = false := by rw [hw, readied_rdr, State.fixed, e]; exact alone
  have goes : s.readContent l .separator = w.readNext (tr.dataset + 1) tr.partition := by
    rw [hw]
    refine (reads.trans (datasetReady_eq tr (by rw [State.fixed, e]; exact found))).trans (if_neg ?_)
    rw [← hw]
    simp [walone]
  obtain ⟨on, next⟩ := readNext_goesOn walone (tr.dataset + 1) tr.partition
  rw [← hw, State.fixed, e] at ready
  rw [State.fixed, e] at proven
  refine ⟨_, copyEnd_eq writes locked here inside scan wanted capturing goes ?_ ?_ ?_ ?_, on.slots i _ ?_ (by simp [Slot.readied]), ?_, ?_, ?_, ?_⟩
  · rw [on.scan, ready]; exact proven.scan
  · rw [on.typeCode, ready]
  · rw [on.direction, ready]; rfl
  · rw [on.cu, ready]
  · rw [ready]
    dsimp only [Dbm.setSlot]
    rw [List.getElem?_modify_eq, at_]
    exact congrArg (fun erased => some (x.readied tr erased)) (erasedCount_congr rfl)
  · rw [on.dram, ready]; rfl
  · intro known
    have end_ : w.endKnown (tr.dataset + 1) = s.endKnown (tr.dataset + 1) := by
      unfold State.endKnown State.eodHere State.eodOf
      rw [ready]
      dsimp only
      rw [proven.eod, proven.partition]
    obtain ⟨expected, resume⟩ := next (end_.trans known)
    refine ⟨expected, resume.trans ?_⟩
    rw [ready]
    rfl
  · rw [on.hm, ready]
  · rw [on.cu, ready]

end

end Sys2Proof.Machine
end

section
/-!
PROPERTY. The copy being captured ends: its evaluation, and what follows (R16, R84, R89 to R98).
-/
namespace Sys2Proof.Machine
open Sys2Proof.Laws

/-! ### A copy that does not correct its dataset (R91 to R94) -/

section
variable {u : State} {i : Nat} {x : Slot}

theorem afterCopy_seeks (reads : u.rdr.activity ≠ .header) (first : u.rdr.pass = some 1) :
    u.afterCopy = u.onRdr (fun r => { r with activity := .seeking, copyOpen := false }) := by
  unfold State.afterCopy
  rw [first]
  exact if_neg (by simp [reads])

theorem afterCopy_retries {k : Nat} (pass : u.rdr.pass = some k) (later : 2 ≤ k) (last : u.rdr.copies.length ≤ u.rdr.copy.getD 1) :
    u.afterCopy = u.retry := by
  unfold State.afterCopy
  rw [pass]
  refine if_pos (.inr ?_)
  rw [Option.getD_some]
  omega

/-- A pass made of copy 1's span start (R92). -/
theorem retry_passes {k : Nat} {start : Loc} (reads : u.rdr.activity ≠ .header) (pass : u.rdr.pass = some k) (more : k < 1 + u.cu.policy.retries)
    (head : u.rdr.copies.head? = some start) (found : u.dbm.find .loading = some i) : u.retry = ({ u with
      rdr := { u.rdr with pass := some (k + 1), target := some start, copyOpen := false, copy := none, activity := .repositioning, tallies := Tally.zeros },
      dbm := u.dbm.setSlot i (fun x => { x with passes := x.passes.map (· + 1) }) } : State).setGoal (.runUp start false) := by
  unfold State.retry State.passRemains
  rw [pass, head, if_pos (by simpa using more)]
  unfold State.nextPass
  have found' (f : Rdr → Rdr) : (u.onRdr f).dbm.find .loading = some i := found
  dsimp only
  rw [found']
  simp only [State.onRdr, State.onDbm, pass, if_neg reads, Option.map_some]
  rfl

/-- The dataset given up (R94). -/
theorem retry_fails {k : Nat} (reads : u.rdr.activity ≠ .header) (pass : u.rdr.pass = some k) (none_ : 1 + u.cu.policy.retries ≤ k)
    (alone : u.rdr.alone = false) (found : u.dbm.find .loading = some i) : u.retry
      = ((({ u with dbm := u.dbm.setSlot i (fun x => { x with
              state := .failed, outcome := some (if u.rdr.trailerFailed then 256 else u.rdr.erasedCount) }) } : State).raise .mediumError).onRdr
          (·.endedBy .failed)).setGoal .stop := by
  unfold State.retry State.passRemains
  rw [pass, if_neg (by simpa using none_), if_neg reads]
  unfold State.readFails
  dsimp only
  rw [alone, found]
  rfl

end

/-- A copy at its separator that did not correct its dataset: C2's work stands, the tallies are handed over. -/
structure CopyFailed (s : State) (l : Loc) (w : State) : Prop where
  reads : s.readSeparator l = w.afterCopy
  rdr : w.rdr = { s.rdr.separated (s.after l) with trailerFailed := decide (s.rdr.erasedCount ≤ 16) }
  dbm : w.dbm = { s.dbm with dram := s.corrected }
  hm : w.hm = (s.takeTally s.rdr.tallies).hm
  cu : w.cu = s.cu
  pu : w.pu = s.pu
  typeCode : w.rtc.typeCode = s.rtc.typeCode

theorem CopyFailed.direction {s w : State} {l : Loc} (h : CopyFailed s l w) : w.dbm.direction = s.dbm.direction := by rw [h.dbm]

theorem CopyFailed.dram {s w : State} {l : Loc} (h : CopyFailed s l w) : w.dbm.dram = s.corrected := by rw [h.dbm]

section
variable {s : State} {l : Loc} {i : Nat} {x : Slot} (writes : s.writeIdle = true) (locked : s.locked = true) (here : s.pitchHere = some l)
  (inside : l.pitch + 1 < s.pitches) (scan : s.pu.scan = none) (wanted : s.rdr.wanted = false)
  (capturing : s.rdr.activity = .capturing) (copyOpen : s.rdr.copyOpen = true) (evaluation : s.evaluation = none)

include capturing copyOpen evaluation in
theorem separator_copyFailed : ∃ w : State, CopyFailed s l w := by
  obtain ⟨v, handed, reads⟩ := separator_corrects_not (l := l) capturing copyOpen evaluation
  obtain ⟨eu, sm, out, index, speed, sv, e, -⟩ := handed
  have erased : v.rdr.erasedCount = s.rdr.erasedCount := by rw [e]; exact erasedCount_congr rfl
  refine ⟨(v.fixed s.corrected).notCorrected, reads, ?_, ?_, ?_, ?_, ?_, ?_⟩
  · show { v.rdr with trailerFailed := decide (v.rdr.erasedCount ≤ 16) } = _
    rw [erased, e]
  · show { v.dbm with dram := s.corrected } = _
    rw [e]
  · show v.hm = _
    rw [e]
  · show v.cu = _
    rw [e]
  · show v.pu = _
    rw [e]
  · show v.rtc.typeCode = _
    rw [e]

include writes locked here inside scan wanted capturing copyOpen evaluation

/-- On the first pass the follow-on copy is sought (R91). -/
theorem separator_seeks (first : s.rdr.pass = some 1) : ∃ t : State, exec (.readPitch .separator) s = .next t
      ∧ t.rdr.activity = .seeking ∧ t.rdr.copyOpen = false ∧ t.rdr.copies = s.rdr.copies ∧ t.rdr.rows = s.rdr.rows
      ∧ t.dbm = { s.dbm with dram := s.corrected } ∧ t.hm = (s.takeTally s.rdr.tallies).hm ∧ t.cu = s.cu ∧ t.pu = s.pu := by
  obtain ⟨w, failed⟩ := separator_copyFailed (l := l) capturing copyOpen evaluation
  have seeks := failed.reads.trans (afterCopy_seeks (by rw [failed.rdr]; simp [Rdr.separated, capturing]) (by rw [failed.rdr]; exact first))
  refine ⟨_, copyEnd_eq writes locked here inside scan wanted capturing seeks (congrArg Pu.scan failed.pu) failed.typeCode
    failed.direction failed.cu, rfl, rfl, ?_, ?_, failed.dbm, failed.hm, failed.cu, failed.pu⟩
  · rw [onRdr_rdr, failed.rdr]; rfl
  · rw [onRdr_rdr, failed.rdr]; rfl

variable {k : Nat} (pass : s.rdr.pass = some k) (later : 2 ≤ k) (last : s.rdr.copies.length ≤ s.rdr.copy.getD 1)
  (found : s.dbm.find .loading = some i) (at_ : s.dbm.slots[i]? = some x)
include pass later last found at_

/-- Past the last copy of a later pass another pass begins, while one remains (R91, R92). -/
theorem separator_retries (more : k < 1 + s.cu.policy.retries) {start : Loc} (head : s.rdr.copies.head? = some start) :
    ∃ t : State, exec (.readPitch .separator) s = .next t
      ∧ t.rdr.activity = .repositioning ∧ t.rdr.pass = some (k + 1) ∧ t.rdr.target = some start ∧ t.rdr.rows = s.rdr.rows
      ∧ t.dbm.slots[i]? = some { x with passes := x.passes.map (· + 1) } ∧ t.dbm.dram = s.corrected ∧ t.cu = s.cu ∧ t.pu = s.pu := by
  obtain ⟨w, failed⟩ := separator_copyFailed (l := l) capturing copyOpen evaluation
  have retries := failed.reads.trans (afterCopy_retries (by rw [failed.rdr]; exact pass) later (by rw [failed.rdr]; exact last))
  have passes := retry_passes (u := w) (by rw [failed.rdr]; simp [Rdr.separated, capturing]) (by rw [failed.rdr]; exact pass)
    (by rw [failed.cu]; exact more) (by rw [failed.rdr]; exact head) (by rw [failed.dbm]; exact found)
  refine ⟨_, copyEnd_eq writes locked here inside scan wanted capturing (retries.trans passes) ?_ ?_ ?_ ?_, ?_⟩
  · rw [setGoal_pu]; exact congrArg Pu.scan failed.pu
  · rw [setGoal_typeCode]; exact failed.typeCode
  · rw [setGoal_dbm]; exact failed.direction
  · rw [setGoal_cu]; exact failed.cu
  · rw [setGoal_rdr, setGoal_dbm, setGoal_cu, setGoal_pu]
    refine ⟨rfl, rfl, rfl, ?_, ?_, failed.dram, failed.cu, failed.pu⟩
    · exact (congrArg Rdr.rows failed.rdr).trans rfl
    · dsimp only [Dbm.setSlot]
      rw [List.getElem?_modify_eq, failed.dbm, at_]
      rfl

/-- With no pass left the dataset is FAILED (R94). -/
theorem separator_fails (alone : s.rdr.alone = false) (none_ : 1 + s.cu.policy.retries ≤ k) : ∃ t : State, exec (.readPitch .separator) s = .next t
      ∧ t.rdr.activity = .ended .failed ∧ t.rdr.readAhead = false ∧ t.eu.latches[1].set = true
      ∧ t.dbm.slots[i]? = some { x with state := .failed, outcome := some (if s.rdr.erasedCount ≤ 16 then 256 else s.rdr.erasedCount) }
      ∧ t.dbm.dram = s.corrected ∧ t.cu = s.cu ∧ t.pu = s.pu := by
  obtain ⟨w, failed⟩ := separator_copyFailed (l := l) capturing copyOpen evaluation
  have retries := failed.reads.trans (afterCopy_retries (by rw [failed.rdr]; exact pass) later (by rw [failed.rdr]; exact last))
  have fails := retry_fails (u := w) (by rw [failed.rdr]; simp [Rdr.separated, capturing]) (by rw [failed.rdr]; exact pass)
    (by rw [failed.cu]; exact none_) (by rw [failed.rdr]; exact alone) (by rw [failed.dbm]; exact found)
  obtain ⟨q, hq⟩ : ∃ q : State, q = { w with dbm := w.dbm.setSlot i (fun x => { x with
    state := .failed, outcome := some (if w.rdr.trailerFailed then 256 else w.rdr.erasedCount) }) } := ⟨_, rfl⟩
  rw [← hq] at fails
  have latched := raise_latches q .mediumError
  obtain ⟨_, _, stopped⟩ := (Drives.setGoal ((q.raise .mediumError).onRdr (·.endedBy .failed)) .stop rfl).rest
  refine ⟨_, copyEnd_eq writes locked here inside scan wanted capturing (retries.trans fails) ?_ ?_ ?_ ?_, ?_⟩
  · rw [setGoal_pu, onRdr_pu, raise_pu, hq]; exact congrArg Pu.scan failed.pu
  · rw [setGoal_typeCode, onRdr_rtc, raise_rtc, hq]; exact failed.typeCode
  · rw [setGoal_dbm, onRdr_dbm, raise_dbm, hq]; exact failed.direction
  · rw [setGoal_cu, onRdr_cu, raise_cu, hq]; exact failed.cu
  · rw [setGoal_rdr, setGoal_dbm, setGoal_cu, setGoal_pu, onRdr_dbm, onRdr_cu, onRdr_pu, raise_dbm, raise_cu, raise_pu]
    refine ⟨rfl, rfl, by rw [stopped]; exact latched, ?_, ?_, ?_, ?_⟩
    · have erased : w.rdr.erasedCount = s.rdr.erasedCount := erasedCount_congr (by rw [failed.rdr]; rfl)
      rw [hq]
      dsimp only [Dbm.setSlot]
      rw [List.getElem?_modify_eq, erased, failed.dbm, failed.rdr, at_]
      simp
    · rw [hq]; exact failed.dram
    · rw [hq]; exact failed.cu
    · rw [hq]; exact failed.pu

end

end Sys2Proof.Machine
end

section
/-!
PROPERTY. The copy being captured ends: its evaluation, and what follows (R16, R84, R89 to R98).
-/
namespace Sys2Proof.Machine
open Sys2Proof.Laws

/-! ### An end pattern in a copy (R89, R95) -/

/-- The place where data ends that an unclosed copy names. -/
def Rdr.copyPlace (r : Rdr) : Loc := (r.start.orElse (fun _ => r.opened)).getD ⟨0, 0⟩

section
variable {s : State} {l : Loc} (writes : s.writeIdle = true) (locked : s.locked = true) (here : s.pitchHere = some l)
  (inside : l.pitch + 1 < s.pitches) (scan : s.pu.scan = none) (wanted : s.rdr.wanted = false)
  (capturing : s.rdr.activity = .capturing) (copyOpen : s.rdr.copyOpen = true) (unseen : s.rdr.unseen = none)

include capturing copyOpen unseen in
/-- An end pattern leaves the open copy unclosed: data ends at its place. -/
theorem pattern_unclosed : ∃ v : State, Handed s v { s.rdr with blankRun := 0, blankStart := none, tallies := Tally.zeros }
    ∧ s.readPattern l = v.readerEnds s.rdr.copyPlace false := by
  have handed := handReadTallies_handed (s := s) (fun r => { r with blankRun := 0, blankStart := none }) rfl
  refine ⟨_, handed, ?_⟩
  unfold State.readPattern
  dsimp only
  rw [if_pos (by simpa using copyOpen)]
  unfold State.copyEnded
  rw [if_neg (by simp [unseen])]
  unfold State.unclosed
  exact if_neg (by simp [handReadTallies_activity, capturing])

include writes locked here inside scan wanted capturing copyOpen unseen

theorem pattern_ends (alone : s.rdr.alone = false) : ∃ t : State, exec (.readPitch .endPattern) s = .next t ∧ t.rdr.activity = .ended .endOfData
      ∧ t.rdr.readAhead = false
      ∧ t.dbm.slots = (if (s.dbm.slots.getLast?.map Slot.state) = some .loading then s.dbm.slots.dropLast else s.dbm.slots)
      ∧ t.dbm.dram = s.dbm.dram ∧ t.hm = (s.takeTally s.rdr.tallies).hm ∧ t.cu = s.cu := by
  obtain ⟨v, handed, reads⟩ := pattern_unclosed (l := l) capturing copyOpen unseen
  obtain ⟨eu, sm, out, index, speed, sv, e, -⟩ := handed
  obtain ⟨pu, samescan, drives, type⟩ := readerEnds_drives (s := v) (by rw [e]; exact alone) s.rdr.copyPlace false
  obtain ⟨_, _, ends⟩ := drives.rest
  rw [← reads, dropLoading_eq, e] at ends
  rw [← reads, e] at type
  rw [e] at samescan
  refine ⟨_, copyEnd_eq (u := s.readPattern l) writes locked here inside scan wanted capturing (c := .endPattern) rfl ?_ type ?_ ?_, ?_⟩
  · rw [ends]
    exact samescan
  · rw [ends]
  · rw [ends]
  · rw [ends]
    exact ⟨rfl, rfl, rfl, rfl, rfl, rfl⟩

end

/-! ### End of data in the place of D (R16, R97) -/

theorem leaveRead_typeCode (s : State) : s.leaveRead.rtc.typeCode = s.rtc.typeCode := by
  have stops (t : State) : t.stopReader.rtc.typeCode = t.rtc.typeCode := by
    unfold State.stopReader State.when
    dsimp only
    split <;> split <;> simp [setGoal_typeCode]
  unfold State.leaveRead State.discardRead
  split
  · rw [setDirection_rtc]
    exact stops _
  · rfl

theorem leaveRead_dram (s : State) : s.leaveRead.dbm.dram = s.dbm.dram := by
  unfold State.leaveRead State.discardRead
  split
  · obtain ⟨slots, rtc, sv, e, -⟩ := stopReader_rest ((s.onDbm Dbm.discardAll).onRx Rx.giveUp)
    rw [setDirection_dbm, e]
    rfl
  · rfl

/-- The object that the EOD found in the place of dataset n becomes. -/
def Cut.endObject (c : Cut) (n : Nat) : Nat := if n = 0 then 0 else c.first

/-- The tape's end reported by a load of D alone whose EOD is not known: it becomes known, and bounds the position (R114, log 48). -/
theorem reportReadEnd_alone {s : State} {n p : Nat} {c : Cut} (alone : s.rdr.alone = true) (expected : s.rdr.expected = some (n, p))
    (cut : s.pu.cut = some c) (unknown : s.pu.eod[p]? = some none) (place : Loc) (pattern : Bool) :
    ∃ pu : Pu, s.reportReadEnd place pattern = { s with pu := pu }
      ∧ pu.eod[p]? = some (some { object := c.endObject n, last := if n = 0 then none else some (n - 1), mark := place, onTape := pattern })
      ∧ pu.object = min s.pu.object (c.endObject n) ∧ pu.partition = s.pu.partition ∧ pu.scan = s.pu.scan := by
  have lt : p < s.pu.eod.length := (List.getElem?_eq_some_iff.mp unknown).1
  have first : (s.endBefore n p).1 = c.endObject n := by
    unfold State.endBefore Cut.endObject
    rw [alone, cut]
    split <;> rfl
  unfold State.reportReadEnd
  rw [expected]
  dsimp only
  rw [if_neg (by simp [State.eodOf, List.getD, unknown]), alone, first]
  unfold State.when
  by_cases beyond : c.endObject n < s.pu.object
  · rw [if_pos (by simpa using beyond)]
    refine ⟨_, rfl, ?_, ?_, rfl, rfl⟩
    · exact List.getElem?_set_self lt
    · exact (min_eq_right beyond.le).symm
  · rw [if_neg (by simpa using beyond)]
    refine ⟨_, rfl, ?_, ?_, rfl, rfl⟩
    · exact List.getElem?_set_self lt
    · exact (min_eq_left (Nat.le_of_not_lt beyond)).symm

/-- The command that waits for D ends, the read path given up (R16, R97). -/
theorem settleFails_ends {s : State} {q : Queued} {rest : List Queued} (read : s.dbm.direction = .read) (queue : s.cu.queue = q :: rest)
    (begun : q.begun = true) : ∃ (dbm : Dbm) (rx : Rx) (sm : Sm) (rtc : Rtc) (sv : Sv) (flags credits : Nat), s.settleFails = { s with
      dbm := dbm, rx := rx, rdr := Rdr.stopped s.rdr, sm := sm, rtc := rtc, sv := sv, pu := { s.pu with cut := none },
      spu := { s.spu with credits := credits, out := s.spu.out ++ [.resp q.tag q.command.name
        (.done .mediumError { object := s.pu.object, flags := flags } [])] },
      cu := { s.cu with queue := rest, progress := .none, count := 0, finals := 0 } }
    ∧ dbm.slots = [] ∧ dbm.direction = .neutral ∧ dbm.dram = s.dbm.dram ∧ rtc.typeCode = s.rtc.typeCode := by
  have dram := leaveRead_dram s
  have type := leaveRead_typeCode s
  obtain ⟨dbm, rx, sm, rtc, sv, left, slots, direction, -, -, -⟩ := leaveRead_read read
  rw [left] at dram type
  obtain ⟨v, hv⟩ : ∃ v : State, v = s.leaveRead.onPu (fun u => { u with cut := none }) := ⟨_, rfl⟩
  have vqueue : v.cu.queue = q :: rest := by rw [hv, left]; exact queue
  obtain ⟨flags, credits, done⟩ := complete_answers vqueue .mediumError { object := v.pu.object }
  have ends : s.settleFails = v.complete .mediumError { object := v.pu.object } := by
    unfold State.settleFails
    dsimp only
    rw [← hv, executing_of_begun vqueue begun]
  rw [left] at hv
  refine ⟨dbm, rx, sm, rtc, sv, flags, credits, ?_, slots, direction, dram, type⟩
  rw [ends, done, hv]
  rfl

theorem pattern_ends_alone {s : State} {l : Loc} (locked : s.locked = true) (here : s.pitchHere = some l)
    (inside : l.pitch + 1 < s.pitches) (scan : s.pu.scan = none) (wanted : s.rdr.wanted = false) (capturing : s.rdr.activity = .capturing)
    (copyOpen : s.rdr.copyOpen = true) (unseen : s.rdr.unseen = none) {n p : Nat} {c : Cut} {place : Loc} {q : Queued} {rest : List Queued}
    (expected : s.rdr.expected = some (n, p)) (alone : s.rdr.alone = true) (cut : s.pu.cut = some c)
    (start : s.rdr.copies[s.rdr.copy.getD 1 - 1]? = some place) (read : s.dbm.direction = .read) (queue : s.cu.queue = q :: rest)
    (begun : q.begun = true) (unknown : s.pu.eod[p]? = some none) :
    ∃ (t : State) (before : List Packet) (flags : Nat), exec (.readPitch .endPattern) s = .next t
        ∧ t.pu.eod[p]? = some (some { object := c.endObject n, last := if n = 0 then none else some (n - 1), mark := place, onTape := false })
        ∧ t.pu.object = min s.pu.object (c.endObject n) ∧ t.pu.partition = s.pu.partition ∧ t.pu.cut = none
        ∧ t.cu.queue = rest ∧ t.spu.out = before ++ [.resp q.tag q.command.name (.done .mediumError { object := t.pu.object, flags := flags } [])]
        ∧ t.rdr.activity = .idle ∧ t.dbm.slots = [] ∧ t.dbm.direction = .neutral ∧ t.dbm.dram = s.dbm.dram := by
  obtain ⟨v, handed, reads⟩ := pattern_unclosed (l := l) capturing copyOpen unseen
  obtain ⟨eu, sm, out, index, speed, sv, e, -⟩ := handed
  have valone : v.rdr.alone = true := by rw [e]; exact alone
  have copyPlace : s.rdr.copyPlace = place := by
    unfold Rdr.copyPlace Rdr.start
    rw [start]
    rfl
  obtain ⟨pu, reported, eod, object, partition, samescan⟩ := reportReadEnd_alone (s := v.dropLoading) (by rw [dropLoading_eq]; exact valone)
    (by rw [dropLoading_eq, e]; exact expected) (by rw [dropLoading_eq, e]; exact cut) (by rw [dropLoading_eq, e]; exact unknown) place false
  rw [dropLoading_eq, e] at object partition samescan
  obtain ⟨w, hw⟩ : ∃ w : State, w = ({ v.dropLoading with pu := pu, rdr := v.rdr.endedBy .endOfData } : State).setGoal .stop := ⟨_, rfl⟩
  have ends : s.readPattern l = w.settleFails := by
    rw [reads, copyPlace, hw]
    unfold State.readerEnds
    dsimp only
    rw [valone, reported, dropLoading_eq]
    rfl
  have wtype : w.rtc.typeCode = s.rtc.typeCode := by rw [hw, setGoal_typeCode, dropLoading_eq, e]
  obtain ⟨rtc', sv', ended⟩ := (Drives.setGoal ({ v.dropLoading with pu := pu, rdr := v.rdr.endedBy .endOfData } : State) .stop rfl).rest
  rw [← hw, dropLoading_eq, e] at ended
  obtain ⟨dbm, rx, sm', rtc, sv'', flags, credits, settled, slots, direction, dram, type⟩ :=
    settleFails_ends (s := w) (by rw [ended]; exact read) (by rw [ended]; exact queue) begun
  have wdram : w.dbm.dram = s.dbm.dram := by rw [ended]
  have wpu : w.pu = pu := by rw [ended]
  refine ⟨w.settleFails, w.spu.out, flags, readPitch_eq locked here inside wanted (.inr capturing) (c := .endPattern) ends ?_ ?_ ?_, ?_⟩
  · rw [settled]
    show w.pu.scan = none
    rw [wpu, samescan, scan]
  · rw [settled]
    exact type.trans wtype
  · rw [settled]
    exact advance_of_writeIdle ((writeIdle_iff _).mpr ⟨by simp [direction], rfl, by simp⟩)
  · rw [settled]
    exact ⟨by rw [← eod, ← wpu], by rw [← object, ← wpu], by rw [← partition, ← wpu], rfl, rfl, rfl, rfl, slots, direction, dram.trans wdram⟩

end Sys2Proof.Machine
end

section
/-!
PROPERTY. The dataset D of a truncating write, loaded alone, is converted (R16, R17, R46, R118).
-/
namespace Sys2Proof.Machine
open Sys2Proof.Laws

/-! ### The entries that stay at a cut (R16, R35) -/

/-- The object an entry belongs to: those completed before it are behind it. -/
def objectAt (kind : Nat → EntryKind) (first j : Nat) : Nat := first + ((List.range j).filter (fun k => (kind k).completes)).length

theorem objectAt_succ (kind : Nat → EntryKind) (first j : Nat) :
    objectAt kind first (j + 1) = objectAt (fun k => kind (k + 1)) (if (kind 0).completes then first + 1 else first) j := by
  unfold objectAt
  rw [List.range_succ_eq_map, List.filter_cons, List.filter_map]
  cases (kind 0).completes with
  | true =>
    simp [Function.comp_def]
    omega
  | false => simp [Function.comp_def]

theorem objectAt_mono (kind : Nat → EntryKind) (first : Nat) {i j : Nat} (le : i ≤ j) : objectAt kind first i ≤ objectAt kind first j :=
  Nat.add_le_add_left ((List.range_sublist.mpr le).filter _).length_le _

theorem objectsOf_range (kind : Nat → EntryKind) (first n : Nat) :
    (objectsOf first ((List.range n).map kind)).map Prod.fst = (List.range n).map (objectAt kind first) := by
  induction n generalizing kind first with
  | zero => rfl
  | succ n ih =>
    rw [List.range_succ_eq_map, List.map_cons, List.map_cons, List.map_map, List.map_map]
    unfold objectsOf
    rw [List.map_cons]
    congr 1
    rw [show kind ∘ Nat.succ = fun k => kind (k + 1) from rfl, ih]
    exact List.map_congr_left (fun j _ => (objectAt_succ kind first j).symm)

/-- Entries in order are cut where the first is cut. -/
theorem takeWhile_eq_filter {p : Nat → Bool} {ns : List Nat} (falls : ns.Pairwise (fun i j => p j = true → p i = true)) :
    ns.takeWhile p = ns.filter p := by
  induction ns with
  | nil => rfl
  | cons n ns ih =>
    obtain ⟨first, rest⟩ := List.pairwise_cons.mp falls
    cases e : p n with
    | true => rw [List.takeWhile_cons_of_pos e, List.filter_cons_of_pos e, ih rest]
    | false =>
      have none_ : ns.filter p = [] := List.filter_eq_nil_iff.mpr (fun j mem h => by simp [first j mem h] at e)
      rw [List.takeWhile_cons_of_neg (by simp [e]), List.filter_cons_of_neg (by simp [e]), none_]

/-- The entries of a slot that belong to objects before the cut. -/
theorem keptEntries_eq (m : Memory) (base n first cutAt : Nat) : keptEntries first cutAt (m.entryList base n)
    = ((List.range n).filter (fun j => decide (objectAt (fun k => (m.entry base k).kind) first j < cutAt))).map (m.entry base) := by
  unfold keptEntries Memory.entryList
  dsimp only
  have kinds : ((List.range n).map (m.entry base)).map IndexEntry.kind = (List.range n).map (fun k => (m.entry base k).kind) := by
    rw [List.map_map]
    rfl
  rw [kinds, objectsOf_range, List.zip_map', List.takeWhile_map, List.map_map]
  have falls : (List.range n).Pairwise (fun i j => decide (objectAt (fun k => (m.entry base k).kind) first j < cutAt) = true
      → decide (objectAt (fun k => (m.entry base k).kind) first i < cutAt) = true) :=
    List.pairwise_lt_range.imp (fun lt below => by
      simp only [decide_eq_true_iff] at below ⊢
      exact Nat.lt_of_le_of_lt (objectAt_mono _ _ (Nat.le_of_lt lt)) below)
  rw [← takeWhile_eq_filter falls]
  rfl

/-! ### The conversion (R16, R17, R118) -/

section
variable {s : State} {c : Cut}

theorem cutAtD_rest (c : Cut) (fm : Nat) : ∃ (pu : Pu) (wf : Wf) (tape : List TapeWrite), s.cutAtD c fm = { s with pu := pu, wf := wf, tape := tape }
    ∧ pu.eod = s.pu.eod.set s.pu.partition (some {
        object := c.cutAt, last := if c.dataset = 0 then none else some (c.dataset - 1), mark := c.start, onTape := false })
    ∧ pu.partition = s.pu.partition ∧ pu.cut = none ∧ pu.scan = s.pu.scan
    ∧ wf.appendPoint = some c.start ∧ wf.eodPending = true ∧ wf.stage = .idle := by
  have yields (t : State) : ∃ (wf : Wf) (tape : List TapeWrite), t.wfYield = { t with wf := wf, tape := tape } := by
    unfold State.wfYield State.when
    split
    · obtain ⟨tape, cut⟩ := cutOff_rest t
      dsimp only
      rw [cut]
      exact ⟨_, tape, rfl⟩
    · exact ⟨t.wf, t.tape, rfl⟩
  unfold State.cutAtD
  dsimp only
  generalize marked : State.setEod _ _ _ = t
  obtain ⟨wf, tape, e⟩ := yields t
  rw [e, ← marked]
  exact ⟨_, _, tape, rfl, rfl, rfl, rfl, rfl, rfl, rfl, rfl⟩

/-- The FILLING slot that D becomes, the entries before the cut kept. -/
def Slot.cutTo (y : Slot) (kept : List IndexEntry) : Slot :=
  { y with state := .filling, entries := some kept.length, payload := some (kept.map IndexEntry.stored).sum, attempt := some 1, passes := none,
           outcome := none, objects := completing kept, filemarks := filemarksIn kept }

/-- The buffer handed from the Reader to the write path: the one slot FILLING, a new history owed. -/
def State.turned (s : State) (y : Slot) (kept : List IndexEntry) : State :=
  (((((s.onRx Rx.giveUp).onRdr Rdr.stopped).onDbm (fun d => { d with slots := [y.cutTo kept], drain := s.dbm.number 0 })).setDirection .write).onRc
    Rc.emptyHistory).when (!kept.isEmpty) State.startSealTimer

theorem convertD_eq {y : Slot} {count : Nat} (slots : s.dbm.slots = [y]) (writing : s.executing = some (.wrec count)) {kept : List IndexEntry}
    (kept_ : keptEntries (y.first.getD 0) c.cutAt (s.dbm.dram.entryList (s.dbm.base 0) (y.entries.getD 0)) = kept) : s.convertD c 0
      = (((s.turned y kept).cutAtD c (c.filemarks + filemarksIn kept)).onCu (fun u => { u with progress := .writing })).grantCredits := by
  have same {t : State} (cu : t.cu = s.cu) : t.executing = some (.wrec count) := by
    unfold State.executing at writing ⊢
    rw [cu]
    exact writing
  have cut (fm : Nat) : ((s.turned y kept).cutAtD c fm).executing = some (.wrec count) := by
    obtain ⟨pu, wf, tape, e, -⟩ := cutAtD_rest (s := s.turned y kept) c fm
    refine same ?_
    rw [e]
    show (State.when _ _ _).cu = s.cu
    unfold State.when
    split
    · exact setDirection_cu _ _
    · exact setDirection_cu _ _
  unfold State.convertD
  rw [slots]
  dsimp only [List.getElem?_cons_zero]
  rw [kept_]
  generalize turned : State.cutAtD _ _ _ = t
  have writes : t.executing = some (.wrec count) := by
    rw [← turned]
    exact cut _
  rw [writes]
  dsimp only
  unfold State.takeUpWriting
  rw [writes, ← turned]
  rfl

end

end Sys2Proof.Machine
end

section
/-!
PROPERTY. The copy being captured ends: its evaluation, and what follows (R16, R17, R46, R84, R89 to R98, R118).
-/
namespace Sys2Proof.Machine
open Sys2Proof.Laws

section
variable {s : State} {c : Cut} {y : Slot} {kept : List IndexEntry}

theorem turned_rest (read : s.dbm.direction = .read) (y : Slot) (kept : List IndexEntry) : ∃ (dbm : Dbm) (rc : Rc) (rx : Rx) (sm : Sm),
    s.turned y kept = { s with dbm := dbm, rc := rc, rx := rx, sm := sm, rdr := Rdr.stopped s.rdr }
    ∧ dbm.slots = [y.cutTo kept] ∧ dbm.drain = s.dbm.drain % 512 ∧ dbm.direction = .write ∧ dbm.dram = s.dbm.dram ∧ dbm.staging = s.dbm.staging
    ∧ (kept ≠ [] → dbm.sealTimer = some { elapsed := 0, period := s.sm.table.sealTimeout }) ∧ rc.history = [] ∧ rc.resetOwed = true := by
  have number : s.dbm.number 0 = s.dbm.drain % 512 := by
    unfold Dbm.number Config.slotCount
    rw [Nat.add_zero]
  have before : ∃ (dbm : Dbm) (rc : Rc) (rx : Rx) (sm : Sm),
      ((((s.onRx Rx.giveUp).onRdr Rdr.stopped).onDbm (fun d => { d with slots := [y.cutTo kept], drain := s.dbm.number 0 })).setDirection .write).onRc
        Rc.emptyHistory = { s with dbm := dbm, rc := rc, rx := rx, sm := sm, rdr := Rdr.stopped s.rdr }
      ∧ dbm.slots = [y.cutTo kept] ∧ dbm.drain = s.dbm.drain % 512 ∧ dbm.direction = .write ∧ dbm.dram = s.dbm.dram ∧ dbm.staging = s.dbm.staging
      ∧ sm.table = s.sm.table ∧ rc.history = [] ∧ rc.resetOwed = true := by
    unfold State.setDirection
    rw [if_neg (by simp [read]), number]
    exact ⟨_, _, _, _, rfl, rfl, rfl, rfl, rfl, rfl, rfl, rfl, rfl⟩
  obtain ⟨dbm, rc, rx, sm, e, slots, drain, direction, dram, staging, table, history, owed⟩ := before
  unfold State.turned
  rw [e, ← table]
  cases empty : kept.isEmpty with
  | true => exact ⟨dbm, rc, rx, sm, rfl, slots, drain, direction, dram, staging, fun some_ => absurd (List.isEmpty_iff.mp empty) some_, history, owed⟩
  | false => exact ⟨_, rc, rx, sm, rfl, slots, drain, direction, dram, staging, fun _ => rfl, history, owed⟩

/-- The state once D is converted for a WRITE_RECORDS. -/
structure Converted (s : State) (c : Cut) (y : Slot) (kept : List IndexEntry) (t : State) : Prop where
  slots : t.dbm.slots = [y.cutTo kept]
  drain : t.dbm.drain = s.dbm.drain % 512
  direction : t.dbm.direction = .write
  dram : t.dbm.dram = s.dbm.dram
  seal_ : kept ≠ [] → t.dbm.sealTimer = some { elapsed := 0, period := s.sm.table.sealTimeout }
  history : t.rc.history = [] ∧ t.rc.resetOwed = true
  reader : t.rdr.activity = .idle
  eod : t.pu.eod.getD s.pu.partition none
    = some { object := c.cutAt, last := if c.dataset = 0 then none else some (c.dataset - 1), mark := c.start, onTape := false }
  pu : t.pu.cut = none ∧ t.pu.scan = s.pu.scan
  wf : t.wf.appendPoint = some c.start ∧ t.wf.eodPending = true ∧ t.wf.stage = .idle
  cu : t.cu = { s.cu with progress := .writing }
  credits : t.spu.credits = 256 ∧ t.spu.out = s.spu.out ++ [.wcrd 256]
  rtc : t.rtc = s.rtc

theorem convertD_converted {count : Nat} (slots : s.dbm.slots = [y]) (writing : s.executing = some (.wrec count)) (read : s.dbm.direction = .read)
    (deferred : s.cu.deferred = none) (staging : s.dbm.staging = []) (credits : s.spu.credits = 0) (lt : s.pu.partition < s.pu.eod.length)
    (kept_ : keptEntries (y.first.getD 0) c.cutAt (s.dbm.dram.entryList (s.dbm.base 0) (y.entries.getD 0)) = kept) :
    Converted s c y kept (s.convertD c 0) := by
  obtain ⟨dbm, rc, rx, sm, turned, dslots, ddrain, ddirection, ddram, dstaging, dseal, history, owed⟩ := turned_rest read y kept
  obtain ⟨pu, wf, tape, cut, eod, partition, pcut, pscan, append, pending, stage⟩ := cutAtD_rest (s := s.turned y kept) c (c.filemarks + filemarksIn kept)
  rw [turned] at cut eod partition pscan
  obtain ⟨v, hv⟩ : ∃ v : State, v = ((s.turned y kept).cutAtD c (c.filemarks + filemarksIn kept)).onCu (fun u => { u with progress := .writing }) :=
    ⟨_, rfl⟩
  have converts : s.convertD c 0 = v.grantCredits := (convertD_eq slots writing kept_).trans (by rw [hv])
  rw [turned, cut] at hv
  have grant : v.grantable = 256 := by
    have records : v.writingRecords = true := by
      have same : v.executing = s.executing := by rw [hv]; rfl
      unfold State.writingRecords
      rw [same, writing]
    have free : 2 < v.dbm.free := by rw [hv]; simp [Dbm.free, dslots, Config.slotCount]
    unfold State.grantable
    rw [if_pos ⟨records, by rw [hv]; rfl, by rw [hv]; exact ddirection, by rw [hv]; exact deferred, free⟩]
    rw [hv]
    show 256 - (dbm.staging.length + s.spu.credits) = 256
    rw [dstaging, staging, credits]
    rfl
  rw [converts, grantCredits_eq, grant, hv]
  refine ⟨dslots, ddrain, ddirection, ddram, dseal, ⟨history, owed⟩, rfl, ?_, ⟨pcut, pscan⟩, ⟨append, pending, stage⟩, rfl, ⟨?_, rfl⟩, rfl⟩
  · show pu.eod.getD s.pu.partition none = _
    rw [eod]
    simp [List.getD, lt]
  · show s.spu.credits + 256 = 256
    rw [credits]

end

section
variable {s : State} {l : Loc} {i : Nat} {x : Slot}

theorem find_ready_single {d : Dbm} {y : Slot} (slots : d.slots = [y]) (ready : y.state = .ready) : d.find .ready = some 0 := by
  unfold Dbm.find
  rw [slots]
  simp [ready]

/-- A load of D alone that corrects it converts it (R16). -/
theorem separator_converts (locked : s.locked = true) (here : s.pitchHere = some l) (inside : l.pitch + 1 < s.pitches) (scan : s.pu.scan = none)
    (wanted : s.rdr.wanted = false) (capturing : s.rdr.activity = .capturing) (copyOpen : s.rdr.copyOpen = true)
    (found : s.dbm.find .loading = some i) (at_ : s.dbm.slots[i]? = some x) (alone : s.rdr.alone = true) {tr : Trailer}
    (evaluation : s.evaluation = some tr) {c : Cut} (cut : s.pu.cut = some c) (settles : s.cu.progress = .settleD) {count : Nat}
    (writing : s.executing = some (.wrec count)) (deferred : s.cu.deferred = none) (read : s.dbm.direction = .read) (slots : s.dbm.slots = [x])
    (staging : s.dbm.staging = []) (credits : s.spu.credits = 0) (lt : s.pu.partition < s.pu.eod.length) {kept : List IndexEntry}
    (kept_ : keptEntries tr.first c.cutAt (s.corrected.entryList (2097152 * ((s.dbm.drain + i) % 512)) tr.entries) = kept) :
    ∃ g t : State, exec (.readPitch .separator) s = .next t ∧ Converted g c (x.readied tr s.rdr.erasedCount) kept t
      ∧ g.dbm.drain = s.dbm.drain ∧ g.dbm.dram = s.corrected ∧ g.sm.table = s.sm.table ∧ g.pu.partition = s.pu.partition ∧ g.cu = s.cu := by
  have first : i = 0 := by
    have := (List.getElem?_eq_some_iff.mp at_).1
    rw [slots] at this
    simpa using this
  subst first
  obtain ⟨v, handed, reads⟩ := separator_corrects (l := l) capturing copyOpen evaluation
  obtain ⟨eu, sm, out, index, speed, sv, e, table⟩ := handed
  obtain ⟨pu, ready, proven⟩ := readied_eq (f := v.fixed s.corrected) (i := 0) tr
  obtain ⟨w, hw⟩ : ∃ w : State, w = (v.fixed s.corrected).readied tr 0 := ⟨_, rfl⟩
  have walone : w.rdr.alone = true := by rw [hw, readied_rdr, State.fixed, e]; exact alone
  have rests : s.readSeparator l = w.restsAlone.convertsReady := by
    rw [hw]
    refine (reads.trans (datasetReady_eq tr (by rw [State.fixed, e]; exact found))).trans (if_pos ?_)
    rw [← hw]
    exact walone
  rw [← hw, State.fixed, e] at ready
  rw [State.fixed, e] at proven
  obtain ⟨g, hg⟩ : ∃ g : State, g = w.restsAlone := ⟨_, rfl⟩
  have gslots : g.dbm.slots = [x.readied tr s.rdr.erasedCount] := by
    rw [hg, State.restsAlone, setGoal_dbm, onRdr_dbm, ready]
    show List.modify s.dbm.slots 0 _ = _
    rw [slots]
    exact congrArg (fun erased => [x.readied tr erased]) (erasedCount_congr rfl)
  have gdbm : g.dbm.drain = s.dbm.drain ∧ g.dbm.dram = s.corrected ∧ g.dbm.direction = .read ∧ g.dbm.staging = [] := by
    rw [hg, State.restsAlone, setGoal_dbm, onRdr_dbm, ready]
    exact ⟨rfl, rfl, read, staging⟩
  obtain ⟨gdrain, gdram, gread, gstaging⟩ := gdbm
  have gpu : g.pu = pu := by rw [hg, State.restsAlone, setGoal_pu, onRdr_pu, ready]
  have gcu : g.cu = s.cu := by rw [hg, State.restsAlone, setGoal_cu, onRdr_cu, ready]
  have gcredits : g.spu.credits = 0 := by
    rw [hg, State.restsAlone, setGoal_credits, onRdr_spu, ready]
    exact credits
  have gtable : g.sm.table = s.sm.table := by
    obtain ⟨_, _, stopped⟩ := (Drives.setGoal (w.onRdr (fun r => { Rdr.emptyMap r with
      activity := .ended .endOfData, wanted := false, target := none, alone := false })) .stop rfl).rest
    rw [hg, State.restsAlone, stopped, ready]
    exact table
  have gtype : g.rtc.typeCode = s.rtc.typeCode := by rw [hg, State.restsAlone, setGoal_typeCode, onRdr_rtc, ready]
  have gwriting : g.executing = some (.wrec count) := by
    unfold State.executing at writing ⊢
    rw [gcu]
    exact writing
  have converted : Converted g c (x.readied tr s.rdr.erasedCount) kept (g.convertD c 0) := by
    refine convertD_converted gslots gwriting gread (by rw [gcu]; exact deferred) gstaging gcredits ?_ ?_
    · rw [gpu, proven.partition, proven.eod]
      exact lt
    · rw [← kept_, gdram]
      unfold Dbm.base Dbm.number
      rw [gdrain]
      rfl
  have converts : s.readSeparator l = g.convertD c 0 := by
    rw [rests, ← hg]
    unfold State.convertsReady
    rw [gpu, proven.cut, cut, find_ready_single gslots rfl, gcu]
    exact if_pos settles
  refine ⟨g, _, readPitch_eq locked here inside wanted (.inr capturing) (c := .separator) converts ?_ ?_ ?_, converted, gdrain, gdram, gtable, ?_, gcu⟩
  · rw [converted.pu.2, gpu, proven.scan, scan]
  · rw [converted.rtc, gtype]
  · refine advance_eq ?_ ?_ ?_
    · simp [State.writesNext, converted.slots, Slot.cutTo]
    · rw [converted.cu]
      rfl
    · rw [converted.cu]
      simp
  · rw [gpu, proven.partition]

end

end Sys2Proof.Machine
end

section
/-!
PROPERTY. The copy being captured ends: its evaluation, and what follows (R16, R17, R46, R84, R89 to R98, R118).
-/
namespace Sys2Proof.Machine
open Sys2Proof.Laws

/-- What R16 keeps of D's slot, in the terms of its index (R30, R35). -/
theorem cutTo_readied (x : Slot) (tr : Trailer) (erased cutAt base : Nat) (m : Memory) (js : List Nat)
    (kept : js = (List.range tr.entries).filter (fun j => decide (objectAt (fun k => (m.entry base k).kind) tr.first j < cutAt))) :
    (x.readied tr erased).cutTo (keptEntries tr.first cutAt (m.entryList base tr.entries))
      = { x with state := .filling, first := some tr.first, filemarksBefore := some tr.filemarks, entries := some js.length,
                 payload := some (js.map (fun j => (m.entry base j).stored)).sum, attempt := some 1, passes := none, outcome := none,
                 objects := (js.filter (fun j => (m.entry base j).kind.completes)).length,
                 filemarks := (js.filter (fun j => (m.entry base j).kind == .filemark)).length } := by
  rw [keptEntries_eq, ← kept]
  unfold Slot.cutTo Slot.readied completing filemarksIn
  rw [List.length_map, List.map_map, List.filter_map, List.filter_map, List.length_map, List.length_map]
  rfl

/-- Settles O37, by what the evaluation of the copy gives, and for a load of D alone by the conversion or the end that follows. -/
theorem copyEvaluated : Obligations.CopyEvaluated := by
  intro s l n p i x writes locked here inside scan wanted expected capturing copyOpen found at_ base good written m
  have readBase := readBase_capturing capturing found
  refine ⟨corrected_spec expected readBase, fun alone => ⟨fun tr evaluation => ?_, fun evaluation =>
    ⟨fun first => ?_, fun k pass later last => ⟨?_, ?_⟩⟩, ?_⟩, ?_, ?_⟩
  · obtain ⟨-, few, partition, dataset, passes⟩ := evaluation_passes expected readBase evaluation
    have ready := separator_ready writes locked here inside scan wanted capturing copyOpen found at_ alone evaluation
    rw [partition, dataset] at ready
    exact ⟨few, partition, dataset, passes.1, passes.2.1, passes.2.2, ready⟩
  · exact separator_seeks writes locked here inside scan wanted capturing copyOpen evaluation first
  · intro more start head
    exact separator_retries writes locked here inside scan wanted capturing copyOpen evaluation pass later last found at_ more head
  · intro none_
    exact separator_fails writes locked here inside scan wanted capturing copyOpen evaluation pass later last found at_ alone none_
  · intro unseen
    exact pattern_ends writes locked here inside scan wanted capturing copyOpen unseen alone
  · intro tr c count alone evaluation cut settles writing deferred read slots staging credits lt entry object kept filemarks
    obtain ⟨g, t, step, converted, drain, dram, table, partition, cu⟩ := separator_converts locked here inside scan wanted capturing copyOpen found at_
      alone evaluation cut settles writing deferred read slots staging credits lt rfl
    have slot := cutTo_readied x tr s.rdr.erasedCount c.cutAt base m kept rfl
    have some_ : kept ≠ [] → keptEntries tr.first c.cutAt (m.entryList base tr.entries) ≠ [] := by
      rw [keptEntries_eq]
      exact fun h e => h (List.map_eq_nil_iff.mp e)
    refine ⟨t, g.spu.out, step, converted.direction, converted.slots.trans (congrArg (fun y => [y]) slot), ?_, converted.dram.trans dram,
      fun h => ?_, converted.history.1, converted.history.2, converted.reader, ?_, converted.pu.1, converted.wf.1, converted.wf.2.1, converted.wf.2.2,
      ?_, ?_, converted.credits.1, converted.credits.2⟩
    · rw [converted.drain, drain]
    · rw [converted.seal_ (some_ h), table]
    · rw [← partition]
      exact converted.eod
    · rw [converted.cu, cu]
    · rw [converted.cu]
  · intro c place q rest alone unseen cut start read queue begun unknown
    exact pattern_ends_alone locked here inside scan wanted capturing copyOpen unseen expected alone cut start read queue begun unknown

end Sys2Proof.Machine
end
